-- ==== Sys2Proof/Word.lean ====
section
/-! DEFINITION. The word types of the HX-9640 and the sparse store that every addressed memory of the model is. -/

namespace Sys2Proof

/-- Eight bits. -/
abbrev Byte := BitVec 8
/-- A register of BAR0 (R5) or one slot of a bundle (R266). -/
abbrev Word := BitVec 32
/-- A residue (R29). -/
abbrev Residue := BitVec 36
/-- The 4,608 bits of a scratchpad row or a memory sector, read as one little-endian value (R29). -/
abbrev SectorBits := BitVec 4608
/-- A vector register: 1024 lanes (R57), lane 0 first. -/
abbrev Vec := List Residue

/-- T00 to T63 (R12). -/
abbrev TileId := BitVec 6
/-- Lock groups 0 to 15 (R234). -/
abbrev GroupId := BitVec 4
/-- GD0 to GD3 (R11). -/
abbrev DieId := BitVec 2

/-- A sparse store: the listed addresses in strictly rising order, each with its contents. -/
abbrev Sparse (α : Type) := List (Nat × α)

end Sys2Proof
end

