-- ==== Sys2Proof/Syntax.lean ====
section
/-! DEFINITION. The commands of the block: one constructor per row of spec/opcode_table.json, in the table's order.
The rows carry no bits and no operands, so each constructor carries what the rule of its row names (log 6). -/

namespace Sys2Proof

/-- What the row ECC finds on an engine read (R141, R143). -/
inductive EccOutcome
  | clean | corrected | uncorrectable
deriving DecidableEq, Repr

/-- What the row ECC finds on a read that is not the engine's: whether it corrects, and the uncorrectable codewords (R142, R143). -/
structure RowEcc where
  corrected : Bool := false
  uncorrectable : BitVec 64 := 0
deriving DecidableEq, Repr, Inhabited

/-- A fault inside a transform (R82): what is added mod q to output elements, to limb-store words (128 · sector + position), to tile
words (16,384 · block + 128 · row + column), and to the checker's elements 0 and N/2. -/
structure Upset where
  outputs : List (Nat × Residue) := []
  store : List (Nat × Residue) := []
  tile : List (Nat × Residue) := []
  a0 : Residue := 0
  ah : Residue := 0
deriving DecidableEq, Repr

/-- What the ECC of a DRAM sector finds on a read: codewords corrected, and codewords uncorrectable (R205, R206). -/
structure SectorEcc where
  ce : BitVec 32 := 0
  ue : BitVec 32 := 0
deriving DecidableEq, Repr, Inhabited

/-- What the reads of one page meet: by sector, what the ECC finds, the 64-byte lines a far-tier link delivers as poisoned, and the far-tier
sectors whose read times out (R205, R206, R218). -/
structure PageFindings where
  ecc : List (Nat × SectorEcc) := []
  lines : List (Nat × BitVec 9) := []
  timeouts : List Nat := []
deriving DecidableEq, Repr, Inhabited

/-- What an accumulate meets: the poison of its operand, and what the ECC finds on the read of its target (R206, R212). -/
structure AccErrors where
  operand : BitVec 32 := 0
  target : SectorEcc := {}
deriving DecidableEq, Repr

/-- The fill of a key ring, with what the reads of the page's b sectors meet (R191, R206, R218). -/
structure RingFill where
  ring : BitVec 2
  seen : PageFindings := {}
deriving DecidableEq, Repr

/-- A plan, with what the ECC finds in the near-tier sectors that its sums read (R205, R206). -/
structure PlanReads where
  plan : BitVec 4
  seen : List (Nat × SectorEcc) := []
deriving DecidableEq, Repr

/-- A write of CQ_CTRL, with the number of records that host memory takes before a write to it fails, none where none fails (R323). -/
structure CqWrite where
  value : Word
  fails : Option Nat := none
deriving DecidableEq, Repr

/-- Whether the host marks a write of the window as poisoned, and what the reads of the sectors it covers in part meet, in order (R205, R206, R320). -/
structure WindowWrite where
  poisoned : Bool := false
  ecc : List SectorEcc := []
deriving DecidableEq, Repr

/-- The length of a read of the window, with what the reads of its sectors meet, in order (R205, R206, R320). -/
structure WindowRead where
  length : Nat
  ecc : List SectorEcc := []
deriving DecidableEq, Repr

/-- What a sentinel sample meets: whether the array's value is at fault, and what the reads of the A or shadow row and of the B row find (R113, R142). -/
structure SampleSeen where
  faulty : Bool := false
  a : RowEcc := {}
  b : RowEcc := {}
deriving DecidableEq, Repr

/-- Accumulate operations (R211). -/
inductive AccOp
  | modAdd | int32Add | fp32Add
deriving DecidableEq, Repr

/-- What the sensors read at an arbiter evaluation (R381, R384): package watts, and the hottest junction of GD0 to GD3 and the Nucleus. -/
structure Sensors where
  package : BitVec 16
  junction : List Byte
deriving DecidableEq, Repr

/-- What was lost (R389): the reference, or the lock of one PLL. -/
inductive ClockLoss
  | refclk | core | nucleus | dram
deriving DecidableEq, Repr

/-- Causes of entry to FAULTED (R433). -/
inductive FaultCause
  | clock | puf | fwAuth | entropy | nucleus | dieLink | channel | loadApply | sanitizeWrite
deriving DecidableEq, Repr

/-- What boot meets on its way (R423): the first failing hardware step with its unit (of ENTROPY: the test that failed, R413), the power-up response of
the PUF (R397), what the far tier and the host link show, and the time taken. Whether PUF and FW_AUTH fail follows from the response and the flash. -/
structure BootSeen where
  failure : Option (FaultCause × Byte)
  farUp : BitVec 4
  farDown : BitVec 4
  farUnits : List Nat
  farSlow : Bool
  linkWidth : BitVec 5
  linkRate : BitVec 7
  sanitizeFails : Bool
  micros : Word
  puf : List Byte := []
deriving DecidableEq, Repr

/-- TAP instructions (R445). -/
inductive TapInstruction
  | bypass | idcode | samplePreload | extest | extestPulse | extestTrain
deriving DecidableEq, Repr

/-- What an access of the host reaches (R319): BAR0, BAR2, or the function's control of the size of BAR4. -/
inductive Bar
  | bar0 | bar2 | bar4Size
deriving DecidableEq, Repr

/-- A register access of the host: offset and bytes (R319). -/
structure Access where
  bar : Bar := .bar0
  offset : BitVec 26
  bytes : Nat := 4
deriving DecidableEq, Repr

/-- A 32-bit access of BAR0. -/
def Access.reg (offset : BitVec 26) : Access := { offset := offset }

/-- Whether BAR0 and BAR2 accept an access: 32 bits, aligned to 4 bytes (R319). -/
def Access.ok (a : Access) : Bool := a.bytes == 4 && a.offset.toNat % 4 == 0

/-- A read of host memory by the device: nothing when it completed with an error or poisoned. -/
abbrev HostRead := Option (List Byte)

/-- The parameter block of an engine operation, and a fault inside the operation: bits that it flips in the first output before the check at its
end (R407, R410). -/
structure PkeRun where
  block : HostRead
  upset : Nat := 0
deriving DecidableEq, Repr

/-- A command packet (R325) as fetched from submission ring `sq`. -/
structure Packet where
  sq : BitVec 6
  bits : BitVec 512
deriving DecidableEq, Repr

/-- What one channel's test found (R206, R214): of uncorrectable codewords, the channel-local page, the sector and the codewords of each read that
met some. -/
structure TestResult where
  channel : BitVec 8
  mismatches : BitVec 24
  ce : BitVec 24
  ue : List (Nat × Nat × BitVec 32)
  passes : Byte
  firstPage : BitVec 16
  firstSector : BitVec 7
deriving DecidableEq, Repr

/-- An owner record (R402): the policy bits and up to four P-384 public keys (x, y). -/
structure OwnerRecord where
  format : Byte
  policy : Byte
  keys : List (Option (Nat × Nat))
deriving DecidableEq, Repr

/-- A firmware component (R394): the image, the public key and the signature. -/
structure FwComponent where
  image : List Byte
  key : Nat × Nat
  r : Nat
  s : Nat
deriving DecidableEq, Repr

/-- A signature by key `keyId` of the current owner record over SHA-384 of the new one (R402). -/
structure OwnerSignature where
  keyId : Nat
  r : Nat
  s : Nat
deriving DecidableEq, Repr

/-- The commands. A slot instruction of tile t carries the operand bits of its slot word: bits [25:0] below the opcode
(R273), bits [21:0] below the class for HOP, bits [29:0] for LOOP. -/
inductive Instr
  /-- NOP (R273). -/
  | nop (t : TileId) (slot : BitVec 2)
  /-- SCHEDULE_CYCLE (R237). -/
  | scheduleCycle (g : GroupId)
  /-- ENGINE_WRITEBACK (R52). -/
  | engineWriteback (t : TileId)
  /-- ENGINE_ROW_DELIVERY (R132). -/
  | engineRowDelivery (t : TileId) (ecc : EccOutcome)
  /-- VADD (R61). -/
  | vadd (t : TileId) (w : BitVec 26)
  /-- VSUB (R61). -/
  | vsub (t : TileId) (w : BitVec 26)
  /-- VNEG (R61). -/
  | vneg (t : TileId) (w : BitVec 26)
  /-- VMUL (R61). -/
  | vmul (t : TileId) (w : BitVec 26)
  /-- VMULS (R61). -/
  | vmuls (t : TileId) (w : BitVec 26)
  /-- VMAD (R280). -/
  | vmad (t : TileId) (w : BitVec 26)
  /-- VMSB (R280). -/
  | vmsb (t : TileId) (w : BitVec 26)
  /-- VMOD (R61). -/
  | vmod (t : TileId) (w : BitVec 26)
  /-- VCMP (R279). -/
  | vcmp (t : TileId) (w : BitVec 26)
  /-- VMIN (R61). -/
  | vmin (t : TileId) (w : BitVec 26)
  /-- VMAX (R61). -/
  | vmax (t : TileId) (w : BitVec 26)
  /-- VSEL (R281). -/
  | vsel (t : TileId) (w : BitVec 26)
  /-- VMOV (R279). -/
  | vmov (t : TileId) (w : BitVec 26)
  /-- VBCAST (R279). -/
  | vbcast (t : TileId) (w : BitVec 26)
  /-- VPERM (R282). -/
  | vperm (t : TileId) (w : BitVec 26)
  /-- KAND (R279). -/
  | kand (t : TileId) (w : BitVec 26)
  /-- KOR (R279). -/
  | kor (t : TileId) (w : BitVec 26)
  /-- KXOR (R279). -/
  | kxor (t : TileId) (w : BitVec 26)
  /-- KNOT (R279). -/
  | knot (t : TileId) (w : BitVec 26)
  /-- KSET (R283). -/
  | kset (t : TileId) (w : BitVec 26)
  /-- KTAIL (R283). -/
  | ktail (t : TileId) (w : BitVec 26)
  /-- FADD (R62). -/
  | fadd (t : TileId) (w : BitVec 26)
  /-- FSUB (R62). -/
  | fsub (t : TileId) (w : BitVec 26)
  /-- FMUL (R62). -/
  | fmul (t : TileId) (w : BitVec 26)
  /-- FMA (R280). -/
  | fma (t : TileId) (w : BitVec 26)
  /-- FMIN (R62). -/
  | fmin (t : TileId) (w : BitVec 26)
  /-- FMAX (R62). -/
  | fmax (t : TileId) (w : BitVec 26)
  /-- FCMP (R279). -/
  | fcmp (t : TileId) (w : BitVec 26)
  /-- CVTRF (R63). -/
  | cvtrf (t : TileId) (w : BitVec 26)
  /-- CVTFR (R63). -/
  | cvtfr (t : TileId) (w : BitVec 26)
  /-- VLD (R284). -/
  | vld (t : TileId) (w : BitVec 26)
  /-- VST (R284). -/
  | vst (t : TileId) (w : BitVec 26)
  /-- VSCAN_MSUM (R64). -/
  | vscanMsum (t : TileId) (w : BitVec 26)
  /-- VSCAN_MMIN (R64). -/
  | vscanMmin (t : TileId) (w : BitVec 26)
  /-- VSCAN_MMAX (R64). -/
  | vscanMmax (t : TileId) (w : BitVec 26)
  /-- VSCAN_FSUM (R64). -/
  | vscanFsum (t : TileId) (w : BitVec 26)
  /-- VSCAN_FMIN (R64). -/
  | vscanFmin (t : TileId) (w : BitVec 26)
  /-- VSCAN_FMAX (R64). -/
  | vscanFmax (t : TileId) (w : BitVec 26)
  /-- VTREE_MSUM (R66). -/
  | vtreeMsum (t : TileId) (w : BitVec 26)
  /-- VTREE_MPROD (R66). -/
  | vtreeMprod (t : TileId) (w : BitVec 26)
  /-- VTREE_MMIN (R66). -/
  | vtreeMmin (t : TileId) (w : BitVec 26)
  /-- VTREE_MMAX (R66). -/
  | vtreeMmax (t : TileId) (w : BitVec 26)
  /-- VTREE_FSUM (R66). -/
  | vtreeFsum (t : TileId) (w : BitVec 26)
  /-- VTREE_FMIN (R66). -/
  | vtreeFmin (t : TileId) (w : BitVec 26)
  /-- VTREE_FMAX (R66). -/
  | vtreeFmax (t : TileId) (w : BitVec 26)
  /-- WAIT (R138). -/
  | wait (t : TileId) (w : BitVec 26)
  /-- DMAISS (R151). -/
  | dmaiss (t : TileId) (w : BitVec 26)
  /-- PWLD (R296). -/
  | pwld (t : TileId) (w : BitVec 26)
  /-- FLAGCLR (R296). -/
  | flagclr (t : TileId) (w : BitVec 26)
  /-- ENDST (R238). -/
  | endst (t : TileId) (w : BitVec 26)
  /-- SLI (R289). -/
  | sli (t : TileId) (w : BitVec 26)
  /-- SLIS (R289). -/
  | slis (t : TileId) (w : BitVec 26)
  /-- SADDI (R289). -/
  | saddi (t : TileId) (w : BitVec 26)
  /-- SALU (R289). -/
  | salu (t : TileId) (w : BitVec 26)
  /-- CCLD (R290). -/
  | ccld (t : TileId) (w : BitVec 26)
  /-- HLD (R291). -/
  | hld (t : TileId) (w : BitVec 26)
  /-- HST (R291). -/
  | hst (t : TileId) (w : BitVec 26)
  /-- HOP_ADDSUB (R43). -/
  | hopAddsub (t : TileId) (w : BitVec 22)
  /-- HOP_MULCC (R43). -/
  | hopMulcc (t : TileId) (w : BitVec 22)
  /-- HOP_MULPT (R43). -/
  | hopMulpt (t : TileId) (w : BitVec 22)
  /-- HOP_RELIN (R43). -/
  | hopRelin (t : TileId) (w : BitVec 22)
  /-- HOP_ROTATE (R86). -/
  | hopRotate (t : TileId) (w : BitVec 22)
  /-- HOP_FNTT (R43). -/
  | hopFntt (t : TileId) (w : BitVec 22)
  /-- HOP_INTT (R43). -/
  | hopIntt (t : TileId) (w : BitVec 22)
  /-- HOP_TRANSPOSE (R43). -/
  | hopTranspose (t : TileId) (w : BitVec 22)
  /-- HOP_RESCALE (R39). -/
  | hopRescale (t : TileId) (w : BitVec 22)
  /-- HOP_MULRESCALE (R39). -/
  | hopMulrescale (t : TileId) (w : BitVec 22)
  /-- HOP_MODSWITCH (R39). -/
  | hopModswitch (t : TileId) (w : BitVec 22)
  /-- HOP_DROP (R39). -/
  | hopDrop (t : TileId) (w : BitVec 22)
  /-- HOP_MODRAISE (R39). -/
  | hopModraise (t : TileId) (w : BitVec 22)
  /-- HOP_KSEXT (R294). -/
  | hopKsext (t : TileId) (w : BitVec 22)
  /-- HOP_INVALIDATE (R293). -/
  | hopInvalidate (t : TileId) (w : BitVec 22)
  /-- KARM (R185). -/
  | karm (t : TileId) (w : BitVec 26)
  /-- KREL (R188). -/
  | krel (t : TileId) (w : BitVec 26)
  /-- EXPAND (R178). -/
  | expand (t : TileId) (w : BitVec 26)
  /-- LOOP (R268). -/
  | loop (t : TileId) (w : BitVec 30)
  /-- PENDING_WAIT_COMPLETE (R240). -/
  | pendingWaitComplete (t : TileId)
  /-- ARRIVAL_TIMEOUT (R242). -/
  | arrivalTimeout (t : TileId)
  /-- STAGE_END (R238). -/
  | stageEnd (g : GroupId)
  /-- NTT (R77). -/
  | ntt (t : TileId) (w : BitVec 26)
  /-- INTT (R77). -/
  | intt (t : TileId) (w : BitVec 26)
  /-- AUTO (R84). -/
  | auto (t : TileId) (w : BitVec 26)
  /-- PERM (R87). -/
  | perm (t : TileId) (w : BitVec 26)
  /-- TXP (R298). -/
  | txp (t : TileId) (w : BitVec 26)
  /-- TRANSFORM_INVARIANT_CLOSE (R82). -/
  | transformInvariantClose (t : TileId) (upset : Option Upset)
  /-- PERM_INDEX_CHECK (R88). -/
  | permIndexCheck (t : TileId)
  /-- MMA (R100). -/
  | mma (t : TileId) (w : BitVec 26)
  /-- DSM (R122). -/
  | dsm (t : TileId) (w : BitVec 26)
  /-- DSM_CLOSE (R121). -/
  | dsmClose (t : TileId)
  /-- MSPILL (R105). -/
  | mspill (t : TileId) (w : BitVec 26)
  /-- MRESUME (R106). -/
  | mresume (t : TileId) (w : BitVec 26)
  /-- MEPI (R107). -/
  | mepi (t : TileId) (w : BitVec 26)
  /-- MCHS (R116). -/
  | mchs (t : TileId) (w : BitVec 26)
  /-- MCHR (R118). -/
  | mchr (t : TileId) (w : BitVec 26)
  /-- CHAIN_PACKET_LAND (R116). -/
  | chainPacketLand (sender : TileId)
  /-- DMA_ELEMENT_REQUEST (R154). -/
  | dmaElementRequest (t : TileId) (q : BitVec 2)
  /-- NEAR_READ_RETURN (R197). -/
  | nearReadReturn (channel : BitVec 8) (page : BitVec 16) (sector : BitVec 7) (ce ue : BitVec 32)
  /-- FAR_READ_RETURN (R217). -/
  | farReadReturn (sector : Nat) (lines : BitVec 9)
  /-- FAR_READ_TIMEOUT (R218). -/
  | farReadTimeout (sector : Nat)
  /-- DMA_WRITE_LAND (R165). -/
  | dmaWriteLand (t : TileId) (q : BitVec 2)
  /-- ACCUMULATE (R211). -/
  | accumulate (op : AccOp) (sector : Nat) (operand : SectorBits) (poison : AccErrors) (prime : Residue)
  /-- REFRESH_SLOT (R208). -/
  | refreshSlot (channel : BitVec 8)
  /-- EXTENDED_REFRESH_ENTRY (R209). -/
  | extendedRefreshEntry (stack : BitVec 3) (temperature : Byte)
  /-- MEM_CE_RATE (R205). -/
  | memCeRate (channel : BitVec 8)
  /-- KSU_GRANT (R189). -/
  | ksuGrant (die : DieId)
  /-- KSU_PAGE_HEADER_ARRIVAL (R190), with what the read of sector 0 of the page meets. -/
  | ksuPageHeaderArrival (t : TileId) (ring : BitVec 2) (seen : PageFindings)
  /-- SLOT_FILL_COMPLETE (R186), with what the reads of the page's b sectors meet. -/
  | slotFillComplete (t : TileId) (ring : RingFill)
  /-- EXPAND_COMPLETE (R178). -/
  | expandComplete (t : TileId)
  /-- TICK_BOUNDARY (R231). -/
  | tickBoundary
  /-- TICK_IN_EDGE (R228). -/
  | tickInEdge
  /-- TICK_IN_LOST (R228). -/
  | tickInLost
  /-- STAGE_START (R231). -/
  | stageStart
  /-- STAGE_DEADLINE (R251). -/
  | stageDeadline
  /-- THROTTLE_EXPIRY (R243). -/
  | throttleExpiry (g : GroupId)
  /-- ARBITER_EVALUATION (R381). -/
  | arbiterEvaluation (seen : Sensors)
  /-- PWR_BRAKE_ASSERT (R382). -/
  | pwrBrakeAssert (seen : Sensors)
  /-- PWR_BRAKE_RELEASE (R382). -/
  | pwrBrakeRelease (seen : Sensors)
  /-- INPUT_MONITOR_SAMPLE (R383). -/
  | inputMonitorSample (watts : BitVec 16)
  /-- DROOP_DETECTED (R384). -/
  | droopDetected (die : DieId)
  /-- THERMAL_TRIP (R385). -/
  | thermalTrip
  /-- AVS_STEP (R390). -/
  | avsStep (die : DieId) (slack guardBand : BitVec 8)
  /-- CLOCK_LOST (R389). -/
  | clockLost (what : ClockLoss)
  /-- COUNT_REACHED (R310). -/
  | countReached (t : TileId)
  /-- TRANSIT_HOT_DETECT (R219). -/
  | transitHotDetect
  /-- TRANSIT_SWAP (R220). -/
  | transitSwap
  /-- STAGING_PAGE_COPY (R222). -/
  | stagingPageCopy
  /-- STREAM_ADMISSION (R351). -/
  | streamAdmission (stream : BitVec 6)
  /-- STREAM_CONSUME (R351). -/
  | streamConsume (stream : BitVec 6)
  /-- STREAM_LAP_CHECK (R352). -/
  | streamLapCheck (stream : BitVec 6)
  /-- BATCH_RECORD_POST (R352). -/
  | batchRecordPost (stream : BitVec 6)
  /-- REDUCE_MODULE_SUM (R368), with what the ECC finds in the near-tier sectors that it reads (R205, R206). -/
  | reduceModuleSum (plan : PlanReads)
  /-- CONTRIB_PACKET_RECEIVE (R369). -/
  | contribPacketReceive (header : BitVec 256) (data : SectorBits) (poison : BitVec 32)
  /-- REDUCE_DEADLINE (R370), with what the ECC finds in the near-tier sectors that it reads (R205, R206). -/
  | reduceDeadline (plan : PlanReads)
  /-- REDUCE_READY (R371). -/
  | reduceReady (plan : BitVec 4)
  /-- PEER_LINK_UP (R358). -/
  | peerLinkUp (port : BitVec 2) (partner : BitVec 3) (slow : Bool)
  /-- PEER_FLIT_RECEIVE (R363), with the memory poison of each packet that ends in the flit (log 35). -/
  | peerFlitReceive (port : BitVec 2) (crcGood : Bool) (header : BitVec 48) (payload : BitVec 1888) (poison : List (BitVec 32))
  /-- PEER_REPLAY_TIMEOUT (R363). -/
  | peerReplayTimeout (port : BitVec 2)
  /-- PEER_RETRAIN_TIMEOUT (R363). -/
  | peerRetrainTimeout (port : BitVec 2)
  /-- PEER_CONFIG_TIMEOUT (R359). -/
  | peerConfigTimeout
  /-- DIE_LINK_REPLAY (R244). -/
  | dieLinkReplay (link : BitVec 3) (cycles : BitVec 16)
  /-- FAR_LINK_DOWN (R218). -/
  | farLinkDown (link : BitVec 2)
  /-- FAR_WRITE_LOST (R218). -/
  | farWriteLost (sector : Nat)
  /-- COMMAND_FETCH (R326). -/
  | commandFetch (sq : BitVec 6) (packet : Option (BitVec 512))
  /-- CQ_INTERRUPT_TIMER (R329). -/
  | cqInterruptTimer (cq : BitVec 6)
  /-- IDENTIFY (R335). -/
  | identify (c : Packet)
  /-- GET_FEATURES (R335). -/
  | getFeatures (c : Packet)
  /-- LOAD_IMAGE (R264). -/
  | loadImage (c : Packet) (block : HostRead) (image : HostRead)
  /-- UNLOAD_IMAGE (R337). -/
  | unloadImage (c : Packet)
  /-- BIND_KEYSET (R339). -/
  | bindKeyset (c : Packet) (block : HostRead)
  /-- BIND_COPY_COMPLETE (R339): pages as read from the host, by their numbers over the runs. -/
  | bindCopyComplete (pages : List (Nat × HostRead))
  /-- UNBIND_KEYSET (R340). -/
  | unbindKeyset (c : Packet)
  /-- STAGE_KEYS (R340). -/
  | stageKeys (c : Packet)
  /-- RETIRE_PAGE (R207). -/
  | retirePage (c : Packet)
  /-- START (R345). -/
  | start (c : Packet)
  /-- STOP (R346). -/
  | stop (c : Packet)
  /-- ABORT (R348). -/
  | abort (c : Packet)
  /-- RESUME (R347). -/
  | resume (c : Packet)
  /-- SET_TICK (R227). -/
  | setTick (c : Packet)
  /-- OPEN_STREAM (R350). -/
  | openStream (c : Packet)
  /-- CLOSE_STREAM (R354). -/
  | closeStream (c : Packet)
  /-- RUN_TO_COUNT (R310). -/
  | runToCount (c : Packet)
  /-- DUMP_STATE (R313). -/
  | dumpState (c : Packet) (block : HostRead)
  /-- SET_DEBUG (R307). -/
  | setDebug (c : Packet)
  /-- READ_LOG (R343). -/
  | readLog (c : Packet)
  /-- CLEAR_LOG (R343). -/
  | clearLog (c : Packet)
  /-- CHANNEL_TEST (R213). -/
  | channelTest (c : Packet) (block : HostRead)
  /-- CHANNEL_TEST_COMPLETE (R341). -/
  | channelTestComplete (results : List TestResult) (micros : Word)
  /-- SET_HASH (R203). -/
  | setHash (c : Packet)
  /-- PKE_OPEN (R405). -/
  | pkeOpen (c : Packet)
  /-- PKE_CLOSE (R406). -/
  | pkeClose (c : Packet)
  /-- PKE_LOAD (R407). -/
  | pkeLoad (c : Packet) (block : HostRead)
  /-- PKE_STORE (R407). -/
  | pkeStore (c : Packet) (block : HostRead)
  /-- PKE_ZERO (R407). -/
  | pkeZero (c : Packet) (block : HostRead)
  /-- PKE_RANDOM (R407). -/
  | pkeRandom (c : Packet) (block : HostRead)
  /-- PKE_MODADD (R407). -/
  | pkeModadd (c : Packet) (run : PkeRun)
  /-- PKE_MODSUB (R407). -/
  | pkeModsub (c : Packet) (run : PkeRun)
  /-- PKE_MODMUL (R407). -/
  | pkeModmul (c : Packet) (run : PkeRun)
  /-- PKE_MODEXP (R407). -/
  | pkeModexp (c : Packet) (run : PkeRun)
  /-- PKE_MODINV (R407). -/
  | pkeModinv (c : Packet) (run : PkeRun)
  /-- PKE_MODRED (R407). -/
  | pkeModred (c : Packet) (run : PkeRun)
  /-- PKE_ECKEYGEN (R407). -/
  | pkeEckeygen (c : Packet) (run : PkeRun)
  /-- PKE_ECMUL (R407). -/
  | pkeEcmul (c : Packet) (run : PkeRun)
  /-- PKE_ECDH (R407). -/
  | pkeEcdh (c : Packet) (run : PkeRun)
  /-- PKE_ECDSA_SIGN (R407). -/
  | pkeEcdsaSign (c : Packet) (run : PkeRun)
  /-- PKE_ECDSA_VERIFY (R407). -/
  | pkeEcdsaVerify (c : Packet) (block : HostRead)
  /-- PKE_IDLE_CLOSE (R411). -/
  | pkeIdleClose
  /-- SANITIZE (R415). -/
  | sanitize (c : Packet)
  /-- SANITIZE_COMPLETE (R415). -/
  | sanitizeComplete (milliseconds : Word) (writeFailed : Bool)
  /-- PEER_CONFIG (R359). -/
  | peerConfig (c : Packet) (block : HostRead)
  /-- REDUCE_PLAN (R365). -/
  | reducePlan (c : Packet) (block : HostRead)
  /-- SQ_TAIL_DOORBELL (R324). -/
  | sqTailDoorbell (sq : BitVec 6) (value : Word)
  /-- CQ_HEAD_DOORBELL (R324). -/
  | cqHeadDoorbell (cq : BitVec 6) (value : Word)
  /-- STREAM_DOORBELL (R351). -/
  | streamDoorbell (stream : BitVec 6) (value : Word)
  /-- SQ_ENABLE (R323). -/
  | sqEnable (sq : BitVec 6) (value : Word)
  /-- SQ_DISABLE (R323). -/
  | sqDisable (sq : BitVec 6) (value : Word)
  /-- CQ_ENABLE (R323), with the number of records that host memory takes before a write to it fails, none where none fails. -/
  | cqEnable (cq : BitVec 6) (value : CqWrite)
  /-- CQ_DISABLE (R323). -/
  | cqDisable (cq : BitVec 6) (value : Word)
  /-- BAR4_WRITE (R320), with what the reads of the sectors it covers in part meet, in order (R205, R206). -/
  | bar4Write (offset : Nat) (data : List Byte) (poisoned : WindowWrite)
  /-- BAR4_READ (R320), with what the reads of its sectors meet, in order (R205, R206). -/
  | bar4Read (offset : Nat) (length : WindowRead)
  /-- BAR4_BASE_WRITE (R320). -/
  | bar4BaseWrite (value : Word)
  /-- LOW_WORD_READ (R6): a read of a register, the low word of a wider value or not (R319). -/
  | lowWordRead (a : Access)
  /-- KRT_DATA0_READ (R463). -/
  | krtData0Read
  /-- LOG_DATA0_READ (R463). -/
  | logData0Read
  /-- LOG_ACK_WRITE (R430). -/
  | logAckWrite (value : Word)
  /-- PWR_BUDGET_WRITE (R386). -/
  | pwrBudgetWrite (value : Word)
  /-- CLK_CTRL_WRITE (R389). -/
  | clkCtrlWrite (value : Word)
  /-- REGISTER_WRITE (R7, R319). -/
  | registerWrite (a : Access) (value : Word)
  /-- LOG_MSI_TIMER (R430). -/
  | logMsiTimer
  /-- POWER_ON (R422). -/
  | powerOn (moduleId : BitVec 3)
  /-- INPUT_POWER_LOSS (R418). -/
  | inputPowerLoss
  /-- WARM_RESET (R418). -/
  | warmReset
  /-- BOOT_START (R423). -/
  | bootStart (seen : BootSeen)
  /-- FLR (R420). -/
  | flr
  /-- HOST_LINK_DOWN (R421). -/
  | hostLinkDown (peerHalf : Bool)
  /-- INTERNAL_FAULT (R433). -/
  | internalFault (cause : FaultCause) (unit : Byte)
  /-- ENTROPY_HEALTH_FAIL (R413). -/
  | entropyHealthFail (adaptive : Bool)
  /-- DRBG_RESEED (R412). -/
  | drbgReseed
  /-- PLDM_FW_UPDATE (R396). -/
  | pldmFwUpdate (slotB : Bool) (version : Word) (component : FwComponent)
  /-- OWNER_RECORD_UPDATE (R402). -/
  | ownerRecordUpdate (record : OwnerRecord) (signature : Option OwnerSignature)
  /-- GET_VERSION (R400). -/
  | getVersion
  /-- GET_CAPABILITIES (R400). -/
  | getCapabilities
  /-- NEGOTIATE_ALGORITHMS (R400). -/
  | negotiateAlgorithms (base hash measurement : Bool)
  /-- GET_DIGESTS (R400). -/
  | getDigests
  /-- GET_CERTIFICATE (R399). -/
  | getCertificate (slot : Byte) (offset length : BitVec 16)
  /-- CHALLENGE (R400). -/
  | challenge (slot : Byte) (nonce : List Byte)
  /-- GET_MEASUREMENTS (R401). -/
  | getMeasurements (index : Byte) (nonce : Option (List Byte))
  /-- CHUNK_SEND (R400). -/
  | chunkSend (last : Bool) (chunk : List Byte)
  /-- CHUNK_GET (R400). -/
  | chunkGet (size : BitVec 16)
  /-- SENTINEL_SAMPLE (R113): whether the array's value is at fault, and what the reads of the A or shadow row and of the B row meet. -/
  | sentinelSample (t : TileId) (faulty : SampleSeen)
  /-- DMA_READ_RETURN (R143). -/
  | dmaReadReturn (t : TileId) (q : BitVec 2) (corrected : Bool) (uncorrectable : BitVec 64)
  /-- EXTENDED_RATE_TIMER (R209). -/
  | extendedRateTimer (stack : BitVec 3)
  /-- BOUNDARY_SCAN_INSTRUCTION (R445). -/
  | boundaryScanInstruction (ins : TapInstruction)
deriving DecidableEq, Repr

end Sys2Proof
end

