-- ==== Sys2Proof/Config.lean ====
section
/-! DEFINITION. What the spec leaves open: constants without a body, so that nothing proved rests on a value. Each is named in the assumption log. -/

namespace Sys2Proof.Config

/-- A free value: draw n of an owner, a tile by its number or the rest of the device by 64 (log 7). -/
opaque freeNat : (owner n : Nat) → Nat
/-- What the reads of one page meet when Transit moves it, by draw (R205, R206, R218 with R220, R222; log 66). -/
opaque pageFindings : Nat → PageFindings
/-- Contents of a near-tier sector that the spec calls undefined (R203, R213), by epoch and sector (log 3). -/
opaque nearUndefined : Nat → Nat → SectorBits
/-- Contents of a far-tier sector before it is written (R419), by epoch and sector (log 4). -/
opaque farUndefined : Nat → Nat → SectorBits
/-- One pass of a transform under TABLE entries that are not the bit-reversed powers of one root: the unit's internal order decides it
(R78, R83; log 9). Arguments: inverse, pass 1, q, the part's entries, the input of the pass, output index. -/
opaque tablePass : (inverse first : Bool) → (q : Nat) → (entries input : List Nat) → (index : Nat) → Nat
/-- Whether minimum or maximum of two zeros of unlike sign gives its first operand (R62 is silent; log 8). -/
opaque zeroTie : (isMin : Bool) → (x y : Nat) → Bool
/-- What the equalisation loops measure (R393; log 81): horizontal margin, vertical margin, deskew step (`what` 0, 1, 3) of lane or
link `lane` at a time. -/
opaque eqMeasure : (what lane time : Nat) → Nat
/-- The running time of its loop after training at which the k-th tap change of a lane comes, less one; `trained` tells one training from another (R393;
log 81). -/
opaque eqTapTime : (lane trained k : Nat) → Nat
/-- The next `bits` bits of the random bit generator at draw n (R412; log 13). -/
opaque drbg : (bits n : Nat) → Nat
/-- The next state of the sentinel's LFSR, whose polynomial the spec does not give (R112; log 14). -/
opaque lfsrNext : BitVec 32 → BitVec 32
/-- What the sentinel draws from an LFSR state: whether it samples and which output it picks depend on this number alone (R112; log 14). -/
opaque sentinelBits : BitVec 32 → Nat
/-- Whether the shadow panel of an MMA of this FMT code is MXFP8, else MXINT8 (R113 names both; log 14). -/
opaque shadowIsFp8 : (fmt : Nat) → Bool
/-- The version of a firmware image, and the module serial number (R335, R453; log 12). -/
opaque fwVersion : (image : List Byte) → Word
opaque serialNumber : List Byte
/-- SHA-384 measurement of the boot ROM (R401; log 12). -/
opaque romMeasurement : List Byte
/-- The certificates that module flash holds: root CA, intermediate CA, and the one issued at manufacture to a DeviceID public key (R399; log 12). -/
opaque rootCert : List Byte
opaque intermediateCert : List Byte
opaque deviceCert : (key : Nat × Nat) → List Byte
/-- The unique device secret enrolled at manufacture, the helper data of module flash, and the fuzzy extractor: the secret from a power-up response of
the PUF and helper data (R397; log 83). -/
opaque uds : List Byte
opaque pufHelper : List Byte
opaque fuzzyExtract : (response helper : List Byte) → List Byte
/-- What a firmware slot holds as the module is delivered: image, SECURITY_VERSION, public key, r and s (R394 gives none; log 12). -/
opaque factoryFirmware : (slotB : Bool) → List Byte × Word × (Nat × Nat) × Nat × Nat
/-- Labels of the KDF: 0 DeviceID, 1 CDI, 2 alias (R398 gives none; log 83). -/
opaque kdfLabel : Nat → List Byte
/-- The signed part of the alias certificate: issuer key, subject key, and measurement, slot and version of its TcbInfo (R398; log 83). -/
opaque aliasTbs : (issuer subject : Nat × Nat) → (measurement : List Byte) → (slot version : Nat) → List Byte
/-- The per-message number of the ROM's signature with a key (FIPS 186-5; log 83). -/
opaque romNonce : (key : Nat) → (message : List Byte) → Nat
/-- An X.509 certificate of its signed part and signature (log 83). -/
opaque certificate : (tbs : List Byte) → (r s : Nat) → List Byte
/-- The bytes of an owner record as module flash holds them, none when the module is unclaimed (R402; log 12): FORMAT, POLICY and the keys. -/
opaque ownerBytes : Option (BitVec 8 × BitVec 8 × List (Option (Nat × Nat))) → List Byte

/-- The SHA-384 digests of the firmware signing keys that the boot ROM holds, up to four (R394; log 12). -/
opaque fwKeyDigests : List (List Byte)
/-- The bytes of a public key that the boot ROM hashes (R394; log 12). -/
opaque fwKeyBytes : Nat × Nat → List Byte
/-- The bytes of a firmware slot before its signature: the image, SECURITY_VERSION and the public key (R394; log 12). -/
opaque fwSlotBytes : (image : List Byte) → (version : Nat) → (key : Nat × Nat) → List Byte

end Sys2Proof.Config
end

