-- ==== Sys2Proof/Machine/TileState.lean ====
section
/-! DEFINITION. What one tile holds (03 R50, R55): registers, header registers, scratchpad, engines, DMA queues, key rings, status. -/

namespace Sys2Proof.Machine

/-- Halt reasons (R271). -/
inductive HaltReason
  | none | illegalOpcode | reservedField | operandRange | levelExhausted | keyMismatch | scaleMismatch | modulusMismatch
  | transformCheck | scratchBounds | arrivalTimeout | tickOverrun | hazard | poisonRead | uncorrectable | aborted
  | keyStreamUnderrun | accumOverflow | headerInvalid | countReached
deriving DecidableEq, Repr

/-- The four slots of a bundle (R266). -/
inductive Slot
  | s | v | t | m
deriving DecidableEq, Repr

/-- The ciphertext header (R33), without its reserved bits, which a header register never holds set (R34). -/
structure Header where
  magic : Word := 0
  scheme : Byte := 0
  logN : Byte := 0
  level : Byte := 0
  maxLevel : Byte := 0
  keyset : Word := 0
  scale : BitVec 16 := 0
  slots : Word := 0
  limbBase : Byte := 0
  domain : Bool := false
  layout : Bool := false
  valid : Bool := false
  poison : Bool := false
  seeded : Bool := false
  generation : BitVec 16 := 0
  polys : Byte := 0
  seed : BitVec 256 := 0
deriving DecidableEq, Repr

/-- The key-switch tag (R181). -/
structure Tag where
  kind : BitVec 4 := 0
  galois : BitVec 18 := 0
  digit : BitVec 4 := 0
deriving DecidableEq, Repr

/-- A header register: header, home address (R37) and tag (R181). -/
structure HReg where
  hdr : Header := {}
  home : BitVec 15 := 0
  tag : Tag := {}
deriving DecidableEq, Repr

/-- A modulus table entry: its two words (R22). -/
structure ModEntry where
  word0 : BitVec 64
  word1 : BitVec 64
deriving DecidableEq, Repr

/-- A bound modulus table (R20, R21), which is also what a modulus context holds (R26). -/
structure ModTable where
  keyset : Word
  scheme : Byte
  logN : Byte
  plain : BitVec 36
  limbs : List ModEntry
  specials : List ModEntry
deriving DecidableEq, Repr

/-- A scratchpad row: its data and, per codeword, the poison pattern (R140). -/
structure Row where
  data : SectorBits := 0
  poison : BitVec 64 := 0
deriving DecidableEq, Repr

/-- One level of counted loops (R268). -/
structure LoopLevel where
  active : Bool := false
  start : Nat := 0
  stop : Nat := 0
deriving DecidableEq, Repr

/-- A pad window (R168). -/
structure PadWindow where
  base : BitVec 15 := 0
  lineRows : BitVec 11 := 0
  lineStride : BitVec 15 := 0
  lines : BitVec 16 := 0
  lo : BitVec 16 := 0
  hi : BitVec 16 := 0
  scalar : Bool := false
  value : Residue := 0
deriving DecidableEq, Repr

/-- Where a result goes at its writeback (R52). -/
inductive Dest
  /-- The lanes `m` of a vector register. -/
  | v (n : BitVec 5) (x : Vec) (m : BitVec 1024)
  /-- The lanes `m` of a mask register. -/
  | k (n : BitVec 3) (x m : BitVec 1024)
  /-- A scalar register. -/
  | s (n : BitVec 4) (x : BitVec 64)
  /-- An address register. -/
  | a (n : BitVec 4) (x : Word)
  /-- A result header of HOP or EXPAND, which takes the poison latch (R144), with the tag it leaves, or none where the tag stays. -/
  | hop (n : BitVec 3) (h : Header) (tag : Option Tag)
  /-- A header loaded from a row (R291). -/
  | hld (n : BitVec 3) (h : Header) (home : BitVec 15)
  /-- The home address of a stored header (R291). -/
  | home (n : BitVec 3) (row : BitVec 15)
  /-- A scratchpad row. -/
  | row (r : Nat) (x : Row)
  /-- Flags that MVE_FLAGS gains (R71). -/
  | mve (bits : Word)
  /-- A flag register cleared by FLAGCLR (R296): 0 MVE_FLAGS, 1 NMA_FLAGS, 2 SCR_FLAGS. -/
  | clear (reg : BitVec 2) (bits : Word)
  /-- A pad window (R168). -/
  | pad (n : BitVec 2) (w : PadWindow)
  /-- The head slot of a ring released (R188). -/
  | release (ring : BitVec 2)
deriving DecidableEq, Repr

/-- An instruction issued and not written back: it lands at the end of pipeline cycle `due` (R52, R53). -/
structure Flight where
  due : Nat
  issued : Nat
  seq : Nat
  dests : List Dest
deriving DecidableEq, Repr

/-- Which unit requested a row. -/
inductive Reader
  | vector | header (bad : Bool) | transform | matrix
deriving DecidableEq, Repr

/-- A row requested through the engine port, to be delivered in pipeline cycle `due` (R132); `corrected` once the row ECC has
corrected it; `judged` once the ECC's finding on this read has been told; `writes` counts the writes to the row since the request (R141). -/
structure RowRead where
  due : Nat
  seq : Nat
  bundle : BitVec 14
  slot : Slot
  reader : Reader
  row : Nat
  poisoned : Bool
  corrected : Bool := false
  judged : Bool := false
  writes : Nat := 0
deriving DecidableEq, Repr

/-- A condition of an instruction in flight that halts the tile in pipeline cycle `due` (R269, R282). -/
structure DueHalt where
  due : Nat
  seq : Nat
  reason : HaltReason
  bundle : BitVec 14
  slot : Slot
deriving DecidableEq, Repr

/-- An S-slot instruction that could not complete in its issue cycle (R240). -/
inductive PendKind
  | wait (counter : BitVec 6) (k : BitVec 16)
  | dma (queue : BitVec 2) (index : BitVec 10) (bits : BitVec 512)
  | marker
deriving DecidableEq, Repr

structure Pending where
  kind : PendKind
  wall : Nat
  bundle : BitVec 14
deriving DecidableEq, Repr

/-- Row requests of a unit still to be made: pipeline cycle and rows (R133), and the rows got so far. -/
structure Fetches where
  todo : List (Nat × List Nat) := []
  got : List (Nat × Row) := []
deriving DecidableEq, Repr

/-- Operations of the Transform Unit (R297). -/
inductive TuKind
  | transform (inverse table : Bool)
  | auto (g : Nat) (nttDomain : Bool)
  | perm
  | txp
deriving DecidableEq, Repr

/-- The operation that occupies the TU (R74). `aux` is the first row of the twiddle table or of the index tensor; `written` has a
bit for each destination row in the banks; `closed` once the invariant close has ended (R82, R93). -/
structure TuOp where
  kind : TuKind
  issued : Nat
  latency : Nat
  seq : Nat
  bundle : BitVec 14
  src : Nat
  dst : Nat
  aux : Nat := 0
  logN : Nat
  mctx : BitVec 2 := 0
  entry : Nat := 0
  q : Nat := 1
  psi : Nat := 1
  fetch : Fetches := {}
  written : Nat := 0
  closed : Bool := false
  failed : Bool := false
  /-- The faults of the data path told before the close (R82): what leaves the unit from then on has them. -/
  upset : Option Upset := none
deriving DecidableEq, Repr

/-- The TU: its operation, limb store, transpose tile, TU_STATUS and TU_COUNT (R73, R93). -/
structure Tu where
  op : Option TuOp := none
  /-- Limb-store sectors 0 to 1023 (R73). -/
  store : Sparse SectorBits := []
  /-- Row r of plane p of the transpose tile, at 128 · p + r (R73). -/
  planes : Sparse SectorBits := []
  check1 : Bool := false
  check2 : Bool := false
  failTable : Bool := false
  failInverse : Bool := false
  failEntry : BitVec 7 := 0
  failMctx : BitVec 2 := 0
  count : Word := 0
deriving DecidableEq, Repr

/-- Element formats of the array (R96, R299). -/
inductive Fmt
  | mxfp4 | mxint4 | int2 | ternary | mxint8 | mxfp8
deriving DecidableEq, Repr

/-- A chain packet header (R117). -/
structure ChainHeader where
  chainId : Word := 0
  int : Bool := false
  small : Bool := false
  rescaled : Bool := false
  overflow : Bool := false
  esc : Byte := 0
  i0 : Byte := 0
  nbr : Byte := 0
  xr : BitVec 16 := 0
  hops : Byte := 0
deriving DecidableEq, Repr

/-- Operations of the Narrow Matrix Array (R300). -/
inductive NmaKind
  | mma (fmt : Fmt) (int zero : Bool) (a b nb : Nat) (xr : BitVec 16) (shadow : Nat) (pad : Option PadWindow)
  | spill (init : Bool) (wide : Nat)
  | resume (int small : Bool) (wide : Nat) (xr : BitVec 16)
  | epilogue (out : BitVec 2) (fmt : Fmt) (merge : Bool) (dst wide : Nat) (scale bias : Option Nat) (act : BitVec 2)
      (k : BitVec 4) (lo hi : Word) (delta q : Nat)
  | send (first : Bool) (row : Nat) (tile : TileId) (counter : BitVec 6) (chain : Word) (i0 nbr : Nat)
  | receive (row : Nat) (chain : Word) (i0 nbr : Nat)
deriving DecidableEq, Repr

/-- The operation that occupies the NMA (R95). -/
structure NmaOp where
  kind : NmaKind
  issued : Nat
  occupancy : Nat
  latency : Nat
  seq : Nat
  bundle : BitVec 14
  fetch : Fetches := {}
  /-- Block steps of an MMA whose result the accumulators hold, and a bit for each destination row in the banks. -/
  steps : Nat := 0
  written : Nat := 0
  failed : Bool := false
deriving DecidableEq, Repr

/-- A DSM operation in its steps or in its close stage (R121 to R123): `qs` is the prime of each lane group, `written` has a bit
for each destination row in the banks. -/
structure DsmOp where
  dot : Bool
  k : Nat
  rowsA : List Nat
  rowsB : List Nat
  dst : Nat
  qs : List Nat
  issued : Nat
  seq : Nat
  bundle : BitVec 14
  fetch : Fetches := {}
  written : Nat := 0
  failed : Bool := false
deriving DecidableEq, Repr

/-- A chain packet on its way (R116): the rows it lands on the receiving tile, in order, the wall cycle it was sent in, and how many of its rows have
landed (R131). -/
structure ChainPacket where
  tile : TileId
  counter : BitVec 6
  row : Nat
  rows : List SectorBits
  ready : Nat
  landed : Nat := 0
deriving DecidableEq, Repr

/-- The NMA: its operation, accumulators (sparse, 0 unlisted), state, flags and packets (R95 to R127). `tails` are the MMA
operations whose occupancy has ended and whose last results are on their way (R125). -/
structure Nma where
  op : Option NmaOp := none
  tails : List NmaOp := []
  dsm : Option DsmOp := none
  closes : List DsmOp := []
  acc : Sparse Word := []
  accInt : Bool := false
  accSmall : Bool := false
  xr : Vector (BitVec 16) 9 := Vector.replicate 9 0
  lastHeader : Option ChainHeader := none
  flags : Word := 0
  sat : Vector (BitVec 16) 9 := Vector.replicate 9 0
  outbox : List ChainPacket := []
deriving DecidableEq, Repr

/-- Contents on the way: data and the poison mark of each scratchpad codeword. -/
structure Payload where
  data : SectorBits
  poison : BitVec 64
deriving DecidableEq, Repr

/-- A block step that the sentinel has drawn (R112): the operation's operands and issue number, the sampled output, the wall cycle of the draw, the array's
V as sign, magnitude and exponent, or none where it is NaN, once the array has asked for the step's last row, and what the sentinel's own reads have
given, each with the wall cycle it is there in (R113, R142). -/
structure SentSample where
  fmt : Fmt
  a : Nat
  b : Nat
  shadow : Nat
  pad : Option PadWindow
  step : Nat
  i : Nat
  j : Nat
  asked : Nat
  seq : Nat := 0
  v : Option (Option (Bool × Nat × Int)) := none
  gotA : Option (Nat × Payload) := none
  gotB : Option (Nat × Payload) := none
deriving DecidableEq, Repr

/-- The sentinel (R112 to R114, R127). `ctrlNext` and `threshNext` hold host writes until the next boundary. -/
structure Sentinel where
  ctrl : Word := 0x0066C200
  thresh : Word := 0x0006020C
  ctrlNext : Option Word := none
  threshNext : Option Word := none
  t : Word := 0x3C800000
  seed : Word := 1
  lfsr : Word := 1
  exceed : BitVec 16 := 0
  drop : Byte := 0
  fault : Byte := 0
  exceedThisTick : Nat := 0
  quiet : Nat := 0
  mean : Word := 0
  sample : Option SentSample := none
  /-- Free values that its samples have drawn (the model's own, log 7). -/
  free : Nat := 0
deriving DecidableEq, Repr

/-- Where a DMA element lies once its reference is resolved (R153, R159). -/
inductive Place
  | scratch (tile : TileId) (row : Nat)
  | near (sector : Nat)
  | far (sector : Nat)
deriving DecidableEq, Repr

/-- One element requested by a queue (R154): bytes `off` to `off + len − 1` of the row or sector, requested in wall cycle `asked`. -/
structure Xfer where
  src : Place
  dst : Place
  ordinal : Nat
  off : Nat
  len : Nat
  asked : Nat := 0
  data : Option Payload := none
  /-- The wall cycle in which the data reaches the destination's port (R136). -/
  ready : Nat := 0
  /-- A write of less than a row: the wall cycle of its read, and the merged row (R135). -/
  merged : Option (Nat × Row) := none
deriving DecidableEq, Repr

/-- A descriptor in a queue (R151): its copy with the offsets applied, how far its walk has come, and what is in flight. -/
structure DmaJob where
  index : BitVec 10
  bits : BitVec 512
  cursor : Nat := 0
  xfers : List Xfer := []
  /-- The wall cycle of its last request: a queue sends one a cycle (R151). -/
  lastAsked : Option Nat := none
  /-- The wall cycles in which rows of the index tensor or coordinate list have been requested, in order; and the rows of it read so far, each with the
  wall cycle in which the queue has it (R142, R151, R156, R157). -/
  listAsked : List Nat := []
  list : List (Nat × SectorBits) := []
  failed : Bool := false
  /-- Stopped by SKIP: only its accepted requests still land (R167, R250). -/
  stopped : Bool := false
deriving DecidableEq, Repr

/-- An owner table installed in the tile (R158): block size log2 and entries. -/
structure OwnerTable where
  id : Byte
  log2Blk : Byte
  entries : List Word
deriving DecidableEq, Repr

/-- The tile DMA (R150 to R170). -/
structure Dma where
  queues : Vector (List DmaJob) 4 := Vector.replicate 4 []
  descriptors : Sparse (BitVec 512) := []
  owners : List OwnerTable := []
  fullHeld : Bool := false
  errDesc : BitVec 10 := 0
  errQueue : BitVec 2 := 0
  errKind : BitVec 3 := 0
  errElement : BitVec 16 := 0
  count : Word := 0
deriving DecidableEq, Repr

/-- States of a ring slot (R187). -/
inductive SlotState
  | empty | filling | full
deriving DecidableEq, Repr

/-- A key ring (R182 to R195): what KARM latched, the slots, and the fills. Pages are counted from 0 in stream order. -/
structure Ring where
  armed : Bool := false
  base : Nat := 0
  slots : List SlotState := []
  s : Nat := 0
  counter : BitVec 6 := 0
  first : Nat := 0
  period : Nat := 0
  armCycle : Nat := 0
  armBundle : BitVec 14 := 0
  keyset : Word := 0
  logN : Byte := 0
  limbBase : Byte := 0
  level : Byte := 0
  tag : Tag := {}
  /-- The key that the stream delivers: its key set, kind, Galois element and digit (R183). -/
  srcKeyset : Word := 0
  src : Tag := {}
  entries : List Nat := []
  chunks : Nat := 0
  special : Nat := 0
  fill : Nat := 0
  done : Nat := 0
  release : Nat := 0
  leftover : Bool := false
deriving DecidableEq, Repr

/-- An expansion request (R178): the source header, the first data row, the counter, the deadline in schedule cycles, the wall cycle in which the KSU
has started it; then the rows that the tail generates, whether a chunk lacked values (R414), and how many rows have landed (R131). -/
structure Expansion where
  hdr : Header
  row : Nat
  counter : BitVec 6
  deadline : Nat
  started : Option Nat := none
  entries : List (Nat × Nat) := []
  rows : List (Nat × Row) := []
  short : Bool := false
  landed : Nat := 0
deriving DecidableEq, Repr

/-- W1C bits of a tile that hardware has set in a core cycle: they end set whatever clears them in it (R7, R71, R127, R148). -/
structure Raised where
  mve : Word := 0
  tu : Word := 0
  nma : Word := 0
  scr : Word := 0
  full : Bool := false
  rings : BitVec 4 := 0
deriving DecidableEq, Repr

/-- A tile (R50). -/
structure Tile where
  v : Vector Vec 32 := Vector.replicate 32 (List.replicate 1024 0)
  k : Vector (BitVec 1024) 8 := Vector.replicate 8 0
  s : Vector (BitVec 64) 16 := Vector.replicate 16 0
  a : Vector Word 16 := Vector.replicate 16 0
  l : Vector (BitVec 16) 4 := Vector.replicate 4 0
  loops : Vector LoopLevel 4 := Vector.replicate 4 {}
  h : Vector HReg 8 := Vector.replicate 8 {}
  pc : Nat := 0
  lastIssued : BitVec 14 := 0
  imem : Sparse (BitVec 128) := []
  mctx : Vector (Option ModTable) 4 := Vector.replicate 4 none
  scratch : Sparse Row := []
  segments : BitVec 8 := 0
  arrival : Vector (BitVec 16) 64 := Vector.replicate 64 0
  /-- Counters that rise in the cycle after a landing: the wall cycle of the landing, and the counter (R137). -/
  arriving : List (Nat × BitVec 6) := []
  mveFlags : Word := 0
  tu : Tu := {}
  nma : Nma := {}
  sent : Sentinel := {}
  dma : Dma := {}
  pads : Vector PadWindow 4 := Vector.replicate 4 {}
  rings : Vector Ring 4 := Vector.replicate 4 {}
  streams : Sparse (BitVec 256) := []
  expands : List Expansion := []
  scrCe : Bool := false
  ueForwarded : Bool := false
  poisonLatch : Bool := false
  arrivalSat : Bool := false
  arrivalLeftover : Bool := false
  ceEngine : BitVec 16 := 0
  ceOther : BitVec 16 := 0
  errRow : BitVec 15 := 0
  errPort : BitVec 2 := 0
  errKind : BitVec 2 := 0
  /-- Rows in which the row ECC corrects an error at every read until they are written (R141). -/
  ceRows : List Nat := []
  /-- What hardware has set in this core cycle, and in the earlier one of its Nucleus cycle. -/
  raised : Raised := {}
  raisedBefore : Raised := {}
  halted : Bool := false
  haltReason : HaltReason := .none
  haltMore : Bool := false
  haltSeq : BitVec 8 := 0
  haltAddr : BitVec 14 := 0
  haltSlot : BitVec 2 := 0
  haltAsync : Bool := false
  haltSched : Word := 0
  /-- The place in R269's order of the condition recorded, the issue number of its operation, and whether it was recorded in this core cycle. -/
  haltRank : Nat := 0
  haltIssue : Nat := 0
  haltFresh : Bool := false
  pend : List Pending := []
  holds : List (Nat × Nat × Bool) := []
  flights : List Flight := []
  reads : List RowRead := []
  dueHalts : List DueHalt := []
  named : BitVec 8 := 0
  done : Bool := false
  seq : Nat := 0
  busCycle : Nat := 0
  busReads : List Nat := []
  busWrites : List Nat := []
  /-- Banks whose read and write slots are taken in wall cycle `slotWall` (R131). -/
  slotWall : Nat := 0
  slotReads : List Nat := []
  slotWrites : List Nat := []
  /-- Rows written in wall cycle `slotWall` as they stood before, with whether an error of theirs stood corrected: a bank serves its read before its
  write (R131). -/
  before : List (Nat × Row × Bool) := []
  /-- Waits completed and not yet matched with the arrivals they consume: counter and count (R163). -/
  taken : List (BitVec 6 × Nat) := []
  free : Nat := 0
deriving DecidableEq, Repr

end Sys2Proof.Machine
end

