-- ==== Sys2Proof/Machine/Bits.lean ====
section
/-! DEFINITION. Bit fields, byte strings (little-endian throughout, R1), packed residues (R29) and vectors (R57). -/

namespace Sys2Proof.Machine

/-- Bits lo to lo + len − 1 of x. -/
def field (x lo len : Nat) : Nat := (x >>> lo) % 2 ^ len

/-- The value of a byte string. -/
def leNat : List Byte → Nat
  | [] => 0
  | b :: bs => b.toNat + 256 * leNat bs

/-- The n low bytes of x. -/
def leBytes : Nat → Nat → List Byte
  | 0, _ => []
  | n + 1, x => BitVec.ofNat 8 x :: leBytes n (x / 256)

/-- n bytes of a string from byte `off`, read as one value. -/
def leAt (bs : List Byte) (off n : Nat) : Nat := leNat ((bs.drop off).take n)

/-- Byte i of a string; 0 beyond its end. -/
def byteAt (bs : List Byte) (i : Nat) : Nat := (bs.getD i 0).toNat

/-- n fields of w bits each, field 0 lowest. -/
def packNat (w : Nat) (f : Nat → Nat) : Nat → Nat
  | 0 => 0
  | n + 1 => packNat w f n + f n * 2 ^ (w * n)

/-- Residue i of a sector (R29). -/
def lane128 (d : SectorBits) (i : Nat) : Residue := d.extractLsb' (36 * i) 36

/-- The sector of 128 residues (R29). -/
def sectorOf (f : Nat → Residue) : SectorBits := BitVec.ofNat 4608 (packNat 36 (fun i => (f i).toNat) 128)

/-- The vector of 1024 lanes (R57). -/
def mkVec (f : Nat → Residue) : Vec := (List.range 1024).map f

/-- Lane j of a vector. -/
def lane (v : Vec) (j : Nat) : Residue := v.getD j 0

/-- The mask whose bit j is `f j`. -/
def mkMask (f : Nat → Bool) : BitVec 1024 := BitVec.ofNat 1024 (packNat 1 (fun j => (f j).toNat) 1024)

/-- Whether lane j is active under mask field `mask` (R59). -/
def active (ks : Vector (BitVec 1024) 8) (mask : BitVec 3) (j : Nat) : Bool :=
  mask == 0 || ks[mask.toNat]!.getLsbD j

/-- Whether lane group g has an active lane. -/
def groupActive (ks : Vector (BitVec 1024) 8) (mask : BitVec 3) (g : Nat) : Bool :=
  mask == 0 || ks[mask.toNat]!.extractLsb' (128 * g) 128 != 0

/-- Bytes 9w to 9w + 8 of a row are codeword w (R140): the data with every poisoned codeword read as zero (R144). -/
def Row.seen (r : Row) : SectorBits :=
  if r.poison = 0 then r.data
  else BitVec.ofNat 4608 (packNat 72 (fun w => if r.poison.getLsbD w then 0 else field r.data.toNat (72 * w) 72) 64)

/-- Bytes of a sector. -/
def sectorBytes (d : SectorBits) : List Byte := leBytes 576 d.toNat

/-- The sector of up to 576 bytes. -/
def sectorOfBytes (bs : List Byte) : SectorBits := BitVec.ofNat 4608 (leNat bs)

/-- A counter that stays at its largest value. -/
def satInc {w : Nat} (x : BitVec w) : BitVec w := if x = BitVec.allOnes w then x else x + 1

/-- A counter raised by n that stays at its largest value. -/
def satAdd {w : Nat} (x : BitVec w) (n : Nat) : BitVec w :=
  if x.toNat + n ≥ 2 ^ w then BitVec.allOnes w else BitVec.ofNat w (x.toNat + n)

/-- A register word built of fields given as (lowest bit, value). -/
def wordOf (fs : List (Nat × Nat)) : Word := BitVec.ofNat 32 ((fs.map (fun p => p.2 * 2 ^ p.1)).sum)

/-- A list cut into pieces of n. -/
def chunksOf {α : Type} (n : Nat) (l : List α) : List (List α) :=
  (List.range ((l.length + n - 1) / n)).map (fun i => (l.drop (n * i)).take n)

end Sys2Proof.Machine
end

