-- ==== Sys2Proof/Machine/Arith.lean ====
section
/-! DEFINITION. Modular arithmetic (R19, R25, R60), and IEEE binary32 and binary64 under the rules of R62, computed exactly and rounded once. -/

namespace Sys2Proof.Machine

/-- One fold of R60: z · 2^−18 mod q, with m = (q − 1) / 2^18. -/
def fold18 (m z : Nat) : Nat :=
  let u := (2 ^ 18 - z % 2 ^ 18) % 2 ^ 18
  (z + (u + u * m * 2 ^ 18)) / 2 ^ 18

/-- One compare-subtract stage of R60. -/
def subOnce (q v : Nat) : Nat := if v ≥ q then v - q else v

/-- The fixed sequence of R60. The meanings use its result, w mod q. -/
def reduce60 (q w : Nat) : Nat :=
  let m := (q - 1) / 2 ^ 18
  let v := fold18 m (fold18 m w)
  let v := fold18 m (fold18 m (v * (2 ^ 72 % q)))
  subOnce q (subOnce q (subOnce q (subOnce q v)))

def powAux (q : Nat) : Nat → Nat → Nat → Nat
  | 0, _, _ => 1 % q
  | f + 1, b, e => if e % 2 = 1 then b * powAux q f (b * b % q) (e / 2) % q else powAux q f (b * b % q) (e / 2)

/-- b^e mod q. -/
def powMod (q b e : Nat) : Nat := powAux q (e.log2 + 1) (b % q) e

def invAux (q : Nat) : Nat → Int → Int → Int → Int → Option Nat
  | 0, _, _, _, _ => none
  | f + 1, r0, r1, t0, t1 =>
    if r1 = 0 then (if r0 = 1 then some (t0 % (q : Int)).toNat else none)
    else invAux q f r1 (r0 % r1) t1 (t0 - r0 / r1 * t1)

/-- The inverse of x mod q, when there is one. -/
def invMod (q x : Nat) : Option Nat := invAux q (2 * q.log2 + 4) q (x % q) 0 1

/-- A residue of value x mod q. -/
def res (x : Nat) : Residue := BitVec.ofNat 36 x

/-- LOG2Q (R25): round(256 · log2 q), which is half the bit length of q^512. -/
def log2Q (q : Nat) : Nat := ((q ^ 512).log2 + 1) / 2

/-- v / 2^s to nearest, ties to even. -/
def rneShift (v s : Nat) : Nat :=
  let h := v / 2 ^ s
  let r := v % 2 ^ s
  if 2 * r > 2 ^ s ∨ (2 * r = 2 ^ s ∧ h % 2 = 1) then h + 1 else h

/-- v / 2^s to nearest, ties to even, for signed v (R118). -/
def rneShiftInt (v : Int) (s : Nat) : Int :=
  if v < 0 then -(rneShift v.natAbs s : Int) else (rneShift v.natAbs s : Int)

/-- A binary format: significand bits with the hidden one, and largest exponent. -/
structure FpFormat where
  p : Nat
  emax : Nat
deriving DecidableEq, Repr

def fp32 : FpFormat := ⟨24, 127⟩
def fp64 : FpFormat := ⟨53, 1023⟩

/-- A value: a signed zero is `num neg 0 _`. -/
inductive Fp
  | nan
  | inf (neg : Bool)
  | num (neg : Bool) (m : Nat) (e : Int)
deriving DecidableEq, Repr

/-- A result with the events of R62. -/
structure FpOut where
  bits : Nat
  invalid : Bool := false
  overflow : Bool := false
  underflow : Bool := false
deriving DecidableEq, Repr

def FpFormat.expBits (f : FpFormat) : Nat := (f.emax + 1).log2 + 1

/-- The value of a bit pattern; a subnormal reads as zero of its sign (R62). -/
def FpFormat.decode (f : FpFormat) (x : Nat) : Fp :=
  let neg := (x >>> (f.p - 1 + f.expBits)) % 2 = 1
  let ex := field x (f.p - 1) f.expBits
  let man := x % 2 ^ (f.p - 1)
  if ex = 2 ^ f.expBits - 1 then (if man = 0 then .inf neg else .nan)
  else if ex = 0 then .num neg 0 0
  else .num neg (2 ^ (f.p - 1) + man) ((ex : Int) - f.emax - (f.p - 1))

def FpFormat.sign (f : FpFormat) (neg : Bool) : Nat := if neg then 2 ^ (f.p - 1 + f.expBits) else 0

def FpFormat.infBits (f : FpFormat) (neg : Bool) : Nat := f.sign neg + (2 ^ f.expBits - 1) * 2 ^ (f.p - 1)

/-- The one NaN the device writes (R62): 0x7FC0_0000 in binary32. -/
def FpFormat.nanBits (f : FpFormat) : Nat := (2 ^ f.expBits - 1) * 2 ^ (f.p - 1) + 2 ^ (f.p - 2)

/-- m · 2^e rounded to nearest even; a result that would be subnormal becomes a signed zero, a result too large infinity (R62). Underflow is
judged after rounding: R62 does not say whether before or after (DESIGN CHOICE, log 79). -/
def FpFormat.round (f : FpFormat) (neg : Bool) (m : Nat) (e : Int) : FpOut :=
  if m = 0 then { bits := f.sign neg }
  else
    let g : Int := max (e + m.log2 - (f.p - 1)) (1 - (f.emax : Int) - (f.p - 1))
    let r := if g ≤ e then m * 2 ^ (e - g).toNat else rneShift m (g - e).toNat
    if r < 2 ^ (f.p - 1) then { bits := f.sign neg, underflow := true }
    else
      let carry := decide (r = 2 ^ f.p)
      let ex : Int := g + (f.p - 1) + (if carry then 1 else 0)
      if ex > f.emax then { bits := f.infBits neg, overflow := true }
      else { bits := f.sign neg + (ex + f.emax).toNat * 2 ^ (f.p - 1) + (if carry then 0 else r - 2 ^ (f.p - 1)) }

/-- A signed dyadic n · 2^e rounded; `negZero` is the sign of an exact zero. -/
def FpFormat.roundInt (f : FpFormat) (negZero : Bool) (n : Int) (e : Int) : FpOut :=
  f.round (if n = 0 then negZero else decide (n < 0)) n.natAbs e

/-- A value in a format. A NaN result has the one pattern of R62, which the rule states for invalid operations and for minimum and maximum: that add,
subtract, multiply and FMA write it for a NaN operand too is DEDUCED (log 8). -/
def FpFormat.encode (f : FpFormat) : Fp → FpOut
  | .nan => { bits := f.nanBits, invalid := true }
  | .inf neg => { bits := f.infBits neg }
  | .num neg m e => f.round neg m e

def Fp.neg : Fp → Fp
  | .nan => .nan
  | .inf n => .inf (!n)
  | .num n m e => .num (!n) m e

def Fp.isNan : Fp → Bool
  | .nan => true
  | _ => false

/-- The signed value m · 2^e as an integer over 2^e' for e' ≤ e. -/
def scaleTo (neg : Bool) (m : Nat) (e e' : Int) : Int :=
  let v : Int := m * 2 ^ (e - e').toNat
  if neg then -v else v

/-- Exact sum; an exact zero sum is +0 unless both are −0. -/
def Fp.add : Fp → Fp → Fp
  | .nan, _ => .nan
  | _, .nan => .nan
  | .inf a, .inf b => if a = b then .inf a else .nan
  | .inf a, _ => .inf a
  | _, .inf b => .inf b
  | .num a m e, .num b n f =>
    let g := min e f
    let s := scaleTo a m e g + scaleTo b n f g
    if s = 0 then .num (a && b) 0 0 else .num (decide (s < 0)) s.natAbs g

/-- Exact product. -/
def Fp.mul : Fp → Fp → Fp
  | .nan, _ => .nan
  | _, .nan => .nan
  | .inf a, .inf b => .inf (a != b)
  | .inf a, .num b n _ => if n = 0 then .nan else .inf (a != b)
  | .num a m _, .inf b => if m = 0 then .nan else .inf (a != b)
  | .num a m e, .num b n f => .num (a != b) (m * n) (e + f)

/-- Whether x < y; false with a NaN. Zeros of both signs are equal. -/
def Fp.lt : Fp → Fp → Bool
  | .nan, _ => false
  | _, .nan => false
  | .inf a, .inf b => a && !b
  | .inf a, _ => a
  | _, .inf b => !b
  | .num a m e, .num b n f => decide (scaleTo a m e (min e f) < scaleTo b n f (min e f))

/-- Whether x = y as numbers; false with a NaN. -/
def Fp.eq (x y : Fp) : Bool := !x.isNan && !y.isNan && !x.lt y && !y.lt x

/-- Binary32 operations of R62. -/
def fAdd (x y : Nat) : FpOut := fp32.encode ((fp32.decode x).add (fp32.decode y))
def fSub (x y : Nat) : FpOut := fp32.encode ((fp32.decode x).add (fp32.decode y).neg)
def fMul (x y : Nat) : FpOut := fp32.encode ((fp32.decode x).mul (fp32.decode y))
def fFma (x y z : Nat) : FpOut := fp32.encode (((fp32.decode x).mul (fp32.decode y)).add (fp32.decode z))

/-- Minimum and maximum (R62); of two zeros of unlike sign the result is open (log 8). -/
def fPick (isMin : Bool) (x y : Nat) : FpOut :=
  let a := fp32.decode x
  let b := fp32.decode y
  if a.isNan || b.isNan then { bits := fp32.nanBits, invalid := true }
  else if a.lt b then fp32.encode (if isMin then a else b)
  else if b.lt a then fp32.encode (if isMin then b else a)
  else if Config.zeroTie isMin x y then fp32.encode a else fp32.encode b

def fMin (x y : Nat) : FpOut := fPick true x y
def fMax (x y : Nat) : FpOut := fPick false x y

/-- The integer nearest a finite value, ties to even. -/
def nearestInt (neg : Bool) (m : Nat) (e : Int) : Int :=
  let v := if 0 ≤ e then m * 2 ^ e.toNat else rneShift m (-e).toNat
  if neg then -(v : Int) else (v : Int)

/-- A quotient in binary32, which the device forms in the sentinel alone (R113); invalid operations give the NaN of R62. The spec gives no quotient's
corners: they are IEEE 754's, with the zeros of R62 (DEDUCED, log 14). -/
def fDiv (x y : Nat) : FpOut :=
  let nan : FpOut := { bits := fp32.nanBits, invalid := true }
  match fp32.decode x, fp32.decode y with
  | .nan, _ => nan
  | _, .nan => nan
  | .inf _, .inf _ => nan
  | .inf a, .num b _ _ => { bits := fp32.infBits (a != b) }
  | .num a _ _, .inf b => { bits := fp32.sign (a != b) }
  | .num a n en, .num b d ed =>
    if d = 0 then (if n = 0 then nan else { bits := fp32.infBits (a != b) })
    else
      let k := d.log2 + 40
      fp32.round (a != b) (2 * (n * 2 ^ k / d) + if n * 2 ^ k % d = 0 then 0 else 1) (en - ed - k - 1)

end Sys2Proof.Machine
end

