-- ==== Sys2Proof/Machine/Store.lean ====
section
/-! DEFINITION. The operations of a sparse store. Its one form: addresses strictly rising, no entry equal to what an unlisted address reads as. -/

namespace Sys2Proof.Machine.Store

/-- What address `k` holds: its entry, or `d k` when it is unlisted. -/
def read {α : Type} (d : Nat → α) : Sparse α → Nat → α
  | [], k => d k
  | (a, x) :: m, k => if a = k then x else read d m k

/-- The store with `x` at address `k`. -/
def write {α : Type} [DecidableEq α] (d : Nat → α) : Sparse α → Nat → α → Sparse α
  | [], k, x => if x = d k then [] else [(k, x)]
  | (a, y) :: m, k, x =>
    if k < a then (if x = d k then (a, y) :: m else (k, x) :: (a, y) :: m)
    else if k = a then (if x = d k then m else (k, x) :: m)
    else (a, y) :: write d m k x

/-- The store after the writes of a list, in its order. -/
def writeAll {α : Type} [DecidableEq α] (d : Nat → α) (m : Sparse α) (ws : List (Nat × α)) : Sparse α :=
  ws.foldl (fun acc w => write d acc w.1 w.2) m

/-- The one form. -/
def wf {α : Type} [DecidableEq α] (d : Nat → α) : Sparse α → Bool
  | [] => true
  | (a, x) :: m => decide (x ≠ d a) && m.all (fun p => decide (a < p.1)) && wf d m

/-- The store that holds `f k` at each k below n, and its unlisted value from n on. -/
def ofFn {α : Type} [DecidableEq α] (d : Nat → α) (n : Nat) (f : Nat → α) : Sparse α :=
  (List.range n).filterMap (fun k => if f k = d k then none else some (k, f k))

end Sys2Proof.Machine.Store
end

