-- ==== Sys2Proof/Machine/Operands.lean ====
section
/-! DEFINITION. Operand fields of the slot formats (R275, R278, R286, R297, R299), and the checks that more than one instruction makes at issue. -/

namespace Sys2Proof.Machine

/-- What an instruction sees at issue: pipeline cycle, schedule counter, wall cycle, tile, bundle, and the image's options. -/
structure IssueCtx where
  pipe : Nat
  sched : Nat
  wall : Nat
  self : TileId
  bundle : BitVec 14
  poisonHalt : Bool
  overflowHalt : Bool
  hazard : Bool
deriving DecidableEq, Repr

/-- Why an issue halts: the reason, and the row where SCR_ERR records one (R146, R148). -/
structure IssueStop where
  reason : HaltReason
  row : Option Nat := none
deriving DecidableEq, Repr

/-- An issue: the tile after it, or why it halts. -/
abbrev Issue := Except IssueStop Tile

/-- Halts for `r` unless `c` holds. -/
def need (c : Bool) (r : HaltReason) : Except IssueStop Unit := if c then .ok () else .error ⟨r, none⟩

/-- Step 2 of R274: the bits of `mask` are reserved or unused. -/
def reservedZero {n : Nat} (w mask : BitVec n) : Except IssueStop Unit := need (w &&& mask == 0) .reservedField

/- V-slot fields (R278). -/
def vD (w : BitVec 26) : BitVec 5 := w.extractLsb' 21 5
def vA (w : BitVec 26) : BitVec 5 := w.extractLsb' 16 5
def vB (w : BitVec 26) : BitVec 5 := w.extractLsb' 11 5
def vMask (w : BitVec 26) : BitVec 3 := w.extractLsb' 8 3
def vZ (w : BitVec 26) : Bool := w.getLsbD 7
def vGS (w : BitVec 26) : Bool := w.getLsbD 6
def vMctx (w : BitVec 26) : BitVec 2 := w.extractLsb' 4 2
def vSE (w : BitVec 26) : BitVec 4 := w.extractLsb' 0 4
def vSS (w : BitVec 26) : BitVec 4 := w.extractLsb' 12 4
def vCond (w : BitVec 26) : BitVec 2 := w.extractLsb' 24 2
def vKD (w : BitVec 26) : BitVec 3 := w.extractLsb' 21 3
def vKA (w : BitVec 26) : BitVec 3 := w.extractLsb' 16 3
def vKB (w : BitVec 26) : BitVec 3 := w.extractLsb' 11 3
def vAR (w : BitVec 26) : BitVec 4 := w.extractLsb' 17 4
def vStride (w : BitVec 26) : BitVec 3 := w.extractLsb' 14 3
def vPW (w : BitVec 26) : BitVec 2 := w.extractLsb' 12 2
def vPwen (w : BitVec 26) : Bool := w.getLsbD 11
def vExcl (w : BitVec 26) : Bool := w.getLsbD 15
def vSegen (w : BitVec 26) : Bool := w.getLsbD 14
def vSegk (w : BitVec 26) : BitVec 3 := w.extractLsb' 11 3
def vScp (w : BitVec 26) : Bool := w.getLsbD 15
def vSD (w : BitVec 26) : BitVec 4 := w.extractLsb' 11 4

/-- A 4-bit or 2-bit field of a slot word at bit `lo`. -/
def f4 (w : BitVec 26) (lo : Nat) : BitVec 4 := w.extractLsb' lo 4
def f3 (w : BitVec 26) (lo : Nat) : BitVec 3 := w.extractLsb' lo 3
def f2 (w : BitVec 26) (lo : Nat) : BitVec 2 := w.extractLsb' lo 2

/- Register reads (R275). -/
def Tile.vreg (t : Tile) (n : BitVec 5) : Vec := t.v[n.toNat]
def Tile.kreg (t : Tile) (n : BitVec 3) : BitVec 1024 := t.k[n.toNat]
def Tile.sreg (t : Tile) (n : BitVec 4) : BitVec 64 := t.s[n.toNat]
def Tile.areg (t : Tile) (n : BitVec 4) : Word := t.a[n.toNat]
def Tile.hreg (t : Tile) (n : BitVec 3) : HReg := t.h[n.toNat]
def Tile.ctx (t : Tile) (n : BitVec 2) : Option ModTable := t.mctx[n.toNat]

/-- A register by name, for the hazard detector (R308). -/
inductive RegName
  | v (n : BitVec 5) | k (n : BitVec 3) | s (n : BitVec 4) | a (n : BitVec 4) | h (n : BitVec 3)
deriving DecidableEq, Repr

/-- The register a writeback writes. -/
def Dest.reg : Dest → Option RegName
  | .v n _ _ => some (.v n)
  | .k n _ _ => some (.k n)
  | .s n _ => some (.s n)
  | .a n _ => some (.a n)
  | .hop n _ _ => some (.h n)
  | .hld n _ _ => some (.h n)
  | .home n _ => some (.h n)
  | .row _ _ => none
  | .mve _ => none
  | .clear _ _ => none
  | .pad _ _ => none
  | .release _ => none

/-- The hazard detector's check on the source registers of an instruction (R308). -/
def hazardFree (ctx : IssueCtx) (t : Tile) (srcs : List RegName) : Except IssueStop Unit :=
  need (!(ctx.hazard && t.flights.any (fun f => decide (f.issued < ctx.pipe) &&
    f.dests.any (fun d => match d.reg with | some r => srcs.contains r | none => false)))) .hazard

/-- The mask register that a mask field reads (R59). -/
def maskSrc (m : BitVec 3) : List RegName := if m = 0 then [] else [.k m]

/- Modulus table entries (R20, R22). -/
def ModEntry.q (e : ModEntry) : Nat := field e.word0.toNat 0 36
def ModEntry.psi (e : ModEntry) : Nat := field e.word1.toNat 0 36

/-- The entry at table index j, when it is populated (R58). -/
def ModTable.entry? (m : ModTable) (j : Nat) : Option ModEntry :=
  if j < 64 then m.limbs[j]? else if j < 96 then m.specials[j - 64]? else none

def ctxEntry? (c : Option ModTable) (j : Nat) : Option ModEntry := c.bind (fun m => m.entry? j)

/-- The prime of an entry; 0 where there is none, which no checked use reaches. -/
def ctxPrime (c : Option ModTable) (j : Nat) : Nat := match ctxEntry? c j with | some e => e.q | none => 0

/-- The base entry of a prime selector (R58). -/
def selBase (t : Tile) (se : BitVec 4) : Nat := field (t.sreg se).toNat 0 7

/-- The prime of lane group g under a prime selector. -/
def selPrime (t : Tile) (mctx : BitVec 2) (se : BitVec 4) (gs : Bool) (g : Nat) : Nat :=
  ctxPrime (t.ctx mctx) (selBase t se + if gs then g else 0)

/-- The check of R58: the one entry under GS = 0, the entries of groups with an active lane under GS = 1. -/
def selOk (t : Tile) (mctx : BitVec 2) (se : BitVec 4) (gs : Bool) (mask : BitVec 3) : Bool :=
  if gs then (List.range 8).all (fun g => !groupActive t.k mask g || (ctxEntry? (t.ctx mctx) (selBase t se + g)).isSome)
  else (ctxEntry? (t.ctx mctx) (selBase t se)).isSome

/- Scratchpad rows (R128, R145). -/
def quarterOf (row : Nat) : Nat := row / 8192
def bankOf (row : Nat) : Nat := 8 * (row / 8192) + row % 8

/-- Whether a row exists: within 32,767 and in a powered segment (R145, R146). -/
def Tile.powered (t : Tile) (row : Nat) : Bool :=
  decide (row < 32768) && t.segments.getLsbD (2 * (row / 8192) + row / 4 % 2)

/-- Halts with SCRATCH_BOUNDS at the first row that does not exist (R146). -/
def needRows (t : Tile) (rows : List Nat) : Except IssueStop Unit :=
  match rows.find? (fun r => !t.powered r) with
  | some r => .error ⟨.scratchBounds, some r⟩
  | none => .ok ()

/-- Whether `rows` form an eight-row group (R129). -/
def eightRowGroup (rows : List Nat) : Bool :=
  match rows with
  | [] => false
  | r :: _ => rows.all (fun x => quarterOf x == quarterOf r) && decide ((rows.map (· % 8)).Nodup)

/-- Whether n rows from `first` meet the region rule of R129. -/
def regionOk (first n : Nat) : Bool := first % 8 == 0 && quarterOf first == quarterOf (first + n - 1)

def rowsFrom (first n : Nat) : List Nat := (List.range n).map (first + ·)

/-- Whether two runs of rows share a row. -/
def overlap (a n b m : Nat) : Bool := decide (a < b + m) && decide (b < a + n)

/-- Whether the TU is occupied (R74). -/
def Tile.tuBusy (t : Tile) (pipe : Nat) : Bool :=
  match t.tu.op with
  | some op => decide (pipe < op.issued + op.latency)
  | none => false

/-- Whether the NMA is occupied (R95). -/
def Tile.nmaBusy (t : Tile) (pipe : Nat) : Bool :=
  (match t.nma.op with | some op => decide (pipe < op.issued + op.occupancy) | none => false) ||
  (match t.nma.dsm with | some d => decide (pipe < d.issued + d.k) | none => false)

/-- Sectors in one limb. -/
def sectorsOf (logN : Nat) : Nat := 2 ^ (logN - 7)

/-- Rows of a region of the TU operation. -/
def TuOp.regionRows (op : TuOp) : Nat := match op.kind with | .txp => 128 | _ => sectorsOf op.logN

/-- Sectors in a twiddle table (R83). -/
def tableRows (logN : Nat) : Nat := (sectorsOf logN + 127) / 128 + sectorsOf logN + 1

/-- Panel geometry (R99): blocks per row, element bits, rows or columns U of the shape. -/
def Fmt.bits : Fmt → Nat
  | .mxfp4 | .mxint4 => 4
  | .int2 | .ternary => 2
  | .mxint8 | .mxfp8 => 8

def Fmt.bpr (f : Fmt) : Nat := 128 / f.bits
def Fmt.small (f : Fmt) : Bool := f.bits == 8
def shapeU (small : Bool) : Nat := if small then 144 else 288
def blockRows (small : Bool) : Nat := if small then 5 else 9

/-- Rows that nb block steps of a panel fill. -/
def panelRows (f : Fmt) (nb : Nat) : Nat := (shapeU f.small * nb + f.bpr - 1) / f.bpr

/-- Quarters whose read slots, and quarters whose write slots, an operation owns (R133). -/
structure Owned where
  reads : List Nat := []
  writes : List Nat := []
deriving DecidableEq, Repr

def quartersOf (first n : Nat) : List Nat :=
  (List.range (quarterOf (first + n - 1) + 1 - quarterOf first)).map (quarterOf first + ·)

def TuOp.owned (op : TuOp) : Owned :=
  let n := op.regionRows
  { reads := quartersOf op.src n ++ (match op.kind with
      | .transform _ true => quartersOf op.aux (tableRows op.logN)
      | .perm => quartersOf op.aux n
      | _ => [])
    writes := quartersOf op.dst n }

def NmaOp.owned (op : NmaOp) : Owned :=
  match op.kind with
  | .mma f _ _ a b nb _ _ _ => { reads := quartersOf a (panelRows f nb) ++ quartersOf b (panelRows f nb) }
  | _ => {}

def DsmOp.owned (d : DsmOp) : Owned :=
  { reads := (d.rowsA ++ d.rowsB).map quarterOf, writes := quartersOf d.dst 8 }

def Owned.append (a b : Owned) : Owned := ⟨a.reads ++ b.reads, a.writes ++ b.writes⟩

def Tile.tuOwned (t : Tile) (pipe : Nat) : Owned :=
  match t.tu.op with
  | some op => if pipe < op.issued + op.latency then op.owned else {}
  | none => {}

def Tile.nmaOwned (t : Tile) (pipe : Nat) : Owned :=
  (match t.nma.op with | some op => if pipe < op.issued + op.occupancy then op.owned else {} | none => {}).append
  (match t.nma.dsm with | some d => if pipe < d.issued + d.k then d.owned else {} | none => {})

def Tile.owned (t : Tile) (pipe : Nat) : Owned := (t.tuOwned pipe).append (t.nmaOwned pipe)

/-- The ownership check of R133 on rows that an instruction reads and writes. -/
def slotsFree (t : Tile) (pipe : Nat) (reads writes : List Nat) : Bool :=
  let o := t.owned pipe
  reads.all (fun r => !o.reads.contains (quarterOf r)) && writes.all (fun r => !o.writes.contains (quarterOf r))

/-- The bank slots that instructions of the same bundle have taken (R134). -/
def Tile.busNow (t : Tile) (pipe : Nat) : List Nat × List Nat :=
  if t.busCycle = pipe then (t.busReads, t.busWrites) else ([], [])

/-- Takes bank slots for rows; two requests for one slot in one bundle halt with OPERAND_RANGE (R134). -/
def claim (ctx : IssueCtx) (reads writes : List Nat) (t : Tile) : Issue :=
  let bus := t.busNow ctx.pipe
  if reads.any (fun r => bus.1.contains (bankOf r)) || writes.any (fun r => bus.2.contains (bankOf r)) then
    .error ⟨.operandRange, none⟩
  else
    .ok { t with busCycle := ctx.pipe, busReads := bus.1 ++ reads.map bankOf, busWrites := bus.2 ++ writes.map bankOf }

/-- Whether an operation that owns `o` would meet a slot taken in the same bundle (R134). -/
def ownMeetsBus (t : Tile) (pipe : Nat) (o : Owned) : Bool :=
  let bus := t.busNow pipe
  bus.1.any (fun b => o.reads.contains (b / 8)) || bus.2.any (fun b => o.writes.contains (b / 8))

/-- Rows in a ring slot (R184). -/
def Ring.slotRows (r : Ring) : Nat := 8 + 2 * r.s

/-- The slot of an armed ring that a row lies in. -/
def Ring.slotAt (r : Ring) (row : Nat) : Option SlotState :=
  if r.armed && decide (r.base ≤ row) then r.slots[(row - r.base) / r.slotRows]? else none

/-- Whether an engine read of the row meets an EMPTY or FILLING slot (R187). -/
def Tile.ringStarved (t : Tile) (row : Nat) : Bool :=
  t.rings.any (fun r => match r.slotAt row with | some .full => false | some _ => true | none => false)

/-- Whether the row lies in an armed ring (R187). -/
def Tile.ringHolds (t : Tile) (row : Nat) : Bool := t.rings.any (fun r => (r.slotAt row).isSome)

/-- Whether row a is a pad row of a window (R168). -/
def PadWindow.pads (w : PadWindow) (a : Nat) : Bool :=
  let d := a - w.base.toNat
  let st := w.lineStride.toNat
  decide (w.base.toNat ≤ a) && decide (d < w.lines.toNat * st) && decide (d % st < w.lineRows.toNat) &&
    (decide (d / st < w.lo.toNat) || decide (w.hi.toNat ≤ d / st))

/-- What an unlisted scratchpad row holds: zeros with valid check bits (R147; log 2). -/
def rowDefault : Nat → Row := fun _ => {}

def Tile.rowAt (t : Tile) (r : Nat) : Row := Store.read rowDefault t.scratch r
/-- A row written: an error that its ECC corrected is gone (R141), and reads of it in flight are of what it held before. -/
def Tile.setRow (t : Tile) (r : Nat) (x : Row) : Tile :=
  { t with scratch := Store.write rowDefault t.scratch r x, ceRows := t.ceRows.filter (· != r)
           reads := t.reads.map (fun y => if y.row = r then { y with writes := y.writes + 1 } else y) }
/-- Rows written in order. -/
def Tile.storeRows (t : Tile) (rs : List (Nat × Row)) : Tile := rs.foldl (fun t p => t.setRow p.1 p.2) t

/-- Adds a result that lands at the end of pipeline cycle `due`. -/
def Tile.launch (t : Tile) (ctx : IssueCtx) (latency : Nat) (dests : List Dest) : Tile :=
  { t with flights := t.flights ++ [{ due := ctx.pipe + latency - 1, issued := ctx.pipe, seq := t.seq, dests := dests }]
           seq := t.seq + 1 }

end Sys2Proof.Machine
end

