-- ==== Sys2Proof/Machine/Transform.lean ====
section
/-! DEFINITION. What the operations of the Transform Unit compute (R77, R81 to R88, R298), as functions of the rows they read. -/

namespace Sys2Proof.Machine

/-- The data a unit got from row r. -/
def Fetches.seen (f : Fetches) (r : Nat) : SectorBits :=
  match f.got.find? (fun p => p.1 == r) with
  | some p => p.2.seen
  | none => 0

/-- Position i of a region that starts at row `first`. -/
def Fetches.at (f : Fetches) (first i : Nat) : Residue := lane128 (f.seen (first + i / 128)) (i % 128)

def sumMod (q n : Nat) (f : Nat → Nat) : Nat := (List.range n).foldl (fun acc i => (acc + f i) % q) 0

/-- The negacyclic transform of R77: element k of the forward transform. -/
def nttAt (q psi N : Nat) (x : Nat → Nat) (k : Nat) : Nat :=
  sumMod q N (fun i => x i * powMod q psi ((2 * k + 1) * i))

/-- The inverse of N mod q (R290). -/
def nInv (q N : Nat) : Nat := (invMod q N).getD 0

/-- Element i of the inverse transform of R77; ψ^(−m) is (ψ^(2N−1))^m. -/
def inttAt (q psi N : Nat) (x : Nat → Nat) (i : Nat) : Nat :=
  nInv q N * sumMod q N (fun k => x k * powMod q (powMod q psi (2 * N - 1)) ((2 * k + 1) * i)) % q

/-- Bit reversal of m over w bits (R83). -/
def bitrev : Nat → Nat → Nat
  | 0, _ => 0
  | w + 1, m => (m % 2) * 2 ^ w + bitrev w (m / 2)

/-- Entry m of the derived twiddle table at position m of its sectors (R83); `none` where the entry is not read. -/
def derivedTwiddle (q psi logN : Nat) (inverse : Bool) (m : Nat) : Option Nat :=
  let N := 2 ^ logN
  let M := sectorsOf logN
  let root := if inverse then powMod q psi (2 * N - 1) else psi % q
  let rowsA := (M + 127) / 128
  if m < 128 * rowsA then
    if m = 0 ∨ M ≤ m then none else some (powMod q root (128 * bitrev (logN - 7) m))
  else if m < 128 * (rowsA + M) then
    let b := m - 128 * rowsA
    let w := powMod q root ((2 * (b / 128) + 1) * (b % 128))
    some (if inverse then nInv q N * w % q else w)
  else
    let c := m - 128 * (rowsA + M)
    if c = 0 then none else some (powMod q root (2 * M * bitrev 7 c))

/-- Entry m of the twiddle table under TABLE, mod q (R30, R83). -/
def tableEntry (op : TuOp) (m : Nat) : Nat := (op.fetch.at op.aux m).toNat % op.q

/-- Where parts B and C of a twiddle table begin (R83). -/
def tableB (logN : Nat) : Nat := 128 * ((sectorsOf logN + 127) / 128)
def tableC (logN : Nat) : Nat := tableB logN + 128 * sectorsOf logN

/-- The factor of the twiddle stage for index k2 of column c (R78, R83). -/
def stageFactor (op : TuOp) (inverse table : Bool) (k2 c : Nat) : Nat :=
  if table then tableEntry op (tableB op.logN + 128 * k2 + c)
  else (derivedTwiddle op.q op.psi op.logN inverse (tableB op.logN + 128 * k2 + c)).getD 0

/-- The root of pass 1: φ or φ⁻¹, under TABLE the entry at index M/2 of part A (R78, R83). -/
def rootOne (op : TuOp) (inverse table : Bool) : Nat :=
  if table then tableEntry op (sectorsOf op.logN / 2)
  else powMod op.q (if inverse then powMod op.q op.psi (2 * 2 ^ op.logN - 1) else op.psi) 128

/-- The root of pass 2: ω or ω⁻¹, under TABLE the entry at index 64 of part C (R78, R83). -/
def rootTwo (op : TuOp) (inverse table : Bool) : Nat :=
  if table then tableEntry op (tableC op.logN + 64)
  else powMod op.q (if inverse then powMod op.q op.psi (2 * 2 ^ op.logN - 1) else op.psi) (2 * sectorsOf op.logN)

/-- Whether entries 1 to 2^w − 1 of a part are the powers of one root, bit-reversed, and power n of the root is −1 (R83). -/
def partOk (op : TuOp) (first w n root : Nat) : Bool :=
  powMod op.q root n == op.q - 1 &&
  (List.range (2 ^ w)).all (fun m => m == 0 || tableEntry op (first + m) == powMod op.q root (bitrev w m))

/-- Entries 1 to n − 1 of a part, whose entry 0 is read and ignored (R83). -/
def partEntries (op : TuOp) (first n : Nat) : List Nat := (List.range (n - 1)).map (fun m => tableEntry op (first + m + 1))

/-- One value of pass 1 of a column (R78): of a forward transform its index k, of an inverse one its sector k. Entries that are no
root's powers give what the unit's internal order makes of them (log 9). -/
def passOne (op : TuOp) (inverse table : Bool) (x : Nat → Nat) (k : Nat) : Nat :=
  let M := sectorsOf op.logN
  if table && !partOk op 0 (op.logN - 7) M (rootOne op inverse true) then
    Config.tablePass inverse true op.q (partEntries op 0 M) ((List.range M).map x) k % op.q
  else
    sumMod op.q M (fun i => x i * powMod op.q (rootOne op inverse table) (if inverse then (2 * i + 1) * k else (2 * k + 1) * i))

/-- The stages of pass 2 before the last: the transform of length 64 of the inputs 2i + `odd`, whose root is entry 32 of part C (R78, R83). -/
def passHalf (op : TuOp) (x : Nat → Nat) (odd k : Nat) : Nat :=
  sumMod op.q 64 (fun i => x (2 * i + odd) * powMod op.q (tableEntry op (tableC op.logN + 32)) (k * i))

/-- One value of pass 2 of a lane (R78). Entries 64 to 127 of part C are those of its last stage: where they alone are wrong, each pair of outputs has
the sum that it should have and a difference that the internal order decides, and output 0 takes no twiddle (R82, R83; log 9). -/
def passTwo (op : TuOp) (inverse table : Bool) (x : Nat → Nat) (k : Nat) : Nat :=
  let c := tableC op.logN
  if table && !partOk op c 7 64 (rootTwo op inverse true) then
    let free := Config.tablePass inverse false op.q (partEntries op c 128) ((List.range 128).map x)
    if partOk op c 6 32 (tableEntry op (c + 32)) then
      let j := k % 64
      let half := if j = 0 then passHalf op x 1 0 else free j % op.q
      if k < 64 then (passHalf op x 0 j + half) % op.q else (passHalf op x 0 j + (op.q - half)) % op.q
    else free k % op.q
  else sumMod op.q 128 (fun i => x i * powMod op.q (rootTwo op inverse table) (k * i))

/-- An upset's additions to word i, mod q (R82). -/
def upsetAdd (q : Nat) (l : List (Nat × Residue)) (i x : Nat) : Nat :=
  l.foldl (fun acc p => if p.1 = i then (acc + p.2.toNat) % q else acc) x

/-- Input element i, as a transform reads it (R30). -/
def transformIn (op : TuOp) (i : Nat) : Nat := (op.fetch.at op.src i).toNat % op.q

/-- Tile word of index k2 and column c in an inverse transform: working row c of pass 2 (R78). -/
def tileWordInv (op : TuOp) (table : Bool) (u : Upset) (k2 c : Nat) : Nat :=
  upsetAdd op.q u.tile (128 * (128 * (k2 / 128) + c) + k2 % 128)
    (passTwo op true table (fun k1 => transformIn op (sectorsOf op.logN * k1 + k2)) c)

/-- Limb-store word at sector k2, position c, between the passes (R78). -/
def storeWord (op : TuOp) (inverse table : Bool) (u : Upset) (k2 c : Nat) : Nat :=
  upsetAdd op.q u.store (128 * k2 + c)
    (if inverse then tileWordInv op table u k2 c * stageFactor op true table k2 c % op.q
      else passOne op false table (fun r => transformIn op (128 * r + c)) k2)

/-- Tile word of index k2 and column c in a forward transform: T[r][c] of block b, with k2 = 128 · b + r (R78). -/
def tileWordFwd (op : TuOp) (table : Bool) (u : Upset) (k2 c : Nat) : Nat :=
  upsetAdd op.q u.tile (128 * k2 + c) (storeWord op false table u k2 c * stageFactor op false table k2 c % op.q)

/-- Output element p by the four steps (R78, R79). -/
def stagedAt (op : TuOp) (inverse table : Bool) (u : Upset) (p : Nat) : Nat :=
  let M := sectorsOf op.logN
  if inverse then passOne op true table (fun k2 => storeWord op true table u k2 (p % 128)) (p / 128)
  else passTwo op false table (fun c => tileWordFwd op table u (p % M) c) (p / M)

/-- Output position p of a transform (R77): under DERIVED the sum of R77, which the four steps factor; under TABLE, or where a word
inside the unit is upset, the four steps themselves. -/
def transformAt (op : TuOp) (inverse table : Bool) (u : Option Upset) (p : Nat) : Residue :=
  let N := 2 ^ op.logN
  let v := u.getD {}
  res (upsetAdd op.q v.outputs p
    (if table || !v.store.isEmpty || !v.tile.isEmpty then stagedAt op inverse table v p
      else if inverse then inttAt op.q op.psi N (transformIn op) p else nttAt op.q op.psi N (transformIn op) p))

/-- The limb store after a transform: pass-1 results of a forward one, the output of an inverse one (R78). Sectors that the limb does not fill read 0
after it: the spec says nothing of them (DESIGN CHOICE, log 9). -/
def storeAfter (op : TuOp) (inverse table : Bool) (u : Option Upset) : Sparse SectorBits :=
  Store.ofFn (fun _ => 0) (sectorsOf op.logN) (fun k => sectorOf (fun c =>
    if inverse then transformAt op true table u (128 * k + c) else res (storeWord op false table (u.getD {}) k c)))

/-- The tile rows of block b of a transform, in plane b mod 2 (R73, R78). Of an inverse one of logN 12 or 13 the model writes all 128 rows, lanes M to
127 with 0: R79 gives the form of the forward one alone (DESIGN CHOICE, log 9). -/
def planeBlock (op : TuOp) (inverse table : Bool) (u : Option Upset) (b : Nat) : List (Nat × SectorBits) :=
  let M := sectorsOf op.logN
  (List.range (if inverse then 128 else min M 128)).map (fun r => (128 * (b % 2) + r, sectorOf (fun c =>
    if inverse then (if c < min M 128 then res (tileWordInv op table (u.getD {}) (128 * b + c) r) else 0)
    else res (tileWordFwd op table (u.getD {}) (128 * b + r) c))))

/-- The two planes after a transform: the last two blocks, block b in plane b mod 2 (R73, R78; log 9). -/
def planesAfter (op : TuOp) (inverse table : Bool) (u : Option Upset) (old : Sparse SectorBits) : Sparse SectorBits :=
  let last := sectorsOf op.logN / 128 - 1
  Store.writeAll (fun _ => 0) old ((if 0 < last then planeBlock op inverse table u (last - 1) else []) ++ planeBlock op inverse table u last)

/- When the parts of a transform are done: R80 gives the cycles of its parts, and R78 leaves the cycle of a row open (DESIGN CHOICE, log 9). -/

/-- The cycle in which the first pass begins: the first rows have come, and under TABLE the table (R80). -/
def TuOp.passStart (op : TuOp) (table : Bool) : Nat := op.issued + 6 + if table then 2 ^ op.logN / 1024 else 0

/-- Butterfly cycles of pass 1 and, for one block, of pass 2 (R80). -/
def TuOp.passOneCycles (op : TuOp) : Nat := 2 ^ op.logN * (op.logN - 7) / 1024
def TuOp.blockCycles (op : TuOp) : Nat := 7 * min (2 ^ op.logN) 16384 / 1024

def TuOp.blocks (op : TuOp) : Nat := max 1 (sectorsOf op.logN / 128)

/-- The cycle by which the tile holds block b (R78, R80). -/
def TuOp.planeFull (op : TuOp) (inverse table : Bool) (b : Nat) : Nat :=
  if inverse then op.passStart table + op.blockCycles * (b + 1) + 10
  else op.passStart table + op.passOneCycles + 34 + op.blockCycles * b

/-- The cycle by which pass 1 has left its results in the limb store (R78, R80). -/
def TuOp.storeFull (op : TuOp) (inverse table : Bool) : Nat :=
  op.passStart table + op.passOneCycles + 10 + if inverse then op.blocks * op.blockCycles + 24 else 0

/-- Sectors `lo` to `lo + n − 1` of the limb store between the passes (R78). -/
def storeSectors (op : TuOp) (inverse table : Bool) (u : Option Upset) (lo n : Nat) : List (Nat × SectorBits) :=
  (List.range n).map (fun k => (lo + k, sectorOf (fun c => res (storeWord op inverse table (u.getD {}) (lo + k) c))))

/-- What a transform leaves in the limb store and the tile in a cycle (R73, R78): the source rows of a forward one as they come, each block of the tile,
of an inverse one each block of the limb store through the twiddle stage, and the results of pass 1. -/
def Tu.progress (tu : Tu) (op : TuOp) (inverse table : Bool) (pipe : Nat) : Tu :=
  let M := sectorsOf op.logN
  let came := if inverse then [] else (rowsFrom (8 * (pipe - op.issued - 6)) 8).filter (fun r => decide (r < M) && decide (op.issued + 6 + r / 8 = pipe))
  let tiles := (List.range op.blocks).filter (fun b => op.planeFull inverse table b == pipe)
  let stores := if inverse then (List.range op.blocks).filter (fun b => op.planeFull true table b + 24 == pipe) else []
  let store := Store.writeAll (fun _ => 0) tu.store (came.map (fun r => (r, op.fetch.seen (op.src + r))) ++
    stores.flatMap (fun b => storeSectors op true table op.upset (128 * b) (min M 128)))
  { tu with
    store := if op.storeFull inverse table = pipe then storeAfter op inverse table op.upset else store
    planes := Store.writeAll (fun _ => 0) tu.planes (tiles.flatMap (planeBlock op inverse table op.upset)) }

/-- The negation of R84: the residue is reduced first. -/
def negRes (q : Nat) (x : Residue) : Residue := res ((q - x.toNat % q) % q)

/-- Destination position p of an automorphism by g (R84). -/
def autoAt (op : TuOp) (g : Nat) (nttDomain : Bool) (p : Nat) : Residue :=
  let N := 2 ^ op.logN
  if nttDomain then op.fetch.at op.src ((g * (2 * p + 1) % (2 * N) - 1) / 2)
  else
    let i := (invMod (2 * N) g).getD 0 * p % (2 * N)
    if i < N then op.fetch.at op.src i else negRes op.q (op.fetch.at op.src (i - N))

/-- Entry k of the index tensor (R87). -/
def permEntry (op : TuOp) (k : Nat) : Nat := (op.fetch.at op.aux k).toNat

/-- Whether an index entry is legal (R88). -/
def permEntryOk (logN e : Nat) : Bool := decide (field e 0 17 < 2 ^ logN) && field e 17 18 == 0

/-- Destination position k of a permutation (R87). -/
def permAt (op : TuOp) (k : Nat) : Residue :=
  let e := permEntry op k
  let x := op.fetch.at op.src (field e 0 17)
  if field e 35 1 = 1 then negRes op.q x else x

/-- Position p of destination row `c` of the operation. -/
def tuOut (op : TuOp) (u : Option Upset) (c p : Nat) : Residue :=
  match op.kind with
  | .transform inverse table => transformAt op inverse table u (128 * c + p)
  | .auto g d => autoAt op g d (128 * c + p)
  | .perm => permAt op (128 * c + p)
  | .txp => lane128 (op.fetch.seen (op.src + p)) c

/-- Destination row c, with an upset inside a transform. -/
def tuRow (op : TuOp) (u : Option Upset) (c : Nat) : Nat × Row :=
  (op.dst + c, { data := sectorOf (fun p => tuOut op u c p), poison := 0 })

def tuRows (op : TuOp) (u : Option Upset) : List (Nat × Row) := (List.range op.regionRows).map (tuRow op u)

/-- What of a fault told now still changes the transform (R82; log 10): an output element whose row has not left, a word of the limb store or of the tile
while no row has left, and the checker's own elements. So the output that the identities judge is what the rows hold. -/
def TuOp.standing (op : TuOp) (u : Upset) : Upset :=
  { outputs := u.outputs.filter (fun p => !op.written.testBit (p.1 / 128))
    store := if op.written = 0 then u.store else [], tile := if op.written = 0 then u.tile else [], a0 := u.a0, ah := u.ah }

/-- Two faults of one transform add up (R82). -/
def upsetBoth (q : Nat) (u v : Upset) : Upset :=
  { outputs := u.outputs ++ v.outputs, store := u.store ++ v.store, tile := u.tile ++ v.tile
    a0 := res ((u.a0.toNat + v.a0.toNat) % q), ah := res ((u.ah.toNat + v.ah.toNat) % q) }

/-- A transform in which a fault is told now (R82). -/
def TuOp.upsetBy (op : TuOp) (u : Option Upset) : TuOp :=
  let v := op.standing (u.getD {})
  if v = {} then op else { op with upset := some (upsetBoth op.q (op.upset.getD {}) v) }

/-- Σ and alternating Σ of the NTT-domain side, and elements 0 and N/2 of the coefficient side (R81). -/
structure InvariantSides where
  sum : Nat
  alt : Nat
  a0 : Nat
  ah : Nat
deriving DecidableEq, Repr

def altSum (q n : Nat) (f : Nat → Nat) : Nat :=
  sumMod q n (fun k => if k % 2 = 0 then f k % q else (q - f k % q) % q)

/-- What the checker sees at the unit's boundary, its single elements after reduction (R81). -/
def invariantSides (op : TuOp) (inverse table : Bool) (u : Option Upset) : InvariantSides :=
  let N := 2 ^ op.logN
  let out := fun i => (transformAt op inverse table u i).toNat
  let ntt := if inverse then transformIn op else out
  let coef := if inverse then out else transformIn op
  { sum := sumMod op.q N ntt, alt := altSum op.q N ntt, a0 := (coef 0 + (u.getD {}).a0.toNat) % op.q
    ah := (coef (N / 2) + (u.getD {}).ah.toNat) % op.q }

/-- Identity I1, in the direction of the transform (R81). -/
def check1Ok (op : TuOp) (inverse : Bool) (s : InvariantSides) : Bool :=
  let N := 2 ^ op.logN
  if inverse then s.a0 == nInv op.q N * s.sum % op.q else s.sum == N * s.a0 % op.q

/-- Identity I2, in the direction of the transform (R81). -/
def check2Ok (op : TuOp) (inverse : Bool) (s : InvariantSides) : Bool :=
  let N := 2 ^ op.logN
  let iota := powMod op.q op.psi (N / 2)
  if inverse then s.ah == nInv op.q N * ((op.q - iota) % op.q) % op.q * s.alt % op.q
  else s.alt == N * iota % op.q * s.ah % op.q

/-- Static latency of a transform (R80): the butterfly and fixed cycles of the table, and N/1024 more under TABLE. -/
def transformLatency (logN : Nat) (table : Bool) : Nat :=
  2 ^ logN * logN / 1024 + 76 + if table then 2 ^ logN / 1024 else 0

/-- Row requests at eight rows a cycle from cycle c. -/
def eightPerCycle (c : Nat) (rows : List Nat) : List (Nat × List Nat) :=
  (chunksOf 8 rows).mapIdx (fun i rs => (c + i, rs))

end Sys2Proof.Machine
end

