-- ==== Sys2Proof/Machine/Matrix.lean ====
section
/-! DEFINITION. What the Narrow Matrix Array computes (R96 to R123): element formats, block values, accumulation, spill, epilogue, chain packets, DSM. -/

namespace Sys2Proof.Machine

/-- Fraction count F and emax of a format (R96). -/
def Fmt.frac : Fmt → Nat
  | .mxfp4 => 1
  | .mxint4 => 2
  | .int2 | .ternary => 0
  | .mxint8 => 6
  | .mxfp8 => 9

def Fmt.emax : Fmt → Int
  | .mxfp4 => 2
  | .mxfp8 => 8
  | _ => 0

/-- The format of an FMT or OFMT code (R299); 6 and 7 are reserved. -/
def Fmt.ofCode (n : Nat) : Option Fmt :=
  match n with
  | 0 => some .mxfp4
  | 1 => some .mxint4
  | 2 => some .int2
  | 3 => some .ternary
  | 4 => some .mxint8
  | 5 => some .mxfp8
  | _ => none

/-- An element code read: integer form, and whether it is NaN or the ternary code 0b10 (R96). -/
structure Elem where
  int : Int
  nan : Bool := false
  tern : Bool := false
deriving DecidableEq, Repr

/-- Sign-magnitude element with `m` mantissa bits: magnitude in units of the smallest step. -/
def fpElem (m code neg : Nat) : Int :=
  let e := code / 2 ^ m
  let f := code % 2 ^ m
  let v : Nat := if e = 0 then f else 2 ^ (e - 1) * (2 ^ m + f)
  if neg = 1 then -(v : Int) else (v : Int)

def Fmt.elem (f : Fmt) (code : Nat) : Elem :=
  match f with
  | .mxfp4 => { int := fpElem 1 (code % 8) (code / 8) }
  | .mxint4 => { int := if code < 8 then code else (code : Int) - 16 }
  | .int2 => { int := if code < 2 then code else (code : Int) - 4 }
  | .ternary => { int := if code = 1 then 1 else if code = 3 then -1 else 0, tern := code == 2 }
  | .mxint8 => { int := if code < 128 then code else (code : Int) - 256 }
  | .mxfp8 => if code % 128 = 127 then { int := 0, nan := true } else { int := fpElem 3 (code % 128) (code / 128) }

/-- Flags of NMA_FLAGS (R127). -/
def nmaSat : Word := 0x01
def nmaOverflow : Word := 0x02
def nmaUnderflow : Word := 0x04
def nmaNan : Word := 0x08
def nmaTern : Word := 0x10
def nmaEncSat : Word := 0x20
def nmaRescaled : Word := 0x40
def nmaAccOverflow : Word := 0x80

def flagIf (c : Bool) (f : Word) : Word := if c then f else 0

/-- A block of a panel (R99): its 32 elements and its scale byte. A pad row reads as zeros (R169). -/
structure Block where
  elems : List Elem
  scale : Nat
deriving DecidableEq, Repr

def panelBlock (f : Fmt) (fetch : Fetches) (pad : Option PadWindow) (first u b : Nat) : Block :=
  let n := b * shapeU f.small + u
  let row := first + n / f.bpr
  let slot := n % f.bpr
  let bits := if pad.any (fun w => w.pads row) then 0 else (fetch.seen row).toNat
  { elems := (List.range 32).map (fun m => f.elem (field bits (slot * 32 * f.bits + m * f.bits) f.bits))
    scale := field bits (8 * (512 + slot)) 8 }

def Block.nan (b : Block) : Bool := b.scale == 255 || b.elems.any (·.nan)
def Block.tern (b : Block) : Bool := b.elems.any (·.tern)

/-- P of R98. -/
def blockP (a b : Block) : Int := ((a.elems.zip b.elems).map (fun p => p.1.int * p.2.int)).sum

/-- The exponent of a block value (R98). -/
def blockExp (f : Fmt) (a b : Block) : Int := (a.scale : Int) + b.scale - 254 - 2 * f.frac

/-- A value with what it raised: bits of an accumulator, flags, saturations counted. -/
structure AccOut where
  acc : Word
  flags : Word := 0
  sats : Nat := 0
deriving DecidableEq, Repr

/-- The events of a rounding in the array (R102). -/
def fpFlags (o : FpOut) : Word :=
  flagIf o.overflow nmaOverflow ||| flagIf o.underflow nmaUnderflow ||| flagIf o.invalid nmaNan

/-- sat of R103. -/
def satInt (x : Int) : Int := if x > 2 ^ 31 - 1 then 2 ^ 31 - 1 else if x < -(2 ^ 31 - 1) then -(2 ^ 31 - 1) else x

/-- One block value added to an accumulator (R102 to R104). -/
def accStep (f : Fmt) (int : Bool) (xr : Int) (o : AccOut) (a b : Block) : AccOut :=
  let tern := flagIf (a.tern || b.tern) nmaTern
  if a.nan || b.nan then
    { acc := if int then o.acc else BitVec.ofNat 32 fp32.nanBits, flags := o.flags ||| tern ||| nmaNan, sats := o.sats }
  else
    let p := blockP a b
    let e := blockExp f a b
    if int then
      let d := e - xr
      let c := if 0 ≤ d then p * 2 ^ d.toNat else rneShiftInt p (-d).toNat
      let s := o.acc.toInt + c
      { acc := BitVec.ofInt 32 (satInt s), flags := o.flags ||| tern ||| flagIf (satInt s ≠ s) nmaSat,
        sats := o.sats + if satInt s ≠ s then 1 else 0 }
    else
      let r := fp32.encode ((fp32.decode o.acc.toNat).add (.num (decide (p < 0)) p.natAbs e))
      { acc := BitVec.ofNat 32 r.bits, flags := o.flags ||| tern ||| fpFlags r,
        sats := o.sats + if r.overflow then 1 else 0 }

/-- Accumulator n of a sparse array. -/
def accAt (acc : Sparse Word) (n : Nat) : Word := Store.read (fun _ => 0) acc n

/-- Reference exponent of block-row r. -/
def Nma.xrOf (m : Nma) (r : Nat) : Int := (m.xr.toList.getD r 0).toInt

/-- Output (i, j) of MMA (R100 to R104). -/
def mmaOut (f : Fmt) (int zero : Bool) (a b nb : Nat) (xr : Int) (pad : Option PadWindow) (fetch : Fetches)
    (old : Sparse Word) (n : Nat) : AccOut :=
  let u := shapeU f.small
  (List.range nb).foldl (fun o s => accStep f int xr o (panelBlock f fetch pad a (n / u) s) (panelBlock f fetch none b (n % u) s))
    { acc := if zero then 0 else accAt old n }

/-- Saturations of a block-row among per-element counts. -/
def satOf (small : Bool) (outs : List AccOut) (r : Nat) : Nat :=
  let per := 32 * shapeU small
  (((outs.drop (r * per)).take per).map (·.sats)).sum

/-- The array after its accumulators take `outs`, in value order. -/
def Nma.takeOuts (m : Nma) (small : Bool) (outs : List AccOut) : Nma :=
  { m with acc := Store.ofFn (fun _ => 0) outs.length (fun n => (outs.map (·.acc)).getD n 0)
           flags := outs.foldl (fun f o => f ||| o.flags) m.flags
           sat := Vector.ofFn (fun r : Fin 9 => satAdd (m.sat[r]) (satOf small outs r)) }

/-- Value n of a wide buffer at `first` (R105). -/
def wideAt (fetch : Fetches) (first n : Nat) : Nat := field (fetch.seen (first + n / 72)).toNat (64 * (n % 72)) 64

def signed64 (x : Nat) : Int := (BitVec.ofNat 64 x).toInt

def sat64 (x : Int) : Int := if x > 2 ^ 63 - 1 then 2 ^ 63 - 1 else if x < -(2 ^ 63 - 1) then -(2 ^ 63 - 1) else x

/-- The wide value that MSPILL writes for an accumulator (R105), with the events of the FP64 sum. -/
def spillValue (int init : Bool) (acc : Word) (buf : Nat) : Nat × FpOut :=
  if int then
    let s := acc.toInt + (if init then 0 else signed64 buf)
    ((BitVec.ofInt 64 (if init then s else sat64 s)).toNat, { bits := 0 })
  else
    let a := fp32.decode acc.toNat
    let r := fp64.encode (if init then a else (fp64.decode buf).add a)
    (r.bits, r)

/-- The accumulator that MRESUME loads from a wide value (R106). -/
def resumeOut (int : Bool) (buf : Nat) : AccOut :=
  if int then
    let s := signed64 buf
    { acc := BitVec.ofInt 32 (satInt s), flags := flagIf (satInt s ≠ s) nmaSat, sats := if satInt s ≠ s then 1 else 0 }
  else
    let r := fp32.encode (fp64.decode buf)
    { acc := BitVec.ofNat 32 r.bits, flags := fpFlags r }

/-- Rows of a wide buffer (R105). -/
def wideRows (small : Bool) : Nat := if small then 288 else 1152

/-- An FP32 value of a vector at row `first`, 144 to a row (R107, R109). -/
def fpVecAt (fetch : Fetches) (first i : Nat) : Nat := field (fetch.seen (first + i / 144)).toNat (32 * (i % 144)) 32

/-- A value of the epilogue with its flags. -/
structure EpiVal where
  bits : Nat
  flags : Word := 0
deriving DecidableEq, Repr

def EpiVal.then (v : EpiVal) (f : Nat → FpOut) : EpiVal :=
  let o := f v.bits
  { bits := o.bits, flags := v.flags ||| fpFlags o }

/-- Step 5 of R107. -/
def activate (act : BitVec 2) (k : BitVec 4) (lo hi : Word) (v : EpiVal) : EpiVal :=
  let x := fp32.decode v.bits
  if act = 0 then v
  else if act = 1 then
    if x.isNan then { bits := fp32.nanBits, flags := v.flags ||| nmaNan }
    else if (Fp.num false 0 0).lt x then v else { v with bits := 0 }
  else if act = 2 then
    if !x.isNan && !x.lt (.num false 0 0) then v
    else v.then (fun b => fp32.encode ((fp32.decode b).mul (.num false 1 (-(k.toNat : Int)))))
  else (v.then (fun b => fMax b lo.toNat)).then (fun b => fMin b hi.toNat)

/-- The epilogue of output element (i, j) up to step 5 (R107). -/
def epiElem (m : Nma) (fetch : Fetches) (merge : Bool) (wide : Nat) (scale bias : Option Nat) (act : BitVec 2) (k : BitVec 4)
    (lo hi : Word) (i j : Nat) : EpiVal :=
  let n := shapeU m.accSmall * i + j
  let src : Fp :=
    if m.accInt then
      let s := (accAt m.acc n).toInt + (if merge then signed64 (wideAt fetch wide n) else 0)
      .num (decide (s < 0)) s.natAbs (m.xrOf (i / 32))
    else
      let a := fp32.decode (accAt m.acc n).toNat
      if merge then (fp64.decode (wideAt fetch wide n)).add a else a
  let o := fp32.encode src
  let v : EpiVal := { bits := o.bits, flags := fpFlags o }
  let v := v.then (fun b => match scale with | some r => fMul b (fpVecAt fetch r i) | none => fMul b 0x3F800000)
  let v := v.then (fun b => match bias with | some r => fAdd b (fpVecAt fetch r i) | none => fAdd b 0)
  activate act k lo hi v

/-- ±∞ taken as ±(largest finite) (R108). -/
def clampInf (bits : Nat) : Nat := if bits = 0x7F800000 then 0x7F7FFFFF else if bits = 0xFF800000 then 0xFF7FFFFF else bits

/-- Exponent of a nonzero finite magnitude m · 2^e: floor(log2). -/
def floorLog2 (m : Nat) (e : Int) : Int := m.log2 + e

/-- A code of a narrow format and whether it was clamped. -/
structure Narrowed where
  code : Nat
  clamped : Bool
deriving DecidableEq, Repr

/-- Rounds ±m·2^e to a two's complement format of w bits with F fraction bits, ties to even (R108). -/
def narrowInt (w F : Nat) (top bottom : Int) (neg : Bool) (m : Nat) (e : Int) : Narrowed :=
  let v := nearestInt neg m (e + F)
  let above := decide (scaleTo false top.natAbs 0 (min (e + F) 0) < scaleTo neg m (e + F) (min (e + F) 0))
  let under := decide (scaleTo neg m (e + F) (min (e + F) 0) < scaleTo true bottom.natAbs 0 (min (e + F) 0))
  let n := if above then top else if under then bottom else v
  { code := (n % 2 ^ w).toNat, clamped := above || under }

/-- Rounds ±m·2^e to a sign-magnitude format: mantissa bits mb, smallest step 2^gmin, largest code (R108). -/
def narrowFp (mb : Nat) (gmin : Int) (maxCode : Nat) (maxM : Nat) (maxE : Int) (signBit : Nat) (neg : Bool) (m : Nat) (e : Int) :
    Narrowed :=
  let above := decide (scaleTo false maxM maxE (min e maxE) < scaleTo false m e (min e maxE))
  let g := if m = 0 then gmin else max (floorLog2 m e - mb) gmin
  let r := if g ≤ e then m * 2 ^ (e - g).toNat else rneShift m (g - e).toNat
  let code := if above then maxCode else (g - gmin).toNat * 2 ^ mb + r
  { code := code + (if neg then signBit else 0), clamped := above }

/-- One element of an output block, x / 2^(E − 127) rounded and clamped (R108). -/
def Fmt.narrow (f : Fmt) (scaleByte bits : Nat) : Narrowed :=
  match fp32.decode bits with
  | .num neg m e =>
    let e := e - ((scaleByte : Int) - 127)
    match f with
    | .mxfp4 => narrowFp 1 (-1) 7 6 0 8 neg m e
    | .mxfp8 => narrowFp 3 (-9) 0x7E 448 0 128 neg m e
    | .mxint4 => narrowInt 4 2 7 (-8) neg m e
    | .int2 => narrowInt 2 0 1 (-2) neg m e
    | .ternary => narrowInt 2 0 1 (-1) neg m e
    | .mxint8 => narrowInt 8 6 127 (-128) neg m e
  | _ => ⟨0, false⟩

/-- An output block: scale byte, codes, flags and saturations per element. -/
structure OutBlock where
  scale : Nat
  codes : List Nat
  flags : Word := 0
  sats : Nat := 0
deriving DecidableEq, Repr

/-- The block of up to 32 consecutive rows of a column (R108); missing elements are written 0. -/
def narrowBlock (f : Fmt) (xs : List Nat) : OutBlock :=
  if xs.any (fun x => (fp32.decode x).isNan) then { scale := 255, codes := List.replicate 32 0, flags := nmaNan }
  else
    let ys := xs.map clampInf
    let exps := ys.filterMap (fun y => match fp32.decode y with | .num _ m e => if m = 0 then none else some (floorLog2 m e) | _ => none)
    match exps with
    | [] => { scale := 0, codes := List.replicate 32 0 }
    | e :: es =>
      let x := es.foldl max e - f.emax
      let E := (max 0 (min 254 (x + 127))).toNat
      let ns := ys.map (fun y => f.narrow E y)
      let sats := (ns.filter (·.clamped)).length
      { scale := E, codes := ns.map (·.code) ++ List.replicate (32 - ns.length) 0
        flags := flagIf (sats ≠ 0) nmaSat, sats := sats }

/-- Output rows of an operation with its flags and the saturations of each block-row. -/
structure RowsOut where
  rows : List (Nat × Row)
  flags : Word := 0
  sats : List Nat := []
deriving DecidableEq, Repr

def plainRow (bits : Nat) : Row := { data := BitVec.ofNat 4608 bits }

/-- A narrow output panel (R99, R108): block (j, b) has linear number b · U + j. -/
def narrowOut (f : Fmt) (small : Bool) (dst : Nat) (x : Nat → Nat → EpiVal) : RowsOut :=
  let u := shapeU small
  let blocks := (List.range (blockRows small * u)).map (fun n =>
    narrowBlock f (((List.range 32).filter (fun m => decide (32 * (n / u) + m < u))).map (fun m => (x (32 * (n / u) + m) (n % u)).bits)))
  let elemFlags := (List.range (u * u)).foldl (fun fl n => fl ||| (x (n / u) (n % u)).flags) 0
  let row := fun (bs : List OutBlock) =>
    packNat (32 * f.bits) (fun s => packNat f.bits (fun m => (bs.getD s ⟨0, [], 0, 0⟩).codes.getD m 0) 32) f.bpr +
      packNat 8 (fun s => (bs.getD s ⟨0, [], 0, 0⟩).scale) f.bpr * 2 ^ 4096
  { rows := (chunksOf f.bpr blocks).mapIdx (fun i bs => (dst + i, plainRow (row bs)))
    flags := blocks.foldl (fun fl b => fl ||| b.flags) elemFlags
    sats := (List.range (blockRows small)).map (fun r => (((blocks.drop (r * u)).take u).map (·.sats)).sum) }

/-- FP32 output: element (i, j) at index U · j + i (R109). -/
def fpOut (small : Bool) (dst : Nat) (x : Nat → Nat → EpiVal) : RowsOut :=
  let u := shapeU small
  let v := fun n => x (n % u) (n / u)
  let word := fun n => if n < u * u then (if (fp32.decode (v n).bits).isNan then fp32.nanBits else (v n).bits) else 0
  { rows := (List.range ((u * u + 143) / 144)).map (fun r => (dst + r, plainRow (packNat 32 (fun k => word (144 * r + k)) 144)))
    flags := (List.range (u * u)).foldl (fun fl n =>
      fl ||| (v n).flags ||| flagIf ((fp32.decode (v n).bits).isNan) nmaNan) 0 }

/-- One ENCODE value (R110): the residue and its flags. -/
def encodeElem (delta q bits : Nat) : Nat × Word :=
  let lim : Int := 2 ^ 62 - 1
  match fp32.decode bits with
  | .nan => (0, nmaNan)
  | .inf neg => (((if neg then -lim else lim) % (q : Int)).toNat, nmaEncSat)
  | .num neg m e =>
    let r := nearestInt neg m (e + delta)
    let c := if r > lim then lim else if r < -lim then -lim else r
    ((c % (q : Int)).toNat, flagIf (c ≠ r) nmaEncSat)

/-- ENCODE output: element (i, j) at index U · j + i, 128 to a row (R110). -/
def encodeOut (small : Bool) (dst delta q : Nat) (x : Nat → Nat → EpiVal) : RowsOut :=
  let u := shapeU small
  let v := fun n => x (n % u) (n / u)
  { rows := (List.range ((u * u + 127) / 128)).map (fun r =>
      (dst + r, { data := sectorOf (fun p => if 128 * r + p < u * u then res (encodeElem delta q (v (128 * r + p)).bits).1 else 0) }))
    flags := (List.range (u * u)).foldl (fun fl n => fl ||| (v n).flags ||| (encodeElem delta q (v n).bits).2) 0 }

/-- Rows that MEPI writes (R108 to R110). -/
def epiRows (out : BitVec 2) (f : Fmt) (small : Bool) : Nat :=
  let u := shapeU small
  if out = 0 then (blockRows small * u + f.bpr - 1) / f.bpr
  else if out = 1 then (u * u + 143) / 144
  else (u * u + 127) / 128

/-- The rows of a chain packet's values (R116): block-rows i0 to i0 + nbr − 1, 144 values a row. -/
def chainValues (small : Bool) (i0 nbr : Nat) : Nat × Nat :=
  let u := shapeU small
  (i0 * 32 * u, min (u * u) ((i0 + nbr) * 32 * u) - i0 * 32 * u)

/-- The header sector (R117). -/
def ChainHeader.sector (h : ChainHeader) : SectorBits :=
  BitVec.ofNat 4608 (0x4E484343 + h.chainId.toNat * 2 ^ 32 +
    (h.int.toNat + 2 * h.small.toNat + 4 * h.rescaled.toNat + 8 * h.overflow.toNat) * 2 ^ 64 +
    h.esc.toNat * 2 ^ 72 + h.i0.toNat * 2 ^ 80 + h.nbr.toNat * 2 ^ 88 + h.xr.toNat * 2 ^ 96 + h.hops.toNat * 2 ^ 112)

/-- The header of a packet, when MAGIC is correct and every reserved bit is 0 (R118). -/
def chainHeader? (d : SectorBits) : Option ChainHeader :=
  let x := d.toNat
  if field x 0 32 = 0x4E484343 ∧ field x 68 4 = 0 ∧ x >>> 120 = 0 then
    some { chainId := BitVec.ofNat 32 (field x 32 32), int := field x 64 1 == 1, small := field x 65 1 == 1,
           rescaled := field x 66 1 == 1, overflow := field x 67 1 == 1, esc := BitVec.ofNat 8 (field x 72 8),
           i0 := BitVec.ofNat 8 (field x 80 8), nbr := BitVec.ofNat 8 (field x 88 8), xr := BitVec.ofNat 16 (field x 96 16),
           hops := BitVec.ofNat 8 (field x 112 8) }
  else none

/-- Largest reference exponent of block-rows i0 to i0 + nbr − 1. -/
def Nma.maxXr (m : Nma) (i0 nbr : Nat) : Int :=
  ((List.range nbr).map (fun n => m.xrOf (i0 + n))).foldl max (m.xrOf i0)

/-- The packet that MCHS sends (R116, R304). R304 gives XR in INT32 mode; in FP32 mode the header holds 0 there (DESIGN CHOICE, log 88). -/
def chainPacketRows (m : Nma) (first : Bool) (chain : Word) (i0 nbr : Nat) : List SectorBits :=
  let hdr : ChainHeader :=
    if first then
      { chainId := chain, int := m.accInt, small := m.accSmall, i0 := BitVec.ofNat 8 i0, nbr := BitVec.ofNat 8 nbr
        xr := if m.accInt then BitVec.ofInt 16 (m.maxXr i0 nbr) else 0 }
    else m.lastHeader.getD {}
  let u := shapeU m.accSmall
  let (start, count) := chainValues m.accSmall i0 nbr
  let val := fun k =>
    let n := start + k
    if k < count then
      (if first && m.accInt then
        (BitVec.ofInt 32 (rneShiftInt (accAt m.acc n).toInt (m.maxXr i0 nbr - m.xrOf (n / (32 * u))).toNat)).toNat
      else (accAt m.acc n).toNat)
    else 0
  hdr.sector :: (List.range ((count + 143) / 144)).map (fun r => BitVec.ofNat 4608 (packNat 32 (fun k => val (144 * r + k)) 144))

/-- Whether MCHR accepts the header (R118). -/
def chainOk (m : Nma) (h : ChainHeader) (chain : Word) (i0 nbr : Nat) : Bool :=
  h.chainId == chain && h.i0.toNat == i0 && h.nbr.toNat == nbr && h.int == m.accInt && h.small == m.accSmall

/-- The array after a packet is added (R118), and whether its sum saturated. -/
def chainAdd (m : Nma) (h : ChainHeader) (fetch : Fetches) (row i0 nbr : Nat) : Nma × Bool :=
  let u := shapeU m.accSmall
  let (start, count) := chainValues m.accSmall i0 nbr
  let inp := fun n => BitVec.ofNat 32 (field (fetch.seen (row + 1 + (n - start) / 144)).toNat (32 * ((n - start) % 144)) 32)
  let inside := fun n => decide (start ≤ n) && decide (n < start + count)
  if !m.accInt then
    let outs := (List.range (u * u)).map (fun n =>
      if inside n then
        let r := fAdd (inp n).toNat (accAt m.acc n).toNat
        { acc := BitVec.ofNat 32 r.bits, flags := fpFlags r, sats := if r.overflow then 1 else 0 : AccOut }
      else { acc := accAt m.acc n })
    ({ m.takeOuts m.accSmall outs with lastHeader := some { h with hops := h.hops + 1 } }, false)
  else
    let xr := max h.xr.toInt (m.maxXr i0 nbr)
    let sum := fun n => rneShiftInt (inp n).toInt (xr - h.xr.toInt).toNat +
      rneShiftInt (accAt m.acc n).toInt (xr - m.xrOf (n / (32 * u))).toNat
    let big := (List.range count).any (fun k => decide ((sum (start + k)).natAbs > 2 ^ 31 - 1))
    let esc := big && decide (h.esc.toNat < 4)
    let sat := big && !esc
    let xr' := if esc then xr + 4 else xr
    let val := fun n => if esc then rneShiftInt (sum n) 4 else if sat then satInt (sum n) else sum n
    let h' : ChainHeader := { h with esc := if esc then h.esc + 1 else h.esc, rescaled := h.rescaled || esc
                                     overflow := h.overflow || sat, xr := BitVec.ofInt 16 xr', hops := h.hops + 1 }
    ({ m with acc := Store.ofFn (fun _ => 0) (u * u) (fun n => if inside n then BitVec.ofInt 32 (val n) else accAt m.acc n)
              xr := Vector.ofFn (fun r : Fin 9 => if i0 ≤ r ∧ r.val < i0 + nbr then BitVec.ofInt 16 xr' else m.xr[r])
              flags := m.flags ||| flagIf esc nmaRescaled ||| flagIf sat nmaAccOverflow
              lastHeader := some h' }, sat)

/-- Rows of the packet after its header (R116). -/
def chainRows (small : Bool) (i0 nbr : Nat) : Nat := ((chainValues small i0 nbr).2 + 143) / 144

/-- Result of a DSM supercell (R121): the exact sum of K products, reduced. -/
def dsmOut (d : DsmOp) (g u : Nat) : Residue :=
  let q := d.qs.getD g 1
  let a := fun k => if d.dot then lane128 (d.fetch.seen (d.rowsA.getD (8 * k + g) 0)) u else lane128 (d.fetch.seen (d.rowsA.getD k 0)) u
  let b := fun k => if d.dot then lane128 (d.fetch.seen (d.rowsB.getD (8 * k + g) 0)) u else lane128 (d.fetch.seen (d.rowsB.getD k 0)) g
  res (((List.range d.k).map (fun k => (a k).toNat * (b k).toNat)).sum % q)

/-- The eight destination rows of a DSM operation (R122, R123). -/
def dsmRows (d : DsmOp) : List (Nat × Row) :=
  (List.range 8).map (fun g => (d.dst + g, { data := sectorOf (fun u => dsmOut d g u) }))

/-- The epilogue's output rows (R107 to R110). -/
def epilogueOut (m : Nma) (fetch : Fetches) (out : BitVec 2) (f : Fmt) (merge : Bool) (dst wide : Nat) (scale bias : Option Nat)
    (act : BitVec 2) (k : BitVec 4) (lo hi : Word) (delta q : Nat) : RowsOut :=
  let x := epiElem m fetch merge wide scale bias act k lo hi
  if out = 0 then narrowOut f m.accSmall dst x
  else if out = 1 then fpOut m.accSmall dst x
  else encodeOut m.accSmall dst delta q x

/-- The wide buffer rows that MSPILL writes (R105). Its FP64 sums set FP_OVERFLOW, FP_UNDERFLOW and NAN_IN as FP32 events do: R127 names those
alone (DESIGN CHOICE, log 79). -/
def spillOut (m : Nma) (fetch : Fetches) (init : Bool) (wide : Nat) : RowsOut :=
  let u := shapeU m.accSmall
  let v := fun n => spillValue m.accInt init (accAt m.acc n) (wideAt fetch wide n)
  { rows := (List.range (wideRows m.accSmall)).map (fun r => (wide + r, plainRow (packNat 64 (fun k => (v (72 * r + k)).1) 72)))
    flags := (List.range (u * u)).foldl (fun fl n => fl ||| fpFlags (v n).2) 0 }

/-- The XR of every block-row of a shape set to one value (R101, R106). -/
def setXr (xr : Vector (BitVec 16) 9) (small : Bool) (x : BitVec 16) : Vector (BitVec 16) 9 :=
  Vector.ofFn (fun r : Fin 9 => if r.val < blockRows small then x else xr[r])

/-- An MMA or MRESUME that sets the accumulators' mode, shape and reference exponents does so as it issues (R101, R106; log 19). -/
def Nma.begin (m : Nma) (k : NmaKind) : Nma :=
  match k with
  | .mma f int true _ _ _ xr _ _ => { m with accInt := int, accSmall := f.small, xr := if int then setXr m.xr f.small xr else m.xr }
  | .resume int small _ xr => { m with accInt := int, accSmall := small, xr := if int then setXr m.xr small xr else m.xr }
  | _ => m

end Sys2Proof.Machine
end

