-- ==== Sys2Proof/Machine/Rows.lean ====
section
/-! DEFINITION. Rows as the engine port sees them (R132), and the rows of a unit's result, written cycle by cycle (R80, R89, R95; log 10). -/

namespace Sys2Proof.Machine

/-- The rows that an NMA operation other than DSM writes. -/
def NmaOp.rowsOut (m : Nma) (op : NmaOp) : RowsOut :=
  match op.kind with
  | .spill init wide => spillOut m op.fetch init wide
  | .epilogue out f merge dst wide sc bi act k lo hi delta q => epilogueOut m op.fetch out f merge dst wide sc bi act k lo hi delta q
  | _ => { rows := [] }

/-- How many rows an NMA operation other than DSM writes. -/
def NmaOp.rowCount (m : Nma) (op : NmaOp) : Nat :=
  match op.kind with
  | .spill _ _ => wideRows m.accSmall
  | .epilogue out f _ _ _ _ _ _ _ _ _ _ _ => epiRows out f m.accSmall
  | _ => 0

/-- The next eight of n destination rows that are not written, in ascending order (R89, R298). -/
def nextEight (n written : Nat) : List Nat := ((List.range n).filter (fun r => !written.testBit r)).take 8

/-- The first rows of a list that lie in banks of their own, which one cycle can serve (R131). -/
def ownBanks : (seen : List Nat) → List Nat → List Nat
  | _, [] => []
  | seen, r :: rs => if seen.contains (bankOf r) then [] else r :: ownBanks (bankOf r :: seen) rs

/-- Rows in order, cut into runs that one cycle each can serve: the rows of a run lie in banks of their own (R131). -/
def bankRuns : (run : List Nat) → List Nat → List (List Nat)
  | run, [] => if run.isEmpty then [] else [run]
  | run, r :: rs => if run.any (fun k => bankOf k == bankOf r) then run :: bankRuns [r] rs else bankRuns (run ++ [r]) rs

/-- Row requests in runs of one cycle each, from cycle c on (R131; log 10). -/
def runsFrom (c : Nat) (rows : List Nat) : List (Nat × List Nat) := (bankRuns [] rows).mapIdx (fun i rs => (c + i, rs))

/-- Of rows in order those of which no more than `width` lie in a bank. -/
def perBank (width : Nat) (bank : Nat → Nat) : (taken : List Nat) → List Nat → List Nat
  | _, [] => []
  | taken, r :: rs =>
    if decide ((taken.filter (· == bank r)).length < width) then r :: perBank width bank (bank r :: taken) rs else perBank width bank taken rs

/-- Which of n result rows a unit writes in a cycle, where the spec fixes no cycle for a row: of the unwritten ones that are ready, those the free value
names and those of a bank that the `left` cycles after this one could not serve, at most `width` in a bank (R131; log 10). -/
def chunkOut (bits width left n written : Nat) (ready : Nat → Bool) (bank : Nat → Nat) : List Nat :=
  let rest := (List.range n).filter (fun r => !written.testBit r)
  let late := (List.range 32).map (fun b => decide (width * left < (rest.filter (fun r => bank r == b)).length))
  perBank width bank [] (rest.filter (fun r => ready r && (bits.testBit r || late.getD (bank r) true)))

/-- The first destination row of an NMA operation other than DSM, and the rows that it writes in one bank and cycle (R131): one, but an epilogue that
merges a wide buffer of 1,152 rows needs two to end with its latency (log 10). -/
def NmaOp.firstRow (op : NmaOp) : Nat :=
  match op.kind with
  | .spill _ wide => wide
  | .epilogue _ _ _ dst _ _ _ _ _ _ _ _ _ => dst
  | _ => 0
def NmaOp.width (m : Nma) (op : NmaOp) : Nat :=
  match op.kind with
  | .epilogue _ _ merge _ _ _ _ _ _ _ _ _ _ => if merge && !m.accSmall then 2 else 1
  | _ => 1

def setBits (w : Nat) (rs : List Nat) : Nat := rs.foldl (fun w r => w ||| 2 ^ r) w

/-- A row of the wall cycle's writes as it stood before them (R131). -/
def Tile.keepOld (t : Tile) (r : Nat) : Tile :=
  if t.before.any (fun p => p.1 == r) then t else { t with before := (r, t.rowAt r, t.ceRows.contains r) :: t.before }

/-- Rows written through a port in the wall cycle of `slotWall`: until its end a port reads what they held before (R131). -/
def Tile.portWrite (t : Tile) (rs : List (Nat × Row)) : Tile := (rs.foldl (fun t p => t.keepOld p.1) t).storeRows rs

/-- Rows written through the engine port take their banks' write slots (R131). -/
def Tile.engineWrite (t : Tile) (rs : List (Nat × Row)) : Tile :=
  { t.portWrite rs with slotWrites := t.slotWrites ++ rs.map (fun p => bankOf p.1) }

/-- What a row held as wall cycle `wall` began, and whether an error of it stood corrected: a bank serves its read before its write (R131). -/
def Tile.bankRow (t : Tile) (wall r : Nat) : Row × Bool :=
  match (if t.slotWall = wall then t.before.find? (fun p => p.1 == r) else none) with
  | some p => p.2
  | none => (t.rowAt r, t.ceRows.contains r)

/-- Whether row r has been written in wall cycle `wall`. -/
def Tile.writtenIn (t : Tile) (wall r : Nat) : Bool := decide (t.slotWall = wall) && t.before.any (fun p => p.1 == r)

/-- What an engine read of row r gets: what the bank holds at the start of the cycle (R132, R134). -/
def Tile.fetchRow (t : Tile) (r : Nat) : Row := t.rowAt r

/-- Rows requested in this cycle, to be delivered six cycles later (R132). -/
def Tile.request (t : Tile) (ctx : IssueCtx) (slot : Slot) (reader : Reader) (rows : List Nat) : Tile :=
  { t with
    reads := t.reads ++ rows.map (fun r =>
      { due := ctx.pipe + 6, seq := t.seq, bundle := ctx.bundle, slot := slot, reader := reader, row := r,
        poisoned := (t.fetchRow r).poison != 0, corrected := t.ceRows.contains r }) }

/-- The check of R187 on rows read in this cycle. -/
def needFull (t : Tile) (rows : List Nat) : Except IssueStop Unit :=
  need (!rows.any t.ringStarved) .keyStreamUnderrun

/-- The check of R187 on rows that an engine writes. -/
def needNoRing (t : Tile) (rows : List Nat) : Except IssueStop Unit :=
  need (!rows.any t.ringHolds) .operandRange

end Sys2Proof.Machine
end

