-- ==== Sys2Proof/Machine/Headers.lean ====
section
/-! DEFINITION. Ciphertext headers (02 R33 to R49): layout, well-formedness, the checks of R42 and the result headers of HOP (12 R291 to R294). -/

namespace Sys2Proof.Machine

def headerMagic : Word := 0x31485443

/-- The header in the 512 bits of bytes 0 to 63, when its reserved bits are 0 (R33). -/
def parseHeader (x : Nat) : Option Header :=
  if field x 112 16 = 0 ∧ field x 173 3 = 0 ∧ field x 200 56 = 0 then
    some { magic := BitVec.ofNat 32 (field x 0 32), scheme := BitVec.ofNat 8 (field x 32 8), logN := BitVec.ofNat 8 (field x 40 8)
           level := BitVec.ofNat 8 (field x 48 8), maxLevel := BitVec.ofNat 8 (field x 56 8)
           keyset := BitVec.ofNat 32 (field x 64 32), scale := BitVec.ofNat 16 (field x 96 16)
           slots := BitVec.ofNat 32 (field x 128 32), limbBase := BitVec.ofNat 8 (field x 160 8)
           domain := field x 168 1 == 1, layout := field x 169 1 == 1, valid := field x 170 1 == 1
           poison := field x 171 1 == 1, seeded := field x 172 1 == 1
           generation := BitVec.ofNat 16 (field x 176 16), polys := BitVec.ofNat 8 (field x 192 8)
           seed := BitVec.ofNat 256 (field x 256 256) }
  else none

/-- The 512 bits of a header (R33). -/
def Header.bits (h : Header) : Nat :=
  h.magic.toNat + h.scheme.toNat * 2 ^ 32 + h.logN.toNat * 2 ^ 40 + h.level.toNat * 2 ^ 48 + h.maxLevel.toNat * 2 ^ 56 +
  h.keyset.toNat * 2 ^ 64 + h.scale.toNat * 2 ^ 96 + h.slots.toNat * 2 ^ 128 + h.limbBase.toNat * 2 ^ 160 +
  (h.domain.toNat + 2 * h.layout.toNat + 4 * h.valid.toNat + 8 * h.poison.toNat + 16 * h.seeded.toNat) * 2 ^ 168 +
  h.generation.toNat * 2 ^ 176 + h.polys.toNat * 2 ^ 192 + h.seed.toNat * 2 ^ 256

def isPow2 (x : Nat) : Bool := x != 0 && x == 2 ^ x.log2

def isCkks (scheme : Byte) : Bool := scheme == 1

/-- The first list of R34. -/
def Header.wellFormed (h : Header) : Bool :=
  h.magic == headerMagic &&
  (h.scheme == 1 || h.scheme == 2 || h.scheme == 3) &&
  decide (12 ≤ h.logN.toNat) && decide (h.logN.toNat ≤ 17) &&
  decide (h.level.toNat ≤ h.maxLevel.toNat) &&
  (isCkks h.scheme || h.scale == 0) &&
  isPow2 h.slots.toNat && decide (h.slots.toNat ≤ 2 ^ h.logN.toNat / (if isCkks h.scheme then 2 else 1)) &&
  decide (1 ≤ h.polys.toNat) && decide (h.polys.toNat ≤ 3) &&
  (!h.seeded || (h.polys == 2 && !h.domain && decide (h.limbBase.toNat < 64))) &&
  (h.seeded || h.seed == 0)

/-- The conditions of R34 that need the modulus context. -/
def Header.fitsContext (h : Header) (m : ModTable) : Bool :=
  if h.limbBase.toNat < 64 then decide (h.limbBase.toNat + h.maxLevel.toNat + 1 ≤ m.limbs.length)
  else decide (h.limbBase.toNat + h.level.toNat ≤ 63 + m.specials.length)

/-- The installed modulus context of a key-set ID (R28). -/
def Tile.contextOf (t : Tile) (keyset : Word) : Option ModTable :=
  t.mctx.toList.findSome? (fun c => c.bind (fun m => if m.keyset = keyset then some m else none))

/-- Well formed, with the conditions of the context where it is installed (R34): what HLD checks in the delivery cycle (R291). -/
def Tile.headerOk (t : Tile) (h : Header) : Bool :=
  h.wellFormed && (match t.contextOf h.keyset with | some m => h.fitsContext m | none => true)

/-- Check 1 of R42 on a source; `seeded` is what the operation requires of SEEDED (R35). The conditions that need the modulus
context wait for check 3 (R291). -/
def Header.sourceOk (h : Header) (seeded : Bool) : Bool := h.wellFormed && h.valid && h.seeded == seeded

/-- Check 3 of R42 on a source: its modulus context is installed, and the conditions of R34 that need it hold (R291); the context is
the answer. -/
def Tile.contextCheck (t : Tile) (h : Header) : Except IssueStop ModTable :=
  match t.contextOf h.keyset with
  | none => .error ⟨.keyMismatch, none⟩
  | some m => if h.fitsContext m then .ok m else .error ⟨.headerInvalid, none⟩

/-- The HOP classes (R292). -/
inductive HopClass
  | addsub | mulcc | mulpt | relin | rotate | fntt | intt | transpose | rescale | mulrescale | modswitch | drop | modraise
  | ksext | invalidate
deriving DecidableEq, Repr

def HopClass.isLevel : HopClass → Bool
  | .rescale | .mulrescale | .modswitch | .drop | .modraise => true
  | _ => false

/-- The DOMAIN a class requires (R39, R43; NTT for the fused multiply, log 20). -/
def HopClass.domain : HopClass → Option Bool
  | .mulcc | .mulpt | .relin | .intt | .mulrescale => some true
  | .fntt | .modraise => some false
  | _ => none

/-- Operand fields of HOP below its class: HD, HA, HB, BIN, SX, IMM (R286). -/
def hopHD (w : BitVec 22) : BitVec 3 := w.extractLsb' 19 3
def hopHA (w : BitVec 22) : BitVec 3 := w.extractLsb' 16 3
def hopHB (w : BitVec 22) : BitVec 3 := w.extractLsb' 13 3
def hopBin (w : BitVec 22) : Bool := w.getLsbD 12
def hopSX (w : BitVec 22) : BitVec 4 := w.extractLsb' 8 4
def hopImm (w : BitVec 22) : BitVec 8 := w.extractLsb' 0 8

/-- Whether SX has a use (R292). -/
def hopUsesSX (c : HopClass) (w : BitVec 22) : Bool :=
  match c with
  | .mulpt => !hopBin w
  | .ksext => true
  | _ => false

/-- Bits that the class and BIN leave unused (R274, R292). -/
def hopUnused (c : HopClass) (w : BitVec 22) : BitVec 22 :=
  (if hopBin w then 0 else 0xE000) ||| (if hopUsesSX c w then 0 else 0xF00) |||
  (match c with | .drop | .ksext => 0xC0 | _ => 0xFF)

/-- BIN values that the class allows (R292). -/
def hopBinOk (c : HopClass) (w : BitVec 22) : Bool :=
  match c with
  | .addsub | .mulpt => true
  | .mulcc | .mulrescale => hopBin w
  | _ => !hopBin w

def sameRepresentation (a b : Header) : Bool :=
  a.scheme == b.scheme && a.logN == b.logN && a.limbBase == b.limbBase && a.level == b.level && a.domain == b.domain &&
  a.layout == b.layout

/-- KSEXT's own checks (R294). -/
def ksextOk (imm : BitVec 8) (g : Nat) (h : Header) : Bool :=
  let N := 2 ^ h.logN.toNat
  let kind := field imm.toNat 4 2
  (kind == 1 && g == 1 && h.polys == 3) ||
  (kind == 2 && g % 2 == 1 && decide (3 ≤ g) && decide (g ≤ 2 * N - 3) && h.polys == 2) ||
  (kind == 3 && g == 2 * N - 1 && h.polys == 2)

/-- Check 9 of R42: POLYS, scheme, and no special basis under a level operation. -/
def hopAccepts (c : HopClass) (imm : BitVec 8) (sx : Nat) (a : Header) (b : Option Header) : Bool :=
  (!c.isLevel || decide (a.limbBase.toNat < 64)) &&
  match c, b with
  | .mulcc, some b => a.polys == 2 && b.polys == 2
  | .mulpt, some b => b.polys == 1
  | .mulrescale, some b => isCkks a.scheme && ((a.polys == 2 && b.polys == 2) || b.polys == 1)
  | .relin, _ => a.polys == 3
  | .rotate, _ => a.polys == 2
  | .rescale, _ => isCkks a.scheme
  | .modswitch, _ => !isCkks a.scheme
  | .ksext, _ => ksextOk imm (field sx 0 18) a
  | _, _ => true

/-- LOG2Q of the limb that a rescale drops (R39). -/
def droppedLog (m : ModTable) (a : Header) : Nat :=
  match m.entry? (a.limbBase.toNat + a.level.toNat) with | some e => log2Q e.q | none => 0

/-- The SCALE that the class computes for CKKS, before check 11 (R39, R43). -/
def hopScale (c : HopClass) (sx : Nat) (m : ModTable) (a : Header) (b : Option Header) : Int :=
  let sa : Int := a.scale.toNat
  let sb : Int := match b with | some b => b.scale.toNat | none => field sx 0 16
  match c with
  | .mulcc | .mulpt => sa + sb
  | .rescale => sa - droppedLog m a
  | .mulrescale => sa + sb - droppedLog m a
  | _ => sa

/-- The result header (R36, R39, R43, R44, R46). -/
def hopResult (c : HopClass) (imm : BitVec 8) (sx : Nat) (m : ModTable) (a : Header) (b : Option Header) : Header :=
  let k := BitVec.ofNat 8 (field imm.toNat 0 6)
  { a with
    generation := a.generation + 1, valid := true
    poison := a.poison || (match b with | some b => b.poison | none => false)
    scale := if isCkks a.scheme then BitVec.ofNat 16 (hopScale c sx m a b).toNat else 0
    level := match c with
      | .rescale | .mulrescale | .modswitch => a.level - 1
      | .drop => a.level - k
      | .modraise => a.maxLevel
      | _ => a.level
    domain := match c with | .fntt => true | .intt => false | _ => a.domain
    layout := match c with | .transpose => !a.layout | _ => a.layout
    polys := match c, b with
      | .addsub, some b => if a.polys.toNat < b.polys.toNat then b.polys else a.polys
      | .mulcc, _ => 3
      | .mulrescale, some b => if b.polys = 2 then 3 else a.polys
      | .relin, _ => 2
      | _, _ => a.polys }

/-- The level precondition, check 10 (R39, R40). -/
def levelCheck (c : HopClass) (imm : BitVec 8) (a : Header) : Except IssueStop Unit :=
  match c with
  | .rescale | .mulrescale | .modswitch => need (decide (1 ≤ a.level.toNat)) .levelExhausted
  | .drop => need (decide (field imm.toNat 0 6 ≤ a.level.toNat)) .levelExhausted
  | .modraise => need (a.level == 0) .operandRange
  | _ => .ok ()

/-- Checks 1 to 11 of R42 in order, for every class but INVALIDATE. It answers the first source's context. Within check 3 the first source's context is
judged whole before whether the second's KEYSET_ID names one (DESIGN CHOICE, log 88: R42 and R291 do not order the two). Of a poisoned source beside one
that fails check 1, R42's order decides: HEADER_INVALID (DESIGN CHOICE, log 89: R49 speaks of the poisoned source alone). -/
def hopChecks (ctx : IssueCtx) (t : Tile) (c : HopClass) (imm : BitVec 8) (sx : Nat) (a : Header) (b : Option Header) :
    Except IssueStop ModTable := do
  need (a.sourceOk false && (match b with | some b => b.sourceOk false | none => true)) .headerInvalid
  need (!(ctx.poisonHalt && (a.poison || (match b with | some b => b.poison | none => false)))) .poisonRead
  let m ← t.contextCheck a
  match b with
  | some b => do let _ ← t.contextCheck b
  | none => .ok ()
  need (match b with | some b => a.keyset == b.keyset | none => true) .keyMismatch
  need (a.logN == m.logN && a.scheme == m.scheme && (match b with | some b => b.logN == m.logN && b.scheme == m.scheme | none => true))
    .modulusMismatch
  need (match b with | some b => sameRepresentation a b | none => true) .modulusMismatch
  need ((match c.domain with | some d => a.domain == d | none => true) && (c != .rotate || !a.layout)) .modulusMismatch
  need (match c, b with | .addsub, some b => !isCkks a.scheme || a.scale == b.scale | _, _ => true) .scaleMismatch
  need (hopAccepts c imm sx a b) .operandRange
  levelCheck c imm a
  need (!isCkks a.scheme || (decide (0 ≤ hopScale c sx m a b) && decide (hopScale c sx m a b ≤ 0xFFFF))) .operandRange
  pure m

/-- HOP of a class other than INVALIDATE (R292 to R294). -/
def issueHop (c : HopClass) (ctx : IssueCtx) (w : BitVec 22) (t : Tile) : Issue := do
  reservedZero w (hopUnused c w)
  hazardFree ctx t ([.h (hopHA w)] ++ (if hopBin w then [.h (hopHB w)] else []) ++ if hopUsesSX c w then [.s (hopSX w)] else [])
  need (hopBinOk c w) .operandRange
  need (!(c == .drop && field (hopImm w).toNat 0 6 == 0)) .operandRange
  let a := (t.hreg (hopHA w)).hdr
  let b := if hopBin w then some (t.hreg (hopHB w)).hdr else none
  let sx := (t.sreg (hopSX w)).toNat
  let m ← hopChecks ctx t c (hopImm w) sx a b
  let tag : Tag := if c = .ksext then
      { kind := BitVec.ofNat 4 (field (hopImm w).toNat 4 2), galois := BitVec.ofNat 18 sx, digit := BitVec.ofNat 4 (hopImm w).toNat }
    else {}
  let t := { t with named := t.named ||| BitVec.ofNat 8 (2 ^ (hopHD w).toNat) }
  pure (t.launch ctx 4 [.hop (hopHD w) (hopResult c (hopImm w) sx m a b) (some tag)])

/-- HOP INVALIDATE: well-formedness only, the first list of R34; the result keeps SEEDED and SEED and has VALID = 0 (R293). -/
def issueInvalidate (ctx : IssueCtx) (w : BitVec 22) (t : Tile) : Issue := do
  reservedZero w (hopUnused .invalidate w)
  hazardFree ctx t [.h (hopHA w)]
  need (hopBinOk .invalidate w) .operandRange
  let a := (t.hreg (hopHA w)).hdr
  need a.wellFormed .headerInvalid
  let t := { t with named := t.named ||| BitVec.ofNat 8 (2 ^ (hopHD w).toNat) }
  pure (t.launch ctx 4 [.hop (hopHD w) { a with valid := false, generation := a.generation + 1 } (some {})])

/-- Row of HLD and HST: A[AR] + OFF (R275, R291). -/
def shRow (t : Tile) (w : BitVec 26) : Nat := (t.areg (f4 w 19)).toNat + (w.extractLsb' 4 15).toNat

/-- HLD (R291). The header is taken at issue from the bank; a header that is not well formed halts at delivery. -/
def issueHld (ctx : IssueCtx) (w : BitVec 26) (t : Tile) : Issue := do
  reservedZero w 0xF
  hazardFree ctx t [.a (f4 w 19)]
  let row := shRow t w
  needRows t [row]
  need (slotsFree t ctx.pipe [row] []) .operandRange
  needFull t [row]
  let t1 ← claim ctx [row] [] t
  let hdr := parseHeader ((t.fetchRow row).seen.toNat % 2 ^ 512)
  let ok := match hdr with | some h => t.headerOk h | none => false
  let t2 := { t1.request ctx .s (.header (!ok)) [row] with named := t1.named ||| BitVec.ofNat 8 (2 ^ (f3 w 23).toNat) }
  pure (t2.launch ctx 7 [.hld (f3 w 23) (hdr.getD {}) (BitVec.ofNat 15 row)])

/-- HST (R130, R291): the header in bytes 0 to 63, the rest of the row 0; the row becomes the home address. -/
def issueHst (ctx : IssueCtx) (w : BitVec 26) (t : Tile) : Issue := do
  reservedZero w 0xF
  hazardFree ctx t [.h (f3 w 23), .a (f4 w 19)]
  let row := shRow t w
  needRows t [row]
  need (slotsFree t ctx.pipe [] [row]) .operandRange
  needNoRing t [row]
  let t1 ← claim ctx [] [row] t
  pure (t1.launch ctx 2 [.row row { data := BitVec.ofNat 4608 (t.hreg (f3 w 23)).hdr.bits }, .home (f3 w 23) (BitVec.ofNat 15 row)])

end Sys2Proof.Machine
end

