-- ==== Sys2Proof/Machine/Descriptor.lean ====
section
/-! DEFINITION. DMA descriptors (07 R151 to R160): fields, the checks at issue, and the walk of R154 as far as the descriptor alone decides it. -/

namespace Sys2Proof.Machine

def dBits (d : BitVec 512) (lo len : Nat) : Nat := field d.toNat lo len
def dKind (d : BitVec 512) : Nat := dBits d 0 4
def dByte (d : BitVec 512) : Bool := d.getLsbD 4
def dEdge (d : BitVec 512) : Nat := dBits d 5 2
def dArrival (d : BitVec 512) : BitVec 6 := d.extractLsb' 8 6
def dNoArrival (d : BitVec 512) : Bool := d.getLsbD 14
def dByteOff (d : BitVec 512) : Nat := dBits d 16 10
def dSrc (d : BitVec 512) : BitVec 64 := d.extractLsb' 32 64
def dDst (d : BitVec 512) : BitVec 64 := d.extractLsb' 96 64
def dCount (d : BitVec 512) (k : Nat) : Nat := dBits d (160 + 64 * k) 16
def dSstr (d : BitVec 512) (k : Nat) : Int := (BitVec.ofNat 24 (dBits d (176 + 64 * k) 24)).toInt
def dDstr (d : BitVec 512) (k : Nat) : Int := (BitVec.ofNat 24 (dBits d (200 + 64 * k) 24)).toInt
def dOrg (d : BitVec 512) (k : Nat) : Int := (BitVec.ofNat 16 (dBits d (400 + 16 * k) 16)).toInt
/-- Extent of dimension 1, 2 or 3 (R152). -/
def dExt (d : BitVec 512) (k : Nat) : Nat := if k = 3 then dBits d 496 16 else dBits d (432 + 16 * k) 16
def dListRow (d : BitVec 512) : Nat := dBits d 480 15

/- References (R153). -/
def refAddr (r : BitVec 64) : Nat := field r.toNat 0 40
def refTile (r : BitVec 64) : Nat := field r.toNat 40 6
def refSpace (r : BitVec 64) : Nat := field r.toNat 46 4

/-- The address part that offsets are added to (R151). -/
def refPart (r : BitVec 64) : Nat := if refSpace r = 4 then refAddr r % 2 ^ 32 else refAddr r
def refPartBits (r : BitVec 64) : Nat := if refSpace r = 4 then 32 else 40

/-- Reserved bits and codes of a reference (R153). -/
def refOk (r : BitVec 64) : Bool :=
  decide (refSpace r ≤ 4) && field r.toNat 50 14 == 0 && (refSpace r == 1 || refTile r == 0)

/-- Check 1 of R160. -/
def descCodesOk (d : BitVec 512) : Bool :=
  decide (1 ≤ dKind d) && decide (dKind d ≤ 3) && dEdge d != 3 && refOk (dSrc d) && refOk (dDst d) &&
  dBits d 7 1 == 0 && dBits d 15 1 == 0 && dBits d 26 6 == 0 && dBits d 495 1 == 0

/-- Check 2 of R160 without the offsets. -/
def descCountsOk (d : BitVec 512) : Bool :=
  (List.range 4).all (fun k => dCount d k != 0) &&
  (!dByte d || (decide (dByteOff d + dCount d 0 ≤ 576) &&
    (refSpace (dSrc d) != 2 && refSpace (dSrc d) != 3) && (refSpace (dDst d) != 2 && refSpace (dDst d) != 3)))

/-- Whether an offset stays within the address part of its reference (R151). -/
def offsetFits (r : BitVec 64) (off : Word) : Bool := decide (refPart r + off.toNat < 2 ^ refPartBits r)

/-- Check 3 of R160. -/
def descScatterOk (d : BitVec 512) : Bool := !(dKind d == 3 && refSpace (dDst d) == 3)

/-- The descriptor with its offsets applied (R151). -/
def withOffsets (d : BitVec 512) (src dst : Word) : BitVec 512 :=
  BitVec.ofNat 512 (d.toNat + src.toNat * 2 ^ 32 + dst.toNat * 2 ^ 96)

/-- Elements of dimension 0: a run of bytes is one (R152). -/
def dN0 (d : BitVec 512) : Nat := if dByte d then 1 else dCount d 0
def descTotal (d : BitVec 512) : Nat := dN0 d * dCount d 1 * dCount d 2 * dCount d 3

/-- Loop indices of the e-th element (R154). -/
def elemIndex (d : BitVec 512) (e : Nat) : Nat × Nat × Nat × Nat :=
  (e % dN0 d, e / dN0 d % dCount d 1, e / (dN0 d * dCount d 1) % dCount d 2, e / (dN0 d * dCount d 1 * dCount d 2))

/-- EDGE on one coordinate (R155): kept, clamped, skipped, or an edge that halts. -/
inductive Coord
  | keep (c : Int)
  | skip
  | halt
deriving DecidableEq, Repr

def edgeCoord (mode ext : Nat) (c : Int) : Coord :=
  if ext = 0 ∨ (0 ≤ c ∧ c < ext) then .keep c
  else if mode = 0 then .halt
  else if mode = 1 then .keep (if c < 0 then 0 else (ext : Int) - 1)
  else .skip

/-- Entry i of an index tensor at a row (R156), and entry j of a coordinate list (R157). -/
def indexEntry (rowData : Nat → SectorBits) (first i : Nat) : Nat := field (rowData (first + i / 288)).toNat (16 * (i % 288)) 16
def listEntry (rowData : Nat → SectorBits) (first j : Nat) : Nat := field (rowData (first + j / 72)).toNat (64 * (j % 72)) 64

/-- The element that one step of the walk names: addresses before resolution, or why there is none. -/
inductive Element
  | move (src dst : Int)
  | skip
  | fail (kind : Nat)
deriving DecidableEq, Repr

/-- The e-th element (R154 to R157). `rowData` reads rows of the issuing tile. -/
def element (d : BitVec 512) (rowData : Nat → SectorBits) (e : Nat) : Element :=
  let (i0, i1, i2, i3) := elemIndex d e
  let c3 : Int := if dKind d = 2 then (indexEntry rowData (dListRow d) i3 : Nat) else (i3 : Nat)
  let k1 := edgeCoord (dEdge d) (dExt d 1) (dOrg d 1 + i1)
  let k2 := edgeCoord (dEdge d) (dExt d 2) (dOrg d 2 + i2)
  let k3 := if dKind d = 2 then edgeCoord (dEdge d) (dExt d 3) c3 else .keep c3
  match k1, k2, k3 with
  | .keep c1, .keep c2, .keep c3 =>
    let s0 : Int := if dByte d then 0 else i0 * dSstr d 0
    let d0 : Int := if dByte d then 0 else i0 * dDstr d 0
    let src := (refPart (dSrc d) : Int) + s0 + c1 * dSstr d 1 + c2 * dSstr d 2 + c3 * dSstr d 3
    let base : Int := refPart (dDst d)
    if dKind d = 3 then
      let l := listEntry rowData (dListRow d) i3
      if field l 48 16 ≠ 0 then .fail 3
      else .move src (base + d0 + ((field l 0 16 * dCount d 1 + i1 : Nat) : Int) * dDstr d 1 +
        ((field l 16 16 * dCount d 2 + i2 : Nat) : Int) * dDstr d 2 + ((field l 32 16 : Nat) : Int) * dDstr d 3)
    else .move src (base + d0 + i1 * dDstr d 1 + i2 * dDstr d 2 + i3 * dDstr d 3)
  | .halt, _, _ => .fail 1
  | _, .halt, _ => .fail 1
  | _, _, .halt => .fail 1
  | _, _, _ => .skip

/-- Rows of the issuing tile that the index tensor or the coordinate list fills (R156, R157). -/
def listRows (d : BitVec 512) : List Nat :=
  if dKind d = 2 then rowsFrom (dListRow d) ((dCount d 3 + 287) / 288)
  else if dKind d = 3 then rowsFrom (dListRow d) ((dCount d 3 + 71) / 72) else []

/-- Where an OWNED logical sector lies (R159). -/
def resolveOwned (owners : List OwnerTable) (id : Nat) (s : Int) : Option Place :=
  match owners.find? (fun o => o.id.toNat == id) with
  | none => none
  | some o =>
    let blk := 2 ^ o.log2Blk.toNat
    if s < 0 then none
    else
      match o.entries[s.toNat / blk]? with
      | none => none
      | some e =>
        let row := field e.toNat 6 15
        if e.getLsbD 21 && decide (row + blk - 1 ≤ 32767) then
          some (.scratch (BitVec.ofNat 6 (field e.toNat 0 6)) (row + s.toNat % blk))
        else none

/-- The row that an address names: one below 0 is out of bounds, and its low bits are what SCR_ERR keeps (R146, R148, R153). -/
def rowOf (addr : Int) : Nat := if addr < 0 then 32768 + (addr % 32768).toNat else addr.toNat

/-- Where a reference's address lies, or the error kind of DMA_ERR (R153, R159, R161, R170). -/
def resolve (self : TileId) (owners : List OwnerTable) (r : BitVec 64) (addr : Int) : Except Nat Place :=
  if refSpace r = 4 then
    match resolveOwned owners (field (refAddr r) 32 8) addr with
    | some p => .ok p
    | none => .error 2
  else if refSpace r = 0 then .ok (.scratch self (rowOf addr))
  else if refSpace r = 1 then .ok (.scratch (BitVec.ofNat 6 (refTile r)) (rowOf addr))
  else if addr < 0 then .error 5
  else if refSpace r = 2 then .ok (.near addr.toNat)
  else .ok (.far addr.toNat)

/-- DMAISS (R151, R160, R296). A full queue leaves it pending, with the address registers of this cycle. -/
def issueDmaiss (ctx : IssueCtx) (w : BitVec 26) (t : Tile) : Issue := do
  reservedZero w 0x3F
  hazardFree ctx t [.a (f4 w 10), .a (f4 w 6)]
  let q := f2 w 24
  let index : BitVec 10 := w.extractLsb' 14 10
  let raw := Store.read (fun _ => 0) t.dma.descriptors index.toNat
  let aS := t.areg (f4 w 10)
  let aD := t.areg (f4 w 6)
  need (descCodesOk raw) .reservedField
  need (descCountsOk raw && offsetFits (dSrc raw) aS && offsetFits (dDst raw) aD) .operandRange
  need (descScatterOk raw) .operandRange
  let bits := withOffsets raw aS aD
  let queue := t.dma.queues[q.toNat]
  if queue.length < 32 ∧ !t.pend.any (fun p => match p.kind with | .dma q' _ _ => q' == q | _ => false) then
    pure { t with dma := { t.dma with queues := t.dma.queues.set q.toNat (queue ++ [{ index := index, bits := bits }]) } }
  else
    pure { t with dma := { t.dma with fullHeld := true }, raised := { t.raised with full := true }
                  pend := t.pend ++ [{ kind := .dma q index bits, wall := ctx.wall, bundle := ctx.bundle }] }

end Sys2Proof.Machine
end

