-- ==== Sys2Proof/Machine/Scalar.lean ====
section
/-! DEFINITION. The S slot but for headers and DMA (12 R286 to R290, R295, R296): scalars, loops, waits, markers, flags, pad windows, key rings. -/

namespace Sys2Proof.Machine

/-- A register that DA, AA or AB choose the file of, as 64 bits (R289). -/
def Tile.anyReg (t : Tile) (addr : Bool) (n : BitVec 4) : BitVec 64 :=
  if addr then (t.areg n).setWidth 64 else t.sreg n

def anyName (addr : Bool) (n : BitVec 4) : RegName := if addr then .a n else .s n

/-- A result written to either file (R289). -/
def anyDest (addr : Bool) (n : BitVec 4) (x : BitVec 64) : Dest := if addr then .a n (x.setWidth 32) else .s n x

def siDA (w : BitVec 26) : Bool := w.getLsbD 25
def siRD (w : BitVec 26) : BitVec 4 := f4 w 21

/-- SLI (R289). -/
def issueSli (ctx : IssueCtx) (w : BitVec 26) (t : Tile) : Issue := do
  reservedZero w 0x100000
  hazardFree ctx t []
  pure (t.launch ctx 1 [anyDest (siDA w) (siRD w) ((w.extractLsb' 0 20).signExtend 64)])

/-- SLIS (R289). -/
def issueSlis (ctx : IssueCtx) (w : BitVec 26) (t : Tile) : Issue := do
  reservedZero w 0x100000
  hazardFree ctx t [anyName (siDA w) (siRD w)]
  pure (t.launch ctx 1 [anyDest (siDA w) (siRD w) (t.anyReg (siDA w) (siRD w) <<< 20 ||| (w.extractLsb' 0 20).setWidth 64)])

/-- SADDI (R289). -/
def issueSaddi (ctx : IssueCtx) (w : BitVec 26) (t : Tile) : Issue := do
  reservedZero w 0
  hazardFree ctx t [anyName (w.getLsbD 20) (f4 w 16)]
  pure (t.launch ctx 1 [anyDest (siDA w) (siRD w) (t.anyReg (w.getLsbD 20) (f4 w 16) + (w.extractLsb' 0 16).signExtend 64)])

/-- FUNC of SALU (R289). -/
def salu (func : BitVec 3) (a b : BitVec 64) : BitVec 64 :=
  match func.toNat with
  | 0 => a + b
  | 1 => a - b
  | 2 => a &&& b
  | 3 => a ||| b
  | 4 => a ^^^ b
  | 5 => a <<< (b.toNat % 64)
  | 6 => a >>> (b.toNat % 64)
  | _ => a * b

def issueSalu (ctx : IssueCtx) (w : BitVec 26) (t : Tile) : Issue := do
  reservedZero w 0xFF
  hazardFree ctx t [anyName (w.getLsbD 20) (f4 w 16), anyName (w.getLsbD 15) (f4 w 11)]
  pure (t.launch ctx 1 [anyDest (siDA w) (siRD w)
    (salu (f3 w 8) (t.anyReg (w.getLsbD 20) (f4 w 16)) (t.anyReg (w.getLsbD 15) (f4 w 11)))])

/-- The context constants (R290), for KIND 0x0 to 0x6. -/
def contextConstant (m : ModTable) (kind : Nat) (e : ModEntry) (ei : Option ModEntry) : Nat :=
  match kind with
  | 0 => e.q
  | 1 => log2Q e.q
  | 2 => nInv e.q (2 ^ m.logN.toNat)
  | 3 => e.psi
  | 4 => match ei with | some x => (invMod e.q x.q).getD 0 | none => 0
  | 5 => (e.q - 1) / 2
  | _ => 2 ^ 72 % e.q

/-- CCLD (R290). -/
def issueCcld (ctx : IssueCtx) (w : BitVec 26) (t : Tile) : Issue := do
  reservedZero w 0xFFF
  let kind := (f4 w 12).toNat
  need (decide (kind ≤ 6)) .reservedField
  hazardFree ctx t [.s (f4 w 16)]
  let x := (t.sreg (f4 w 16)).toNat
  let j := field x 0 7
  let i := field x 8 7
  match t.ctx (f2 w 20) with
  | none => .error ⟨.operandRange, none⟩
  | some m =>
    match m.entry? j with
    | none => .error ⟨.operandRange, none⟩
    | some e => do
      need (kind != 4 || (decide (j < i) && decide (i < m.limbs.length))) .operandRange
      pure (t.launch ctx 4 [.s (f4 w 22) (BitVec.ofNat 64 (contextConstant m kind e (m.entry? i) % 2 ^ 36))])

/-- LOOP (R268, R288). -/
def issueLoop (ctx : IssueCtx) (w : BitVec 30) (t : Tile) : Issue := do
  hazardFree ctx t []
  let n := (w.extractLsb' 28 2).toNat
  let off := (w.extractLsb' 16 12).toNat
  let count : BitVec 16 := w.extractLsb' 0 16
  let stop := ctx.bundle.toNat + off
  need (off != 0 && count != 0) .operandRange
  need ((List.range 4).all (fun k => (t.loops.toList.getD k {}).active == decide (k < n))) .operandRange
  need (n == 0 || decide (stop ≤ (t.loops.toList.getD (n - 1) {}).stop)) .operandRange
  pure { t with l := t.l.setIfInBounds n count
                loops := t.loops.setIfInBounds n { active := true, start := ctx.bundle.toNat + 1, stop := stop } }

/-- WAIT (R138, R240): met at once, or pending. -/
def issueWait (ctx : IssueCtx) (w : BitVec 26) (t : Tile) : Issue := do
  reservedZero w 0xF
  hazardFree ctx t []
  let c : BitVec 6 := w.extractLsb' 20 6
  let k : BitVec 16 := w.extractLsb' 4 16
  need (k != 0) .operandRange
  if k.toNat ≤ t.arrival[c.toNat].toNat then
    pure { t with arrival := t.arrival.set c.toNat (t.arrival[c.toNat] - k), taken := t.taken ++ [(c, k.toNat)] }
  else
    pure { t with pend := t.pend ++ [{ kind := .wait c k, wall := ctx.wall, bundle := ctx.bundle }] }

/-- ENDST (R238): the marker is tested when the slots of its bundle have issued. -/
def issueEndst (ctx : IssueCtx) (w : BitVec 26) (t : Tile) : Issue := do
  reservedZero w 0x3FFFFFF
  hazardFree ctx t []
  pure { t with pend := t.pend ++ [{ kind := .marker, wall := ctx.wall, bundle := ctx.bundle }] }

/-- PWLD (R168, R296). -/
def issuePwld (ctx : IssueCtx) (w : BitVec 26) (t : Tile) : Issue := do
  let scalar := w.getLsbD 23
  reservedZero w (if scalar then 0x7FF else 0x7FFF)
  hazardFree ctx t ([.s (f4 w 19), .s (f4 w 15)] ++ if scalar then [.s (f4 w 11)] else [])
  let a := t.sreg (f4 w 19)
  let b := t.sreg (f4 w 15)
  let lineRows : BitVec 11 := a.extractLsb' 15 11
  let stride : BitVec 15 := a.extractLsb' 26 15
  need (lineRows != 0 && decide (lineRows.toNat ≤ 1024)) .operandRange
  need (decide (lineRows.toNat ≤ stride.toNat)) .operandRange
  pure (t.launch ctx 1 [.pad (f2 w 24)
    { base := a.extractLsb' 0 15, lineRows := lineRows, lineStride := stride, lines := a.extractLsb' 41 16
      lo := b.extractLsb' 0 16, hi := b.extractLsb' 16 16, scalar := scalar
      value := if scalar then (t.sreg (f4 w 11)).extractLsb' 0 36 else 0 }])

/-- The W1C fields of MVE_FLAGS, NMA_FLAGS and SCR_FLAGS (R71, R127, R148). -/
def flagFields (reg : BitVec 2) : Word := if reg = 0 then 0xFF1F else if reg = 1 then 0xFF else 0x1B

/-- FLAGCLR (R296). -/
def issueFlagclr (ctx : IssueCtx) (w : BitVec 26) (t : Tile) : Issue := do
  reservedZero w 0xFF
  need (f2 w 24 != 3) .reservedField
  hazardFree ctx t []
  let bits : Word := (w.extractLsb' 8 16).setWidth 32
  need (bits &&& ~~~flagFields (f2 w 24) == 0) .operandRange
  pure (t.launch ctx 1 [.clear (f2 w 24) bits])

/- Stream descriptors (R183). -/
def stKind (d : BitVec 256) : Nat := field d.toNat 0 8
def stDigit (d : BitVec 256) : Nat := field d.toNat 8 8
def stMctx (d : BitVec 256) : BitVec 2 := d.extractLsb' 16 2
def stSpecial (d : BitVec 256) : Bool := d.getLsbD 18
def stEntryCount (d : BitVec 256) : Nat := field d.toNat 24 8
def stGalois (d : BitVec 256) : Nat := field d.toNat 32 18
def stEntryFirst (d : BitVec 256) : Nat := field d.toNat 64 8
def stSlots (d : BitVec 256) : Nat := field d.toNat 72 4
def stCounter (d : BitVec 256) : BitVec 6 := d.extractLsb' 80 6
def stSpecialFirst (d : BitVec 256) : Nat := field d.toNat 88 8
def stBase (d : BitVec 256) : Nat := field d.toNat 96 15
def stSpecialCount (d : BitVec 256) : Nat := field d.toNat 112 8
def stFirstDeadline (d : BitVec 256) : Nat := field d.toNat 128 24
def stPeriod (d : BitVec 256) : Nat := field d.toNat 160 24

/-- The entries that a stream delivers, for K special primes (R183). -/
def streamEntries (d : BitVec 256) (specials : Nat) : List Nat :=
  (List.range (stEntryCount d)).map (stEntryFirst d + ·) ++
  if stSpecial d then
    (List.range (if stSpecialCount d = 0 then specials - stSpecialFirst d else stSpecialCount d)).map (64 + stSpecialFirst d + ·)
  else []

/-- Sectors and chunks of a key limb (R174). -/
def keyS (logN : Nat) : Nat := if logN = 12 then 32 else 64
def keyChunks (logN : Nat) : Nat := if logN = 12 then 1 else 2 ^ (logN - 13)

/-- KARM (R185, R295). The quarter is judged before the end of the scratchpad; a ring that fails both halts with OPERAND_RANGE (DESIGN CHOICE, log 88). -/
def issueKarm (ctx : IssueCtx) (w : BitVec 26) (t : Tile) : Issue := do
  reservedZero w 0x7FFF
  hazardFree ctx t [.h (f3 w 15)]
  let d := Store.read (fun _ => 0) t.streams (w.extractLsb' 18 6).toNat
  need (d != 0) .operandRange
  let n := f2 w 24
  need (!t.rings[n.toNat].armed) .operandRange
  let m := t.hreg (f3 w 15)
  need (t.headerOk m.hdr && m.hdr.valid) .headerInvalid
  let s := keyS m.hdr.logN.toNat
  let rows := stSlots d * (8 + 2 * s)
  need (quarterOf (stBase d) == quarterOf (stBase d + rows - 1)) .operandRange
  needRows t (rowsFrom (stBase d) rows)
  let specials := match t.ctx (stMctx d) with | some c => c.specials.length | none => 0
  let ring : Ring :=
    { t.rings[n.toNat] with
      armed := true, base := stBase d, slots := List.replicate (stSlots d) .empty, s := s, counter := stCounter d
      first := stFirstDeadline d, period := stPeriod d, armCycle := ctx.sched, armBundle := ctx.bundle
      keyset := m.hdr.keyset, logN := m.hdr.logN, limbBase := m.hdr.limbBase, level := m.hdr.level, tag := m.tag
      srcKeyset := match t.ctx (stMctx d) with | some c => c.keyset | none => 0
      src := { kind := BitVec.ofNat 4 (stKind d), galois := BitVec.ofNat 18 (stGalois d), digit := BitVec.ofNat 4 (stDigit d) }
      entries := streamEntries d specials, chunks := keyChunks m.hdr.logN.toNat, special := specials
      fill := 0, done := 0, release := 0 }
  pure { t with rings := t.rings.set n.toNat ring }

/-- KREL: the head slot becomes EMPTY at the end of the issue cycle (R188). -/
def issueKrel (ctx : IssueCtx) (w : BitVec 26) (t : Tile) : Issue := do
  reservedZero w 0xFFFFFF
  hazardFree ctx t []
  let r := t.rings[(f2 w 24).toNat]
  need (r.armed && r.slots.getD (r.release % r.slots.length) .empty == .full) .operandRange
  pure (t.launch ctx 1 [.release (f2 w 24)])

/-- The rows of polynomial 1 (R178, R295). -/
def expandRows (h : Header) (first : Nat) : List Nat :=
  let n := (h.level.toNat + 1) * sectorsOf h.logN.toNat
  rowsFrom (first + n) n

/-- EXPAND (R178, R295). -/
def issueExpand (ctx : IssueCtx) (w : BitVec 26) (t : Tile) : Issue := do
  reservedZero w 0x3F
  hazardFree ctx t [.h (f3 w 23), .a (f4 w 16), .s (f4 w 6)]
  let h := (t.hreg (f3 w 23)).hdr
  need (h.sourceOk true) .headerInvalid
  need (!(ctx.poisonHalt && h.poison)) .poisonRead
  let m ← t.contextCheck h
  need (h.logN == m.logN && h.scheme == m.scheme) .modulusMismatch
  let first := (t.areg (f4 w 16)).toNat
  needRows t (expandRows h first)
  let entries := (List.range (h.level.toNat + 1)).map (fun k =>
    let e := h.limbBase.toNat + k
    (e, match m.entry? e with | some x => x.q | none => 0))
  let req : Expansion :=
    { hdr := h, row := first, counter := w.extractLsb' 10 6, deadline := ctx.sched + field (t.sreg (f4 w 6)).toNat 0 24
      entries := entries }
  let t := { t with named := t.named ||| BitVec.ofNat 8 (2 ^ (f3 w 20).toNat), expands := t.expands ++ [req] }
  pure (t.launch ctx 4 [.hop (f3 w 20) { h with seeded := false, seed := 0, generation := h.generation + 1, valid := true } none])

end Sys2Proof.Machine
end

