-- ==== Sys2Proof/Machine/EngineIssue.lean ====
section
/-! DEFINITION. The T and M slots: the operations of the Transform Unit and of the Narrow Matrix Array as they issue (12 R297 to R304; 04 R74 to R89; 05 R95 to R125). -/

namespace Sys2Proof.Machine

/- T-slot fields (R297). -/
def tSrc (t : Tile) (w : BitVec 26) : Nat := (t.areg (f4 w 22)).toNat
def tDst (t : Tile) (w : BitVec 26) : Nat := (t.areg (f4 w 18)).toNat
def tMctx (w : BitVec 26) : BitVec 2 := f2 w 16
def tEntry (t : Tile) (w : BitVec 26) : Nat := field (t.sreg (f4 w 12)).toNat 0 7

/-- Identical or disjoint (R76 check 4). -/
def sameOrApart (a b n : Nat) : Bool := a == b || !overlap a n b n

/-- The checks that follow an operation's own: ownership, rings, bank slots of the same bundle (R133, R134, R187). -/
def needSlots (ctx : IssueCtx) (t : Tile) (mine other : Owned) (writes : List Nat) : Except IssueStop Unit := do
  need (!mine.reads.any other.reads.contains && !mine.writes.any other.writes.contains) .operandRange
  needNoRing t writes
  need (!ownMeetsBus t ctx.pipe mine) .operandRange

/-- Checks 2 to 5 of R76 over the regions of an operation, with what follows them. `extra` is a table or index tensor. -/
def tuChecks (ctx : IssueCtx) (t : Tile) (op : TuOp) (extra : Option (Nat × Nat)) : Except IssueStop Unit := do
  let n := op.regionRows
  needRows t (rowsFrom op.src n ++ rowsFrom op.dst n ++ (match extra with | some (r, k) => rowsFrom r k | none => []))
  need (regionOk op.src n && regionOk op.dst n && (match extra with | some (r, k) => regionOk r k | none => true)) .operandRange
  need (sameOrApart op.src op.dst n && (match extra with | some (r, k) => !overlap r k op.dst n | none => true)) .operandRange
  need (!t.tuBusy ctx.pipe) .operandRange
  needSlots ctx t op.owned (t.nmaOwned ctx.pipe) (rowsFrom op.dst n)

def Tile.startTu (t : Tile) (op : TuOp) : Tile := { t with tu := { t.tu with op := some op }, seq := t.seq + 1 }

/-- NTT and INTT (R75 to R83). -/
def issueTransform (inverse : Bool) (ctx : IssueCtx) (w : BitVec 26) (t : Tile) : Issue := do
  let table := w.getLsbD 11
  reservedZero w (if table then 0x7F else 0x7FF)
  hazardFree ctx t ([.a (f4 w 22), .a (f4 w 18), .s (f4 w 12)] ++ if table then [.a (f4 w 7)] else [])
  match t.ctx (tMctx w), ctxEntry? (t.ctx (tMctx w)) (tEntry t w) with
  | some m, some e => do
    let logN := m.logN.toNat
    let aux := (t.areg (f4 w 7)).toNat
    let op : TuOp :=
      { kind := .transform inverse table, issued := ctx.pipe, latency := transformLatency logN table, seq := t.seq
        bundle := ctx.bundle, src := tSrc t w, dst := tDst t w, aux := if table then aux else 0, logN := logN, mctx := tMctx w
        entry := tEntry t w, q := e.q, psi := e.psi
        fetch := { todo := eightPerCycle ctx.pipe (rowsFrom (tSrc t w) (sectorsOf logN) ++
          if table then rowsFrom aux (tableRows logN) else []) } }
    tuChecks ctx t op (if table then some (aux, tableRows logN) else none)
    pure (t.startTu op)
  | _, _ => .error ⟨.operandRange, none⟩

def issueNtt (ctx : IssueCtx) (w : BitVec 26) (t : Tile) : Issue := issueTransform false ctx w t
def issueIntt (ctx : IssueCtx) (w : BitVec 26) (t : Tile) : Issue := issueTransform true ctx w t

/-- AUTO (R84, R85, R89). -/
def issueAuto (ctx : IssueCtx) (w : BitVec 26) (t : Tile) : Issue := do
  reservedZero w 0x7F
  hazardFree ctx t [.a (f4 w 22), .a (f4 w 18), .s (f4 w 12), .s (f4 w 8)]
  let g := field (t.sreg (f4 w 8)).toNat 0 18
  match t.ctx (tMctx w), ctxEntry? (t.ctx (tMctx w)) (tEntry t w) with
  | some m, some e => do
    let logN := m.logN.toNat
    need (g % 2 == 1 && decide (g < 2 ^ (logN + 1))) .operandRange
    let op : TuOp :=
      { kind := .auto g (w.getLsbD 7), issued := ctx.pipe, latency := 2 ^ logN / 512 + 24, seq := t.seq, bundle := ctx.bundle
        src := tSrc t w, dst := tDst t w, logN := logN, mctx := tMctx w, entry := tEntry t w, q := e.q, psi := e.psi
        fetch := { todo := eightPerCycle ctx.pipe (rowsFrom (tSrc t w) (sectorsOf logN)) } }
    tuChecks ctx t op none
    pure (t.startTu op)
  | _, _ => .error ⟨.operandRange, none⟩

/-- PERM (R87 to R89). -/
def issuePerm (ctx : IssueCtx) (w : BitVec 26) (t : Tile) : Issue := do
  reservedZero w 0xFF
  hazardFree ctx t [.a (f4 w 22), .a (f4 w 18), .s (f4 w 12), .a (f4 w 8)]
  match t.ctx (tMctx w), ctxEntry? (t.ctx (tMctx w)) (tEntry t w) with
  | some m, some e => do
    let logN := m.logN.toNat
    let n := sectorsOf logN
    let aux := (t.areg (f4 w 8)).toNat
    let op : TuOp :=
      { kind := .perm, issued := ctx.pipe, latency := 3 * 2 ^ logN / 1024 + 24, seq := t.seq, bundle := ctx.bundle
        src := tSrc t w, dst := tDst t w, aux := aux, logN := logN, mctx := tMctx w, entry := tEntry t w, q := e.q, psi := e.psi
        fetch := { todo := eightPerCycle ctx.pipe (rowsFrom (tSrc t w) n ++ rowsFrom aux n) } }
    tuChecks ctx t op (some (aux, n))
    pure (t.startTu op)
  | _, _ => .error ⟨.operandRange, none⟩

/-- TXP (R298). -/
def issueTxp (ctx : IssueCtx) (w : BitVec 26) (t : Tile) : Issue := do
  reservedZero w 0x3FFFF
  hazardFree ctx t [.a (f4 w 22), .a (f4 w 18)]
  let op : TuOp :=
    { kind := .txp, issued := ctx.pipe, latency := 48, seq := t.seq, bundle := ctx.bundle, src := tSrc t w, dst := tDst t w
      logN := 14, fetch := { todo := eightPerCycle ctx.pipe (rowsFrom (tSrc t w) 128) } }
  tuChecks ctx t op none
  pure (t.startTu op)

def Tile.startNma (t : Tile) (op : NmaOp) : Tile := { t with nma := { t.nma.begin op.kind with op := some op }, seq := t.seq + 1 }

/-- The rows of a panel that block step b of an MMA reads (R94). -/
def panelStep (f : Fmt) (first : Nat) (pad : Option PadWindow) (b : Nat) : List Nat :=
  let u := shapeU f.small
  let lo := b * u / f.bpr
  let hi := (b * u + u - 1) / f.bpr
  (rowsFrom (first + lo) (hi + 1 - lo)).filter (fun r => !pad.any (fun w => w.pads r))

/-- The requests of an MMA: each block step asks from its first cycle on for its rows of A, then of B (R94, R131; log 10). -/
def panelFetch (f : Fmt) (a b nb pipe : Nat) (pad : Option PadWindow) : List (Nat × List Nat) :=
  (List.range nb).flatMap (fun n => runsFrom (pipe + (if f.bits = 2 then 16 else 32) * n) (panelStep f a pad n ++ panelStep f b none n))

/-- The state rules of R101. -/
def mmaStateOk (m : Nma) (f : Fmt) (int zero : Bool) (xr : BitVec 16) : Bool :=
  !(int && f == .mxfp8) &&
  (zero || (m.accInt == int && m.accSmall == f.small &&
    (!int || (List.range (blockRows f.small)).all (fun n => m.xr.toList.getD n 0 == xr))))

/-- Whether the sentinel of the tile is in SHADOW mode (R127). -/
def Sentinel.shadow (s : Sentinel) : Bool := s.ctrl.getLsbD 1

/-- Rows of the shadow panel: the A operand in an eight-bit format with the same U (R113). -/
def shadowRows (small : Bool) (nb : Nat) : Nat := (shapeU small * nb + 15) / 16

/-- MMA (R100 to R104, R301). -/
def issueMma (ctx : IssueCtx) (w : BitVec 26) (t : Tile) : Issue := do
  let pwen := w.getLsbD 4
  reservedZero w (if pwen then 0x3 else 0xF)
  match Fmt.ofCode (f3 w 23).toNat with
  | none => .error ⟨.reservedField, none⟩
  | some f => do
    hazardFree ctx t [.a (f4 w 17), .a (f4 w 13), .s (f4 w 9), .s (f4 w 5)]
    let int := w.getLsbD 22
    let zero := w.getLsbD 21
    let nb := field (t.sreg (f4 w 9)).toNat 0 12
    let sxr := (t.sreg (f4 w 5)).toNat
    let xr : BitVec 16 := BitVec.ofNat 16 sxr
    let a := (t.areg (f4 w 17)).toNat
    let b := (t.areg (f4 w 13)).toNat
    let shadow := field sxr 32 15
    let pad := if pwen then some t.pads[(f2 w 2).toNat] else none
    need (nb != 0) .operandRange
    need (mmaStateOk t.nma f int zero xr) .operandRange
    let n := panelRows f nb
    needRows t ((rowsFrom a n).filter (fun r => !pad.any (fun p => p.pads r)) ++ rowsFrom b n ++
      if t.sent.shadow then rowsFrom shadow (shadowRows f.small nb) else [])
    need (!t.nmaBusy ctx.pipe) .operandRange
    let s := if f.bits = 2 then 16 else 32
    let op : NmaOp :=
      { kind := .mma f int zero a b nb xr shadow pad, issued := ctx.pipe, occupancy := s * nb
        latency := s * nb + (if f.small then 24 else 20), seq := t.seq, bundle := ctx.bundle
        fetch := { todo := panelFetch f a b nb ctx.pipe pad } }
    needSlots ctx t op.owned (t.tuOwned ctx.pipe) []
    pure (t.startNma op)

/-- The step whose row of B a DSM of the matrix shape reads in step i: where rows of one step would share a bank, that of a later step, the last ones in
the place of the first (R131, R133; log 10). An operation of one step reads both its rows in its one cycle. -/
def dsmTurn (a b k i : Nat) : Nat := if a % 8 = b % 8 then (i + if k % 8 = 1 then 2 else 1) % k else i

/-- DSM (R120 to R123, R302). -/
def issueDsm (ctx : IssueCtx) (w : BitVec 26) (t : Tile) : Issue := do
  reservedZero w 0x3
  hazardFree ctx t [.a (f4 w 21), .a (f4 w 17), .a (f4 w 13), .s (f4 w 9), .s (f4 w 3)]
  let dot := w.getLsbD 25
  let gs := w.getLsbD 2
  let sk := (t.sreg (f4 w 9)).toNat
  let k := field sk 0 9
  let a := (t.areg (f4 w 21)).toNat
  let b := (t.areg (f4 w 17)).toNat
  let dst := (t.areg (f4 w 13)).toNat
  let sa := field sk 16 16
  let sb := field sk 32 16
  let base := field (t.sreg (f4 w 3)).toNat 0 7
  let entry := fun g => base + if gs then g else 0
  need (decide (1 ≤ k) && decide (k ≤ 256)) .operandRange
  need ((List.range 8).all (fun g => (ctxEntry? (t.ctx (f2 w 7)) (entry g)).isSome)) .operandRange
  let stepA := fun i => if dot then rowsFrom (a + i * sa) 8 else [a + i]
  let stepB := fun i => if dot then rowsFrom (b + i * sb) 8 else [b + i]
  need (dst % 8 == 0 && (!dot || (List.range k).all (fun i =>
    eightRowGroup (stepA i) && eightRowGroup (stepB i) && quarterOf (a + i * sa) != quarterOf (b + i * sb)))) .operandRange
  let rowsA := (List.range k).flatMap stepA
  let rowsB := (List.range k).flatMap stepB
  needRows t (rowsA ++ rowsB ++ rowsFrom dst 8)
  need (!t.nmaBusy ctx.pipe) .operandRange
  let op : DsmOp :=
    { dot := dot, k := k, rowsA := rowsA, rowsB := rowsB, dst := dst
      qs := (List.range 8).map (fun g => ctxPrime (t.ctx (f2 w 7)) (entry g)), issued := ctx.pipe, seq := t.seq
      bundle := ctx.bundle, fetch := { todo := (List.range k).map (fun i => (ctx.pipe + i, stepA i ++ stepB (if dot then i else dsmTurn a b k i))) } }
  needSlots ctx t op.owned (t.tuOwned ctx.pipe) (rowsFrom dst 8)
  pure { t with nma := { t.nma with dsm := some op }, seq := t.seq + 1 }

/-- The checks of an operation that moves accumulators: bounds, occupancy, ownership (R300). -/
def moveChecks (ctx : IssueCtx) (t : Tile) (reads writes : List Nat) : Except IssueStop Unit := do
  needRows t (reads ++ writes)
  need (!t.nmaBusy ctx.pipe) .operandRange
  let mine : Owned := ⟨reads.map quarterOf, writes.map quarterOf⟩
  needSlots ctx t mine (t.tuOwned ctx.pipe) writes

/-- MSPILL (R105). -/
def issueMspill (ctx : IssueCtx) (w : BitVec 26) (t : Tile) : Issue := do
  reservedZero w 0x1FFFFF
  hazardFree ctx t [.a (f4 w 21)]
  let init := w.getLsbD 25
  let wide := (t.areg (f4 w 21)).toNat
  let n := wideRows t.nma.accSmall
  let reads := if init then [] else rowsFrom wide n
  moveChecks ctx t reads (rowsFrom wide n)
  pure (t.startNma { kind := .spill init wide, issued := ctx.pipe, occupancy := n / 8 + 16, latency := n / 8 + 16, seq := t.seq
                     bundle := ctx.bundle, fetch := { todo := eightPerCycle ctx.pipe reads } })

/-- MRESUME (R106). -/
def issueMresume (ctx : IssueCtx) (w : BitVec 26) (t : Tile) : Issue := do
  reservedZero w 0xFFFF
  hazardFree ctx t [.a (f4 w 20), .s (f4 w 16)]
  let small := w.getLsbD 24
  let wide := (t.areg (f4 w 20)).toNat
  let n := wideRows small
  moveChecks ctx t (rowsFrom wide n) []
  pure (t.startNma { kind := .resume (w.getLsbD 25) small wide (BitVec.ofNat 16 (t.sreg (f4 w 16)).toNat), issued := ctx.pipe
                     occupancy := n / 8 + 16, latency := n / 8 + 16, seq := t.seq, bundle := ctx.bundle
                     fetch := { todo := eightPerCycle ctx.pipe (rowsFrom wide n) } })

/-- The requests of an epilogue: its vectors, then the wide buffer that it merges, eight rows a cycle, and of 1,152 rows 24 a cycle: no fewer than three
of a bank bring them within the latency of R125 (R131; log 10). -/
def epiFetch (pipe : Nat) (vecs wide : List Nat) (small : Bool) : List (Nat × List Nat) :=
  let v := runsFrom pipe vecs
  v ++ (chunksOf (if small then 8 else 24) wide).mapIdx (fun i rs => (pipe + v.length + i, rs))

/-- MEPI (R107 to R110, R303). -/
def issueMepi (ctx : IssueCtx) (w : BitVec 26) (t : Tile) : Issue := do
  let out := f2 w 24
  let merge := w.getLsbD 20
  let act := f2 w 6
  reservedZero w ((if out == 0 then 0 else 0xE00000) ||| (if merge then 0 else 0xF000) ||| (if act == 2 then 0 else 0x3C) ||| 0x3)
  need (out != 3) .reservedField
  match Fmt.ofCode (f3 w 21).toNat with
  | none => .error ⟨.reservedField, none⟩
  | some f => do
    let sp := f4 w 8
    hazardFree ctx t ([.a (f4 w 16), .s sp, .s (sp + 1), .s (sp + 2)] ++ if merge then [.a (f4 w 12)] else [])
    need (decide (sp.toNat ≤ 13)) .operandRange
    let s0 := (t.sreg sp).toNat
    let s1 := t.sreg (sp + 1)
    let s2 := (t.sreg (sp + 2)).toNat
    let delta := field s2 0 6
    need (!(out == 2) || decide (delta ≤ 62)) .operandRange
    need (!(act == 2) || f4 w 2 != 0) .operandRange
    let e := ctxEntry? (t.ctx (BitVec.ofNat 2 (field s2 16 2))) (field s2 8 7)
    need (!(out == 2) || e.isSome) .operandRange
    let small := t.nma.accSmall
    let dst := (t.areg (f4 w 16)).toNat
    let wide := (t.areg (f4 w 12)).toNat
    let sc := if field s0 15 1 = 1 then some (field s0 0 15) else none
    let bi := if field s0 31 1 = 1 then some (field s0 16 15) else none
    let vec := fun (r : Option Nat) => match r with | some r => rowsFrom r (shapeU small / 144) | none => []
    let merged := if merge then rowsFrom wide (wideRows small) else []
    moveChecks ctx t (merged ++ vec sc ++ vec bi) (rowsFrom dst (epiRows out f small))
    let o := if out = 2 then 112 else 100
    pure (t.startNma { kind := .epilogue out f merge dst wide sc bi act (f4 w 2) (s1.extractLsb' 0 32) (s1.extractLsb' 32 32) delta
                                 (match e with | some x => x.q | none => 1)
                       issued := ctx.pipe, occupancy := o, latency := o, seq := t.seq, bundle := ctx.bundle
                       fetch := { todo := epiFetch ctx.pipe (vec sc ++ vec bi) merged small } })

/-- The chain fields of S[SC] (R304): CHAIN_ID, I0, NBR. -/
def chainFields (x : BitVec 64) : Word × Nat × Nat := (x.extractLsb' 0 32, field x.toNat 32 4, field x.toNat 36 4)

def chainRangeOk (small : Bool) (i0 nbr : Nat) : Bool := decide (1 ≤ nbr) && decide (i0 + nbr ≤ blockRows small)

/-- MCHS (R116, R304). -/
def issueMchs (ctx : IssueCtx) (w : BitVec 26) (t : Tile) : Issue := do
  reservedZero w 0x1F
  hazardFree ctx t [.a (f4 w 21), .s (f4 w 5)]
  let (chain, i0, nbr) := chainFields (t.sreg (f4 w 5))
  let first := w.getLsbD 25
  need (chainRangeOk t.nma.accSmall i0 nbr) .operandRange
  need (first || t.nma.lastHeader.isSome) .operandRange
  need (!t.nmaBusy ctx.pipe) .operandRange
  pure (t.startNma { kind := .send first (t.areg (f4 w 21)).toNat (w.extractLsb' 15 6) (w.extractLsb' 9 6) chain i0 nbr
                     issued := ctx.pipe, occupancy := 8 * nbr + 12, latency := 8 * nbr + 12, seq := t.seq, bundle := ctx.bundle })

/-- MCHR (R118, R304). A header that fails its checks halts when the header row is delivered (log 10). -/
def issueMchr (ctx : IssueCtx) (w : BitVec 26) (t : Tile) : Issue := do
  reservedZero w 0x21FFE1F
  hazardFree ctx t [.a (f4 w 21), .s (f4 w 5)]
  let (chain, i0, nbr) := chainFields (t.sreg (f4 w 5))
  let row := (t.areg (f4 w 21)).toNat
  need (chainRangeOk t.nma.accSmall i0 nbr) .operandRange
  let rows := rowsFrom row (1 + chainRows t.nma.accSmall i0 nbr)
  moveChecks ctx t rows []
  pure (t.startNma { kind := .receive row chain i0 nbr, issued := ctx.pipe, occupancy := 8 * nbr + 16, latency := 8 * nbr + 16
                     seq := t.seq, bundle := ctx.bundle, fetch := { todo := eightPerCycle ctx.pipe rows } })

end Sys2Proof.Machine
end

