-- ==== Sys2Proof/Machine/Flags.lean ====
section
/-! DEFINITION. Status and flag words of a tile (R71, R93, R127, R148, R170, R193, R272), and the operations that set their fields. -/

namespace Sys2Proof.Machine

def HaltReason.code : HaltReason → Nat
  | .none => 0x00
  | .illegalOpcode => 0x01
  | .reservedField => 0x02
  | .operandRange => 0x03
  | .levelExhausted => 0x04
  | .keyMismatch => 0x05
  | .scaleMismatch => 0x06
  | .modulusMismatch => 0x07
  | .transformCheck => 0x08
  | .scratchBounds => 0x09
  | .arrivalTimeout => 0x0A
  | .tickOverrun => 0x0B
  | .hazard => 0x0C
  | .poisonRead => 0x0D
  | .uncorrectable => 0x0E
  | .aborted => 0x0F
  | .keyStreamUnderrun => 0x10
  | .accumOverflow => 0x11
  | .headerInvalid => 0x12
  | .countReached => 0x13

def Slot.code : Slot → BitVec 2
  | .s => 0
  | .v => 1
  | .t => 2
  | .m => 3

/-- A condition that halts a tile: reason, bundle named, slot, whether a queue, a port or the KSU raised it (R271, R272), and its place in the order of
R269: 1 an operation in flight, with its issue number, 2 a queue or the remote port, 3 the KSU, 4 an issue check. R269 names neither ARRIVAL_TIMEOUT nor
COUNT_REACHED: the one stands first among the operations in flight, the other before all, as rank 0 (DESIGN CHOICE, log 77). -/
structure HaltRec where
  reason : HaltReason
  bundle : BitVec 14
  slot : BitVec 2 := 0
  async : Bool := false
  rank : Nat := 1
  issue : Nat := 0
deriving DecidableEq, Repr

/-- What a halt records (R271, R272). SEQ is set by the device (R270). -/
def Tile.record (t : Tile) (sched : Nat) (h : HaltRec) : Tile :=
  { t with halted := true, haltReason := h.reason, haltAddr := h.bundle, haltSlot := h.slot, haltAsync := h.async
           haltSched := BitVec.ofNat 32 sched, haltRank := h.rank, haltIssue := h.issue, haltFresh := true }

/-- The tile halts; or records MORE when it has halted, with the condition that comes first in R269's order of those of one cycle (R269, R272). -/
def Tile.halt (t : Tile) (sched : Nat) (h : HaltRec) : Tile :=
  if t.halted then
    let t := { t with haltMore := true }
    if t.haltFresh && (decide (h.rank < t.haltRank) || (h.rank == t.haltRank && decide (h.issue < t.haltIssue))) then t.record sched h else t
  else t.record sched h

/-- SCR_ERR (R148): port 0 engine, 1 remote, 2 DMA; kind 1 uncorrectable, 2 poisoned row, 3 out of bounds. -/
def Tile.scrErr (t : Tile) (row : Nat) (port kind : BitVec 2) : Tile :=
  { t with errRow := BitVec.ofNat 15 row, errPort := port, errKind := kind }

def haltAddrWord (t : Tile) : Word := wordOf [(0, t.haltAddr.toNat), (16, t.haltSlot.toNat), (18, t.haltAsync.toNat)]
def haltReasonWord (t : Tile) : Word := wordOf [(0, t.haltReason.code), (8, t.haltMore.toNat), (16, t.haltSeq.toNat)]

def tuStatusWord (t : Tile) (pipe : Nat) : Word :=
  wordOf [(0, (t.tuBusy pipe).toNat), (1, t.tu.check1.toNat), (2, t.tu.check2.toNat), (3, t.tu.failTable.toNat),
    (4, t.tu.failInverse.toNat), (8, t.tu.failEntry.toNat), (16, t.tu.failMctx.toNat)]

def nmaStatusWord (t : Tile) (pipe : Nat) : Word :=
  wordOf [(0, (t.nmaBusy pipe).toNat), (1, t.nma.accInt.toNat), (2, t.nma.accSmall.toNat), (3, (!t.nma.closes.isEmpty).toNat)]

def nmaBlkWord (t : Tile) (n : Nat) : Word :=
  wordOf [(0, (t.nma.sat.toList.getD n 0).toNat), (16, (t.nma.xr.toList.getD n 0).toNat)]

def sentEventsWord (t : Tile) : Word := wordOf [(0, t.sent.exceed.toNat), (16, t.sent.drop.toNat), (24, t.sent.fault.toNat)]

def scrFlagsWord (t : Tile) : Word :=
  wordOf [(0, t.scrCe.toNat), (1, t.ueForwarded.toNat), (2, t.poisonLatch.toNat), (3, t.arrivalSat.toNat),
    (4, t.arrivalLeftover.toNat)]

def scrEccWord (t : Tile) : Word := wordOf [(0, t.ceEngine.toNat), (16, t.ceOther.toNat)]
def scrErrWord (t : Tile) : Word := wordOf [(0, t.errRow.toNat), (16, t.errPort.toNat), (18, t.errKind.toNat)]

def dmaStatusWord (t : Tile) : Word :=
  wordOf [(0, t.dma.queues[0].length), (8, t.dma.queues[1].length), (16, t.dma.queues[2].length), (24, t.dma.queues[3].length),
    (30, t.dma.fullHeld.toNat)]

def dmaErrWord (t : Tile) : Word :=
  wordOf [(0, t.dma.errDesc.toNat), (10, t.dma.errQueue.toNat), (12, t.dma.errKind.toNat), (16, t.dma.errElement.toNat)]

/-- Pages of a ring's stream (R183). -/
def Ring.pages (r : Ring) : Nat := r.entries.length * r.chunks

def ringStatusWord (r : Ring) : Word :=
  let n := r.slots.length
  wordOf [(0, r.armed.toNat), (1, r.release % (max n 1)), (4, r.fill % (max n 1)), (7, r.leftover.toNat),
    (8, packNat 1 (fun s => if r.slots.getD s .empty = .full then 1 else 0) 8), (16, if r.armed then r.pages - r.done else 0)]

/-- Clears the W1C bits `m` of SCR_FLAGS (R148). -/
def Tile.clearScr (t : Tile) (m : Word) : Tile :=
  { t with scrCe := t.scrCe && !m.getLsbD 0, ueForwarded := t.ueForwarded && !m.getLsbD 1
           arrivalSat := t.arrivalSat && !m.getLsbD 3, arrivalLeftover := t.arrivalLeftover && !m.getLsbD 4 }

/-- Hardware sets bits of SCR_FLAGS (R148). -/
def Tile.raiseScr (t : Tile) (m : Word) : Tile :=
  { t with scrCe := t.scrCe || m.getLsbD 0, ueForwarded := t.ueForwarded || m.getLsbD 1, arrivalSat := t.arrivalSat || m.getLsbD 3
           arrivalLeftover := t.arrivalLeftover || m.getLsbD 4, raised := { t.raised with scr := t.raised.scr ||| m } }

/-- Hardware sets bits of MVE_FLAGS (R71). -/
def Tile.raiseMve (t : Tile) (m : Word) : Tile := { t with mveFlags := t.mveFlags ||| m, raised := { t.raised with mve := t.raised.mve ||| m } }

/-- The flags that `f` raises in NMA_FLAGS count as raised in this cycle (R127). -/
def Tile.raisingNma (t : Tile) (f : Tile → Tile) : Tile :=
  let x := f { t with nma := { t.nma with flags := 0 } }
  { x with nma := { x.nma with flags := t.nma.flags ||| x.nma.flags }, raised := { x.raised with nma := x.raised.nma ||| x.nma.flags } }

/-- The check bits of TU_STATUS are set (R82, R93). -/
def Tile.raiseTu (t : Tile) (one two : Bool) : Tile :=
  { t with tu := { t.tu with check1 := t.tu.check1 || one, check2 := t.tu.check2 || two }
           raised := { t.raised with tu := t.raised.tu ||| wordOf [(1, one.toNat), (2, two.toNat)] } }

/-- The row ECC has found an error to correct in what a row held `writes` writes ago: it stands until the row is written, and every read in flight
of the same contents meets it (R141). -/
def Tile.findError (t : Tile) (row writes : Nat) : Tile :=
  { t with ceRows := if writes ≠ 0 ∨ t.ceRows.contains row = true then t.ceRows else row :: t.ceRows
           reads := t.reads.map (fun x => if x.row = row ∧ x.writes = writes then { x with corrected := true } else x) }

/-- A corrected row on a read that is not the engine's (R142); `new` when the error is in what the row holds now. -/
def Tile.ceRead (t : Tile) (row : Nat) (new : Bool) : Tile :=
  let t := { t.raiseScr 1 with ceOther := satInc t.ceOther }
  if new then t.findError row 0 else t

/-- A counter rises by 1 and stays at 0xFFFF (R137). -/
def Tile.count (t : Tile) (c : BitVec 6) : Tile :=
  if t.arrival[c.toNat] = 0xFFFF then t.raiseScr 8
  else { t with arrival := t.arrival.set c.toNat (t.arrival[c.toNat] + 1) }

/-- A transfer's last row has landed in wall cycle `wall`: its counter rises in the next cycle (R137). -/
def Tile.arrive (t : Tile) (wall : Nat) (c : BitVec 6) : Tile := { t with arriving := t.arriving ++ [(wall, c)] }

/-- The end of wall cycle `wall`: the counters of what landed before it have risen (R137). -/
def Tile.arrivals (t : Tile) (wall : Nat) : Tile :=
  (t.arriving.filter (fun p => decide (p.1 < wall))).foldl (fun t p => t.count p.2)
    { t with arriving := t.arriving.filter (fun p => !decide (p.1 < wall)) }

end Sys2Proof.Machine
end

