-- ==== Sys2Proof/Machine/HostState.lean ====
section
/-! DEFINITION. The run and its image (10, 11, 13), and the host interface: rings, streams, pending commands and what the device has driven (14). -/

namespace Sys2Proof.Machine

/-- Device states (R331). -/
inductive DevState
  | boot | ready | loaded | running | stopping | halted | faulted | sanitizing
deriving DecidableEq, Repr

/-- A member's entry in a stage record of the lock-group map (R262). -/
structure StageEntry where
  tile : TileId
  entry : Nat
  refs : List Byte
deriving DecidableEq, Repr

/-- A stage: its records in the lock-group map (R262), the halo declaration (R263) and the power plan (R378). -/
structure Stage where
  group : GroupId
  entries : List StageEntry
  planLen : Nat
  halo : Nat
  outputs : List (BitVec 64)
  uncore : List Nat
  classes : List (TileId × List Byte)
deriving DecidableEq, Repr

/-- A group record of the halo declaration (R263). -/
structure GroupRec where
  group : GroupId
  priority : BitVec 4
  waitLimit : Nat
  rota : List Byte
deriving DecidableEq, Repr

/-- A region with its base (R258). -/
structure Region where
  far : Bool
  length : Nat
  base : Nat
deriving DecidableEq, Repr

/-- What stays of an image once it is applied (R265), or stands ready to be applied. -/
structure Image where
  tileMask : BitVec 64
  debug : Bool
  poisonHalt : Bool
  overflowHalt : Bool
  skip : Bool
  period : Nat
  securityVersion : Word
  measurement : List Byte
  keysets : List Word
  membership : List Byte
  groups : List GroupRec
  stages : List Stage
  regions : List Region
  segments : List Byte
  baseUncore : Nat
  planPeak : Nat
deriving DecidableEq, Repr

/-- A row or sector that a queue has written in this stage (R163): the arrival that names the write, and the wall cycle in which a wait
has consumed it. -/
structure StageWrite where
  place : Place
  tile : TileId
  queue : BitVec 2
  arrival : Option Nat := none
  covered : Option Nat := none
  /-- The wall cycle in which the near tier or the far tier had accepted all of its descriptor (R165). -/
  accepted : Option Nat := none
  /-- Where its data were read, what they were, and the bytes that they fill from where to how many (R163). -/
  read : Option (Place × SectorBits × Nat × Nat) := none
deriving DecidableEq, Repr

/-- What ends a run whose tiles have stopped, and waits for what channels and ports had accepted to land (R167, R193): ABORT, an FLR taken in a device
state, an entry to FAULTED (R348, R420, R433). -/
inductive Ending
  | abort
  | flr (before : DevState)
  | fault (cause : FaultCause) (unit : Nat)
deriving DecidableEq, Repr

/-- The run: device state, image, and what START, STOP and RUN_TO_COUNT set (R331, R345 to R347, R310). -/
structure Run where
  state : DevState := .boot
  resumable : Bool := false
  image : Option Image := none
  /-- A run accepted that waits for its boundary: whether it continues a stopped one. -/
  toBegin : Option Bool := none
  /-- The first stage of the run, or of its continuation, has started. -/
  begun : Bool := false
  /-- The last run tick whose stages ran, to which RESUME adds 1. -/
  lastTick : Option Nat := none
  resumed : Bool := false
  /-- The drain in progress is the one that carries out a STOP (R346). -/
  stopDrain : Bool := false
  /-- RUN_TO_COUNT: tile, run tick and count (R310). -/
  target : Option (TileId × Nat × Nat) := none
  countReached : Bool := false
  /-- Order of halts: the last value given and the wall cycle it was given in (R270). -/
  haltOrder : Nat × Nat := (0, 0)
  hazard : Bool := false
  hazardNext : Bool := false
  /-- Run ticks in which a group overran under SKIP (R353). -/
  skipTicks : List Nat := []
  /-- A STOP accepted before the last stage deadline takes effect at the next boundary (R346, R251). -/
  stopDue : Bool := false
  /-- Destinations of the descriptors that each group's stage has issued, in debug mode (R164). -/
  extents : List (GroupId × Place) := []
  /-- What queues have written in the present stage (R163). -/
  stageWrites : List StageWrite := []
  /-- Arrivals of the present stage that no wait has consumed: tile, counter and number, oldest first; and how many there have been. -/
  arrivals : List (TileId × BitVec 6 × Nat) := []
  arrivalCount : Nat := 0
  /-- The tiles of the run have stopped as at ABORT, and accepted requests have still to land (R167, R193). -/
  ending : Option Ending := none
deriving DecidableEq, Repr

/-- A ring block (R322). `used` counts records posted and not released, `reserved` the entries that records are due to (R326). -/
structure RingBlock where
  sqBase : BitVec 64 := 0
  sqTaken : BitVec 64 := 0
  sqEnable : Bool := false
  sqSize : BitVec 4 := 4
  cqid : BitVec 6 := 0
  sqHead : BitVec 12 := 0
  sqTail : BitVec 12 := 0
  cqBase : BitVec 64 := 0
  cqTaken : BitVec 64 := 0
  cqEnable : Bool := false
  cqSize : BitVec 4 := 4
  ie : Bool := false
  vector : BitVec 11 := 0
  coal : Byte := 0
  cqTail : BitVec 12 := 0
  phase : Bool := true
  cqHead : BitVec 12 := 0
  used : Nat := 0
  reserved : Nat := 0
  unsignalled : Nat := 0
  /-- Records that host memory still takes before the write of one fails, none where none fails (R323; the sender's word, log 82). -/
  fails : Option Nat := none
  status : BitVec 5 := 0
deriving DecidableEq, Repr

/-- A batch record that waits in a backlog, without its phase (R352, R353): batch number, flags, slot, tick, and the run it belongs to. -/
structure BatchRec where
  batch : Word
  flags : Word
  slot : Nat
  tick : Nat
  /-- Whether it counts in POSTED of the present run (R345). -/
  current : Bool
deriving DecidableEq, Repr

/-- A stream (R350 to R354). -/
structure Stream where
  isOpen : Bool := false
  output : Bool := false
  notify : Bool := false
  region : Nat := 0
  cq : BitVec 6 := 0
  first : Nat := 0
  sectors : Nat := 0
  slots : Nat := 0
  period : Nat := 0
  phase : Nat := 0
  hold : Nat := 0
  source : Byte := 0xFF
  hostCount : Word := 0
  devCount : Word := 0
  dbErr : Bool := false
  starvedCount : BitVec 16 := 0
  lappedCount : BitVec 16 := 0
  starved : List Nat := []
  lapped : List Nat := []
  backlog : List BatchRec := []
deriving DecidableEq, Repr

/-- A packet that firmware has fetched (R326): its ring, SQ_HEAD after the fetch, and the completion ring of that moment. -/
structure Fetched where
  packet : Packet
  head : BitVec 12
  cq : BitVec 6
deriving DecidableEq, Repr

/-- What a pending command waits for (R326, R334). -/
inductive JobKind
  /-- BIND_KEYSET: the tier, the parsed table and DNUM, and per directory entry KIND, GALOIS, DIGIT, SEED and its run's placement; the pages
  landed, counted over the runs. -/
  | bind (keyset : Word) (far : Bool) (table : ModTable) (dnum : Nat) (dir : List (BitVec 4 × BitVec 18 × BitVec 4 × BitVec 256 × Nat))
      (landed : List Nat)
  /-- STAGE_KEYS: the KRT entries that move (indices) with the first page of each new run, and the pages landed. -/
  | stage (keyset : Word) (toFar : Bool) (moves : List (Nat × Nat)) (landed : List Nat)
  | start
  | resume
  | stop
  /-- ABORT: run tick and tick cycle in which it took effect (R348). -/
  | abort (runTick cycle : Nat)
  | setTick
  | runToCount (tile : TileId)
  | channelTest (mask : BitVec 256) (pattern : Byte) (first pages count : Nat)
  | peerConfig
  | sanitize (far fromFaulted : Bool)
  | closeStream (stream : BitVec 6)
deriving DecidableEq, Repr

/-- A pending command; of a copy of key pages, the pages begun, each with the sectors of it that have been copied (R222). -/
structure Job where
  kind : JobKind
  cmd : Fetched
  begun : List (Nat × Nat) := []
deriving DecidableEq, Repr

/-- What the device drives: the model's output ports (log 11). -/
inductive Output
  /-- A completion record written to an entry of a completion ring (R327). -/
  | record (cq : BitVec 6) (entry : Nat) (address : Nat) (bytes : List Byte)
  /-- A reply written to host memory (R325). -/
  | reply (address : Nat) (bytes : List Byte)
  /-- An MSI-X message (R321). -/
  | message (vector : BitVec 11)
  /-- A register read completed: of BAR0, or of BAR2 (R319). -/
  | read (offset : Nat) (value : Word)
  | doorbellRead (offset : Nat) (value : Word)
  /-- An access completed as Unsupported Request (R319). -/
  | unsupported
  /-- A window read completed, with the poisoned attribute or not (R320). -/
  | window (bytes : List Byte) (poisoned : Bool)
  /-- A pulse of TICK_OUT, or an edge repeated on it, at a slew setting (R230, R442). -/
  | tickOut (slew : BitVec 2)
  /-- THERMTRIP# asserted (R385). -/
  | thermTrip
  /-- A packet handed to a peer port (R364). -/
  | packet (port : Nat) (header : BitVec 256) (data : SectorBits) (poison : BitVec 32)
  /-- A flit sent: TYPE, SEQ, ACK, CREDITS, and the payload of a DATA or CONTROL flit (R361). -/
  | flit (port : Nat) (type : Nat) (seq ack : BitVec 12) (credits : Byte) (payload : Option (BitVec 1888))
  /-- An SPDM response: its name and its raw contents (R400). -/
  | spdm (name : String) (bytes : List Byte)
deriving DecidableEq, Repr

/-- The host port (14). -/
structure HostPort where
  rings : Vector RingBlock 64 := Vector.replicate 64 {}
  streams : Vector Stream 64 := Vector.replicate 64 {}
  /-- MSI-X table words and pending bits, sparse (R455). -/
  msix : Sparse Word := []
  pba : Sparse Word := []
  bar4Base : Word := 0
  bar4Size : Nat := 4294967296
  windowErr : Bool := false
  windowPoison : Bool := false
  fetched : List Fetched := []
  jobs : List Job := []
  nextRing : Nat := 0
  linkWidth : BitVec 5 := 0
  linkRate : BitVec 7 := 0
  peerHalf : Bool := false
  /-- High words latched by reads of their low words, by offset (R6). -/
  latches : Sparse (Option Word) := []
  out : List Output := []
deriving DecidableEq, Repr

end Sys2Proof.Machine
end

