-- ==== Sys2Proof/Machine/MemState.lean ====
section
/-! DEFINITION. The memory tiers (09), the keys (08 R179, R189, R195) and the lock groups and ticks (10). -/

namespace Sys2Proof.Machine

/-- A memory sector: data and, per DRAM codeword, memory poison (R204). -/
structure Sector where
  data : SectorBits := 0
  poison : BitVec 32 := 0
deriving DecidableEq, Repr

/-- The reduction work that an access is part of (R368 to R373): plan, instance, shard, and whether it folds a result. -/
structure ReduceWork where
  plan : Nat
  e : Nat
  shard : Nat
  fold : Bool
deriving DecidableEq, Repr

/-- An access that waits in a channel's queue for the end of a refresh slot, or at a die link that a replay holds (R208, R244): a write of bytes of a
sector from the BAR4 window, a read through it of parts of sectors (sector, first byte, bytes), an accumulate; a whole sector written, with the peer port
whose packet buffer it empties (R362), a copy, a sector accumulated into another, a module sum sent, a sector poisoned whole, and POISON set in a header,
which queues, reductions and firmware make (R165, R250, R368 to R371); a sector of a key page written; a DMA queue's read and a key fill's reads, the
header's or the b sectors', with the links they cross; a page that Transit stages, a swap of its (R222); and a stream doorbell, which waits behind the BAR4
writes that have not reached their channels (R351). -/
inductive Held
  | write (sector first : Nat) (bytes : List Byte) (poisoned : Bool) (ecc : SectorEcc)
  | read (parts : List (Nat × Nat × Nat)) (ecc : List SectorEcc)
  | accumulate (op : AccOp) (sector : Nat) (operand : SectorBits) (poison : BitVec 32) (prime : Residue) (ecc : SectorEcc)
  | store (sector : Nat) (data : SectorBits) (poison : BitVec 32) (port : Option Nat)
  | copy (dst src : Nat) (ecc : SectorEcc) (work : ReduceWork)
  | fold (op : AccOp) (prime dst src : Nat) (ecc target : SectorEcc) (work : ReduceWork)
  | send (header : BitVec 256) (sector : Nat) (ecc : SectorEcc) (work : ReduceWork)
  | spoil (sector : Nat) (work : Option ReduceWork)
  | mark (sector : Nat) (ecc : SectorEcc) (work : Option ReduceWork)
  | put (page sector : Nat) (x : Sector)
  | fetch (links : List Nat) (channel : Byte) (page : BitVec 16) (sector : BitVec 7) (ecc : SectorEcc)
  | fill (links channels : List Nat) (tile : TileId) (ring : BitVec 2) (body : Bool) (seen : PageFindings)
  | move (channel page : Nat)
  | swap (hot cold : Nat)
  | doorbell (stream : BitVec 6) (value : Word)
deriving DecidableEq, Repr

/-- A channel controller (R223). -/
structure Channel where
  state : BitVec 2 := 0
  extended : Bool := false
  accOvf : Bool := false
  accFp : Bool := false
  retiredHits : BitVec 16 := 0
  ce : BitVec 24 := 0
  ue : BitVec 8 := 0
  errPage : BitVec 16 := 0
  errSector : BitVec 7 := 0
  errKind : BitVec 2 := 0
  /-- Sectors served in the last tick, and consecutive ticks that meet R219. -/
  lastServed : Nat := 0
  hotTicks : Nat := 0
  tgPattern : BitVec 4 := 0
  tgBusy : Bool := false
  tgSeed : BitVec 16 := 1
  tgMismatch : BitVec 24 := 0
  tgPasses : BitVec 8 := 0
  /-- Sectors served in this tick (R219). -/
  served : Nat := 0
  /-- Slots that Transit has used in this tick (R220, R222). -/
  transitUsed : Nat := 0
  /-- The second of the timestamp counter, corrected errors in it, and whether MEM_CE_RATE was logged in it (R205). -/
  ceSec : Nat := 0
  ceSecond : Nat := 0
  ceLogged : Bool := false
  /-- The wall cycle after the refresh slot in progress, and the start of the last one (R208). -/
  refreshEnd : Nat := 0
  refreshLast : Nat := 0
  /-- Requests sampled in this tick, by page, and the 16 pages most served in the last with the count of its samples (R219). -/
  sampled : List (Nat × Nat) := []
  sampledLast : List (Nat × Nat) := []
  samplesLast : Nat := 0
deriving DecidableEq, Repr

/-- A stack's temperature state (R209). -/
structure Stack where
  extended : Bool := false
  /-- It has read above 85 °C and not yet below 82 °C since; the 64 µs after the crossing run. -/
  hot : Bool := false
  timer : Bool := false
  temperature : Byte := 0
deriving DecidableEq, Repr

/-- The remap table: logical page to physical page (channel · 40,960 + page) (R220). -/
abbrev Remap := List (Nat × Nat)

/-- Near and far tiers, Transit and the hash (R196 to R223). -/
structure Mem where
  /-- Near-tier sectors by (channel · 40,960 + page) · 113 + sector; an unlisted one reads as `nearDefault`. -/
  near : Sparse Sector := []
  /-- Pages left undefined by changes of the hash and by tests, latest first: channels, first page, pages, epoch (R203, R213, R420; log 3). -/
  undef : List (BitVec 256 × Nat × Nat × Nat) := []
  /-- Epochs begun so far. -/
  epochs : Nat := 0
  far : Sparse Sector := []
  farEpoch : Nat := 0
  /-- Every mapped far-tier page has been written 0 by SANITIZE since `farEpoch` began (R415). -/
  farZero : Bool := false
  channels : Vector Channel 256 := Vector.replicate 256 {}
  stackOf : Vector Stack 8 := Vector.replicate 8 {}
  hashSeed : BitVec 64 := 1
  hashDie : Bool := false
  hashNext : Option (BitVec 64 × Bool) := none
  hashRows : List (BitVec 16) := [0, 0, 0, 0, 0, 0, 0, 0]
  hashScopeShown : Bool := false
  keyPages : Nat := 8192
  remap : Remap := []
  tableFull : Bool := false
  transitPin : Bool := false
  transitPinNext : Option Bool := none
  hot : BitVec 8 := 0
  hotValid : Bool := false
  /-- Transit has judged the last tick's counts (R219). -/
  hotJudged : Bool := false
  retiredNear : List Nat := []
  retiredFar : List Nat := []
  refreshPin : BitVec 2 := 0
  refreshPinNext : Option (BitVec 2) := none
  overridden : Bool := false
  farUp : BitVec 4 := 0
  farWidth : Bool := false
  farInterleaved : Bool := false
  /-- Links that went down after boot (R218). -/
  farDown : BitVec 4 := 0
  farSlow : Bool := false
  /-- Capacity of each expander in units of 256 MiB, in port order (R216). -/
  farUnits : List Nat := []
deriving DecidableEq, Repr

/-- A KRT entry with its seed (R179). -/
structure KrtEntry where
  keyset : Word
  kind : BitVec 4
  galois : BitVec 18
  digit : BitVec 4
  valid : Bool
  far : Bool
  channel : BitVec 8
  page : BitVec 28
  pages : BitVec 16
  seed : BitVec 256
deriving DecidableEq, Repr

/-- A bound key set (R20, R338), with the digits that its binds have brought: KIND, GALOIS and DIGIT of each run. -/
structure BoundSet where
  table : ModTable
  dnum : Nat
  digits : List (BitVec 4 × BitVec 18 × BitVec 4) := []
deriving DecidableEq, Repr

/-- A fill that a KSU has started (R186, R189): its tile and ring, the fill index, the key as located, the page of its run, the page's prime
and the deadline. `head` is its header sector once that has passed R190, and `checked` the wall cycle it passed in. -/
structure Fill where
  tile : TileId
  ring : BitVec 2
  index : Nat
  key : KrtEntry
  page : Nat
  prime : Nat
  deadline : Nat
  head : Sector := {}
  checked : Option Nat := none
  /-- Its b sectors, once its channel has served their reads. -/
  body : Option (List Sector) := none
  /-- Rows of it that have had their write slots (R131). -/
  landed : Nat := 0
deriving DecidableEq, Repr

/-- A Key Stream Unit (R189, R195). -/
structure Ksu where
  fills : List Fill := []
  late : Bool := false
  mismatch : Bool := false
  ueHeader : Bool := false
  ueData : Bool := false
  farFetch : Bool := false
  lateCount : Word := 0
  /-- The wall cycle from which it can start the next fill: the sector fetches of one issue at five a cycle (R189). -/
  freeAt : Nat := 0
deriving DecidableEq, Repr

/-- The KRT, the bound key sets and the KSUs. -/
structure Keys where
  krt : Sparse (Option KrtEntry) := []
  bound : List BoundSet := []
  ksus : Vector Ksu 4 := Vector.replicate 4 {}
  select : BitVec 16 := 0
  snapshot : List Word := [0, 0, 0, 0]
  /-- Locations installed in the KSUs in the last drain: KRT entries as they stood (R180). -/
  installed : List KrtEntry := []
deriving DecidableEq, Repr

/-- A lock group (R234 to R253). -/
structure Group where
  members : List TileId := []
  die : DieId := 0
  priority : BitVec 4 := 0
  waitLimit : Nat := 0
  rota : List Byte := []
  rotaPos : Nat := 0
  stage : Nat := 0
  active : Bool := false
  started : Bool := false
  ended : Bool := false
  /-- The wall cycle of stage end. -/
  endWall : Nat := 0
  counter : Nat := 0
  pipe : Nat := 0
  /-- The wall cycle of the last schedule cycle issued. -/
  issuedAt : Option Nat := none
  /-- The wall cycle in which the group is known to stand still (the model's own, log 5). -/
  stopped : Option Nat := none
  /-- ECC insertion: frozen cycles still to insert, and the schedule cycle they are for (R241). -/
  eccLeft : Nat := 0
  eccFor : Option Nat := none
  /-- Throttles: first and last frozen wall cycle (R243). -/
  throttles : List (Nat × Nat) := []
  /-- The wall cycle from which a halt or COUNT_REACHED holds the group (R245, R246). -/
  heldFrom : Option Nat := none
  /-- The schedule count from which COUNT_REACHED holds the named tile's group (R310). -/
  heldCount : Option Nat := none
  haloLeft : Int := 0
  haloExhausted : Bool := false
  overrun : Bool := false
  overruns : BitVec 10 := 0
  ecWait : Word := 0
  ecEcc : Word := 0
  ecPwr : Word := 0
  ecDrain : Word := 0
  latched : List Word := [0, 0, 0, 0]
  /-- The stage in which SKIP has stopped it: its requests must land before the drain ends, and firmware poisons the stage's OUTPUTS (R250). -/
  skipped : Option Nat := none
deriving DecidableEq, Repr

/-- The tick unit (R224 to R233, R253). -/
structure Tick where
  period : Nat := 200000
  external : Bool := false
  outEn : Bool := true
  /-- The slew setting in force on TICK_OUT (R442). -/
  slew : BitVec 2 := 1
  /-- What takes effect at the next boundary: P, SOURCE and OUT_EN (R227). -/
  next : Option (Nat × Bool × Bool) := none
  early : Bool := false
  lost : Bool := false
  fallback : Bool := false
  overrun : Bool := false
  drainExtended : Bool := false
  number : BitVec 64 := 0
  runTick : Nat := 0
  cycle : Nat := 0
  quietLast : Nat := 0
  /-- Length of the last tick in cycles. -/
  lastLen : Nat := 0
  /-- The tick runs: BOOT has ended and the core clock has not been lost (R225). -/
  running : Bool := false
  /-- Core cycles since the tick began to run (the model's clock, log 5). -/
  wall : Nat := 0
  /-- Which rows of this cycle the clock has posted (the model's own, log 5). -/
  phase : Nat := 0
  /-- The tick cycle of the boundary that an edge of TICK_IN has set (R228). -/
  edgeAt : Option Nat := none
  /-- A further edge has come before that boundary: it is early in the next tick (R228). -/
  edgeNext : Bool := false
  /-- This tick belongs to a run: its drain did the work of R231. -/
  inRun : Bool := false
  stageStarted : Bool := false
  deadlineDone : Bool := false
  /-- The tick cycle in which the drain ended (R232). -/
  drainEnd : Option Nat := none
  /-- The tick cycle from which firmware's installs of this drain are finished (R232; log 22). -/
  installEnd : Nat := 0
  /-- The tick cycle of the last stage end of the tick (R233). -/
  lastEnd : Option Nat := none
deriving DecidableEq, Repr

end Sys2Proof.Machine
end

