-- ==== Sys2Proof/Machine/Curve.lean ====
section
/-! DEFINITION. The curves P-256 and P-384 and ECDSA over them (R407; FIPS 186-5, log 16). -/

namespace Sys2Proof.Machine

/-- A curve y² = x³ − 3x + b over the field of p, of prime order n with base point (gx, gy). -/
structure Curve where
  bits : Nat
  p : Nat
  b : Nat
  n : Nat
  gx : Nat
  gy : Nat
deriving DecidableEq, Repr

def p256 : Curve :=
  { bits := 256, p := 2 ^ 256 - 2 ^ 224 + 2 ^ 192 + 2 ^ 96 - 1
    b := 0x5AC635D8AA3A93E7B3EBBD55769886BC651D06B0CC53B0F63BCE3C3E27D2604B
    n := 0xFFFFFFFF00000000FFFFFFFFFFFFFFFFBCE6FAADA7179E84F3B9CAC2FC632551
    gx := 0x6B17D1F2E12C4247F8BCE6E563A440F277037D812DEB33A0F4A13945D898C296
    gy := 0x4FE342E2FE1A7F9B8EE7EB4A7C0F9E162BCE33576B315ECECBB6406837BF51F5 }

def p384 : Curve :=
  { bits := 384, p := 2 ^ 384 - 2 ^ 128 - 2 ^ 96 + 2 ^ 32 - 1
    b := 0xB3312FA7E23EE7E4988E056BE3F82D19181D9C6EFE8141120314088F5013875AC656398D8A2ED19D2A85C8EDD3EC2AEF
    n := 0xFFFFFFFFFFFFFFFFFFFFFFFFFFFFFFFFFFFFFFFFFFFFFFFFC7634D81F4372DDF581A0DB248B0A77AECEC196ACCC52973
    gx := 0xAA87CA22BE8B05378EB1C71EF320AD746E1D3B628BA79B9859F741E082542A385502F25DBF55296C3A545E3872760AB7
    gy := 0x3617DE4A96262C6F5D9E98BF9292DC29F8F41DBD289A147CE9DA3113B5F0B8C00A60B1CE1D7E819D7A431D7C90EA0E5F }

/-- A point: none is the point at infinity. -/
abbrev Point := Option (Nat × Nat)

def inverse (q x : Nat) : Nat := (invMod q x).getD 0

def subMod (q a b : Nat) : Nat := (a % q + q - b % q) % q

/-- Whether (x, y) lies on the curve with both coordinates below p (R409). -/
def Curve.on (c : Curve) (x y : Nat) : Bool :=
  decide (x < c.p) && decide (y < c.p) && y * y % c.p == (x * x * x + (c.p - 3) * x + c.b) % c.p

def Curve.add (c : Curve) : Point → Point → Point
  | none, q => q
  | p, none => p
  | some (x1, y1), some (x2, y2) =>
    if x1 = x2 ∧ (y1 + y2) % c.p = 0 then none
    else
      let l := if x1 = x2 then (3 * x1 * x1 + (c.p - 3)) * inverse c.p (2 * y1) % c.p
        else subMod c.p y2 y1 * inverse c.p (subMod c.p x2 x1) % c.p
      let x := subMod c.p (l * l) (x1 + x2)
      some (x, subMod c.p (l * subMod c.p x1 x) y1)

/-- k · P, from the low bit of k up. -/
def Curve.mulAux (c : Curve) : Nat → Nat → Point → Point → Point
  | 0, _, _, acc => acc
  | n + 1, k, P, acc => c.mulAux n (k / 2) (c.add P P) (if k % 2 = 1 then c.add acc P else acc)

def Curve.mul (c : Curve) (k : Nat) (P : Point) : Point := c.mulAux (k.log2 + 1) k P none

/-- Point at infinity is written (0, 0) (R407). -/
def pointXy (P : Point) : Nat × Nat := P.getD (0, 0)

/-- ECDSA verification of (r, s) on a value e already reduced mod n (R407, R409). -/
def Curve.verifies (c : Curve) (e : Nat) (Q : Nat × Nat) (r s : Nat) : Bool :=
  decide (0 < r) && decide (r < c.n) && decide (0 < s) && decide (s < c.n) &&
  (let w := inverse c.n s
   match c.add (c.mul (e % c.n * w % c.n) (some (c.gx, c.gy))) (c.mul (r * w % c.n) (some Q)) with
   | some (x, _) => x % c.n == r
   | none => false)

/-- ECDSA signature with the per-message k. -/
def Curve.sign (c : Curve) (e d k : Nat) : Nat × Nat :=
  let r := (pointXy (c.mul k (some (c.gx, c.gy)))).1 % c.n
  (r, inverse c.n k * (e % c.n + r * d) % c.n)

end Sys2Proof.Machine
end

