-- ==== Sys2Proof/Machine/Sha.lean ====
section
/-! DEFINITION. SHA-384 (FIPS 180-4) and SHAKE256 (FIPS 202), which the spec names and does not restate (log 16). -/

namespace Sys2Proof.Machine

/-- The first 64 bits of the fractional part of the k-th root (2 or 3) of p. -/
def fracRoot (k p : Nat) : BitVec 64 :=
  let rec go : Nat → Nat → Nat → Nat
    | 0, lo, _ => lo
    | n + 1, lo, hi => let m := (lo + hi) / 2; if m ^ k ≤ p * 2 ^ (64 * k) then go n m hi else go n lo m
  BitVec.ofNat 64 (go 70 0 (2 ^ 69))

/-- The first n primes. -/
def firstPrimes (n : Nat) : List Nat :=
  let isPrime := fun (x : Nat) => (List.range (x.sqrt + 1)).all (fun k => k < 2 || x % k != 0)
  ((List.range 420).filter (fun x => 2 ≤ x && isPrime x)).take n

def shaK : List (BitVec 64) := (firstPrimes 80).map (fracRoot 3)

/-- The initial value of SHA-384: square roots of the ninth to the sixteenth prime. -/
def sha384Init : List (BitVec 64) := ((firstPrimes 16).drop 8).map (fracRoot 2)

def bigSig0 (x : BitVec 64) : BitVec 64 := x.rotateRight 28 ^^^ x.rotateRight 34 ^^^ x.rotateRight 39
def bigSig1 (x : BitVec 64) : BitVec 64 := x.rotateRight 14 ^^^ x.rotateRight 18 ^^^ x.rotateRight 41
def smallSig0 (x : BitVec 64) : BitVec 64 := x.rotateRight 1 ^^^ x.rotateRight 8 ^^^ (x >>> 7)
def smallSig1 (x : BitVec 64) : BitVec 64 := x.rotateRight 19 ^^^ x.rotateRight 61 ^^^ (x >>> 6)

/-- The message schedule, latest word first. -/
def shaSchedule : Nat → List (BitVec 64) → List (BitVec 64)
  | 0, w => w
  | n + 1, w => shaSchedule n ((smallSig1 (w.getD 1 0) + w.getD 6 0 + smallSig0 (w.getD 14 0) + w.getD 15 0) :: w)

def shaRound (s : List (BitVec 64)) (kw : BitVec 64) : List (BitVec 64) :=
  match s with
  | [a, b, c, d, e, f, g, h] =>
    let t1 := h + bigSig1 e + ((e &&& f) ^^^ (~~~e &&& g)) + kw
    let t2 := bigSig0 a + ((a &&& b) ^^^ (a &&& c) ^^^ (b &&& c))
    [t1 + t2, a, b, c, d + t1, e, f, g]
  | _ => s

/-- The value of bytes, the first most significant. -/
def beNat (bs : List Byte) : Nat := leNat bs.reverse
def beBytes (n x : Nat) : List Byte := (leBytes n x).reverse

def shaBlock (s : List (BitVec 64)) (block : List Byte) : List (BitVec 64) :=
  let w := (chunksOf 8 block).map (fun c => BitVec.ofNat 64 (beNat c))
  let sched := (shaSchedule 64 w.reverse).reverse
  List.zipWith (· + ·) s ((List.zipWith (· + ·) shaK sched).foldl shaRound s)

/-- SHA-384: 48 bytes. -/
def sha384 (m : List Byte) : List Byte :=
  let pad := (239 - m.length % 128) % 128
  let padded := m ++ [0x80] ++ List.replicate pad 0 ++ beBytes 16 (8 * m.length)
  let s := (chunksOf 128 padded).foldl shaBlock sha384Init
  ((s.take 6).map (fun x => beBytes 8 x.toNat)).flatten

/- Keccak-f[1600]: lane (x, y) is element x + 5y. -/

def keccakRot : List Nat :=
  [0, 1, 62, 28, 27, 36, 44, 6, 55, 20, 3, 10, 43, 25, 39, 41, 45, 15, 21, 8, 18, 2, 61, 56, 14]

/-- Round constants by the LFSR x^8 + x^6 + x^5 + x^4 + 1. -/
def keccakLfsr : Nat → Nat → Nat
  | 0, r => r
  | n + 1, r => keccakLfsr n (let s := r * 2; if 256 ≤ s then s % 256 ^^^ 0x71 else s)

def keccakRc (round : Nat) : BitVec 64 :=
  BitVec.ofNat 64 (((List.range 7).map (fun j => keccakLfsr (j + 7 * round) 1 % 2 * 2 ^ (2 ^ j - 1))).sum)

def keccakRound (a : List (BitVec 64)) (rc : BitVec 64) : List (BitVec 64) :=
  let g := fun (l : List (BitVec 64)) (i : Nat) => l.getD i 0
  let c := (List.range 5).map (fun x => g a x ^^^ g a (x + 5) ^^^ g a (x + 10) ^^^ g a (x + 15) ^^^ g a (x + 20))
  let dl := (List.range 5).map (fun x => g c ((x + 4) % 5) ^^^ (g c ((x + 1) % 5)).rotateLeft 1)
  let th := (List.range 25).map (fun i => (g a i ^^^ g dl (i % 5)).rotateLeft (keccakRot.getD i 0))
  -- B[y, 2x + 3y] = rotated A[x, y]: element (u, v) of B comes from x = (u + 3v) mod 5, y = u
  let b := (List.range 25).map (fun i => g th ((i % 5 + 3 * (i / 5)) % 5 + 5 * (i % 5)))
  ((List.range 25).map (fun i =>
    let y := i / 5
    g b i ^^^ (~~~(g b ((i % 5 + 1) % 5 + 5 * y)) &&& g b ((i % 5 + 2) % 5 + 5 * y)))).modifyHead (· ^^^ rc)

def keccakF (a : List (BitVec 64)) : List (BitVec 64) := ((List.range 24).map keccakRc).foldl keccakRound a

/-- The state after absorbing one padded block (rate 136 bytes; the key material here is 35 bytes). -/
def shakeStart (m : List Byte) : List (BitVec 64) :=
  let block := (m ++ [0x1F] ++ List.replicate (136 - m.length - 1) 0)
  let block := block.set 135 (block.getD 135 0 ||| 0x80)
  keccakF ((List.range 25).map (fun i => BitVec.ofNat 64 (leAt block (8 * i) 8)))

def shakeBlock (a : List (BitVec 64)) : List Byte := ((a.take 17).map (fun x => leBytes 8 x.toNat)).flatten

/-- The accepted values of R176 among 5-byte groups: v mod 2^B with v < q. -/
def acceptGroups (q : Nat) (gs : List (List Byte)) : List Nat :=
  gs.filterMap (fun g => let v := leNat g % 2 ^ (q.log2 + 1); if v < q then some v else none)

/-- Draws candidates block by block until `count` values are accepted or `left` candidates are used: fuel, state, bytes not yet
grouped, values so far. -/
def tailDraw (q count : Nat) : Nat → List (BitVec 64) → List Byte → Nat → List Nat → List Nat
  | 0, _, _, _, acc => acc
  | n + 1, a, rest, left, acc =>
    if count ≤ acc.length ∨ left = 0 then acc
    else
      let bs := rest ++ shakeBlock a
      let k := min (bs.length / 5) left
      tailDraw q count n (keccakF a) (bs.drop (5 * k)) (left - k) (acc ++ acceptGroups q (chunksOf 5 (bs.take (5 * k))))

/-- `expand` of R176 with at most `tries` candidates; short, the rest is 0 and the flag is set (R414). -/
def tailExpand (seed : List Byte) (entry c use q count tries : Nat) : List Nat × Bool :=
  let m := seed ++ [BitVec.ofNat 8 entry, BitVec.ofNat 8 c, BitVec.ofNat 8 use]
  let vs := (tailDraw q count (tries / 27 + 1) (shakeStart m) [] tries []).take count
  (vs ++ List.replicate (count - vs.length) 0, decide (vs.length < count))

end Sys2Proof.Machine
end

