-- ==== Sys2Proof/Machine/Derive.lean ====
section
/-! DEFINITION. Key derivation of the module's identity (17 R398): the KDF, private keys from its bits, the DeviceID public key of a device secret. -/

namespace Sys2Proof.Machine

/-- HMAC with SHA-384 (FIPS 198-1), for keys of at most one block. -/
def hmac384 (key message : List Byte) : List Byte :=
  let k := key ++ List.replicate (128 - key.length) 0
  sha384 (k.map (· ^^^ 0x5C) ++ sha384 (k.map (· ^^^ 0x36) ++ message))

/-- The KDF in counter mode with HMAC-SHA-384 (SP 800-108, R398): `n` bytes from a key, a label and a context. The widths of the counter and of
the length are PRESUMED (log 83). -/
def kdf (key label context : List Byte) (n : Nat) : List Byte :=
  ((List.range ((n + 47) / 48)).flatMap (fun i =>
    hmac384 key (beBytes 4 (i + 1) ++ label ++ [0] ++ context ++ beBytes 4 (8 * n)))).take n

/-- A P-384 private key from 448 KDF bits: reduced mod n − 1 and incremented by 1 (R398). -/
def kdfScalar (key label context : List Byte) : Nat := beNat (kdf key label context 56) % (p384.n - 1) + 1

def publicKey (d : Nat) : Nat × Nat := pointXy (p384.mul d (some (p384.gx, p384.gy)))

/-- The DeviceID private key of a device secret and the measurement of the boot ROM (R398). -/
def deviceKey (uds : List Byte) : Nat := kdfScalar uds (Config.kdfLabel 0) Config.romMeasurement

end Sys2Proof.Machine
end

