-- ==== Sys2Proof/Machine/ServiceState.lean ====
section
/-! DEFINITION. The services of the Nucleus: event log (18), power and clocks (16), security, PKE and flash (17), peer ports and reduction (15), pins (19). -/

namespace Sys2Proof.Machine

/-- A log entry (R426); `data` is bytes 31:16 without trailing zeros. -/
structure LogEntry where
  timestamp : Nat
  tick : BitVec 16
  source : Byte
  code : Byte
  cycle : BitVec 26
  severity : Nat
  run : Bool
  data : List Byte
deriving DecidableEq, Repr

/-- The event log (R426 to R431). -/
structure Log where
  entries : List LogEntry := []
  next : Nat := 0
  alertSev : BitVec 3 := 3
  alertEn : Bool := true
  msiSev : BitVec 3 := 3
  msiEn : Bool := false
  vector : BitVec 11 := 0
  wrapped : Bool := false
  ack : Nat := 0
  select : Word := 0
  snapshot : List Word := [0, 0, 0, 0, 0, 0, 0, 0]
  /-- Positions at or after `ack` that were overwritten, with their severities (R430). -/
  lost : List (Nat × Nat) := []
  /-- A message was sent less than 2 µs ago; an entry of that time waits for the one at its end (R430). -/
  holdOff : Bool := false
  waiting : Bool := false
  /-- The slew setting in force on ALERT# (R442). -/
  slew : BitVec 2 := 1
  /-- How many of the last entries have come in the present Nucleus cycle (R427; log 70). -/
  tail : Nat := 0
  /-- The timestamp counter in units of 1/80,000 ns (R388, R426; log 21). -/
  time : Nat := 0
deriving DecidableEq, Repr

/-- Power arbiter and thermal state (R375 to R386, R393). -/
structure Power where
  budget : Nat := 930
  floor : Nat := 400
  grant : Nat := 930
  by_ : BitVec 2 := 0
  package : BitVec 16 := 0
  input : BitVec 16 := 0
  planPeak : Nat := 0
  events : BitVec 7 := 0
  quanta : Word := 0
  limit : Byte := 105
  junction : List Byte := [0, 0, 0, 0, 0]
  brake : Bool := false
  inputTerm : Nat := 930
  inputSamples : List Nat := []
  /-- Whether the 1 ms average is above 990 W or below 970 W, and 1 µs samples since the term last rose (R383). -/
  sinceRaise : Nat := 0
  loweredThisRun : Bool := false
  hot : List Bool := [false, false, false, false]
  evals : Nat := 0
  /-- The wall cycle of the last evaluation of the grid. -/
  evalAt : Option Nat := none
  /-- The evaluation of R381 found E above the grant: Transit waits. -/
  short : Bool := false
deriving DecidableEq, Repr

/-- Clocks and adaptive loops (R387 to R393). -/
structure Clocks where
  sscEn : Bool := true
  coreLock : Bool := false
  nucLock : Bool := false
  dramLock : Bool := false
  sscOn : Bool := false
  writeIgnored : Bool := false
  refclkLost : Bool := false
  pin : List Bool := [false, false, false, false]
  pinCode : List (BitVec 7) := [72, 72, 72, 72]
  code : List (BitVec 7) := [72, 72, 72, 72]
  overridden : List Bool := [false, false, false, false]
  /-- A pin is being overridden (R392). -/
  overriding : List Bool := [false, false, false, false]
  slack : List Byte := [0, 0, 0, 0]
  /-- The pinned code that the last step of each die's loop took up, none where it took up no pin (R391). -/
  inForce : List (Option (BitVec 7)) := [none, none, none, none]
  eqCtrl : BitVec 4 := 0
  /-- The time at which each interface class was pinned: host, far tier, peer, die links (R391); and how long it has stood pinned before. -/
  eqPinned : List Nat := [0, 0, 0, 0]
  eqFrozen : List Nat := [0, 0, 0, 0]
  /-- The running time of its class at which each link trained last: 0 the host port, 1 to 4 FP0 to FP3, 5 to 8 PP0 to PP3 (R393). -/
  eqTrained : List Nat := [0, 0, 0, 0, 0, 0, 0, 0, 0]
  /-- EQ_LINKl with its measured fields at 0: the replays of each die link (R393). -/
  eqLink : Sparse Word := []
  /-- The wall cycle until which a replay holds each die link's traffic (R244). -/
  linkHold : List Nat := [0, 0, 0, 0, 0, 0, 0, 0]
  /-- Die links that are down (R433, R464). -/
  linksDown : List Nat := []
deriving DecidableEq, Repr

/-- A firmware slot of module flash (R394): its image, SECURITY_VERSION, public key and signature. -/
structure FwSlot where
  image : List Byte
  version : Word
  key : Nat × Nat
  r : Nat
  s : Nat
deriving DecidableEq, Repr

/-- A slot as the module is delivered (log 12). -/
def FwSlot.factory (slotB : Bool) : FwSlot :=
  let x := Config.factoryFirmware slotB
  { image := x.1, version := x.2.1, key := x.2.2.1, r := x.2.2.2.1, s := x.2.2.2.2 }

/-- Module flash (R207, R318, R394, R397, R399, R402, R415); what the spec does not give of it is a choice (log 12). -/
structure Flash where
  slotA : FwSlot := FwSlot.factory false
  slotB : FwSlot := FwSlot.factory true
  /-- The helper data of the PUF, and the SHA-384 digest of the UDS stored with it (R397). -/
  pufHelper : List Byte := Config.pufHelper
  pufDigest : List Byte := sha384 Config.uds
  /-- The certificate chain: root CA, intermediate CA, and the one issued at manufacture to the DeviceID public key (R399). -/
  rootCert : List Byte := Config.rootCert
  intermediateCert : List Byte := Config.intermediateCert
  deviceCert : List Byte := Config.deviceCert (publicKey (deviceKey Config.uds))
  owner : Option OwnerRecord := none
  retired : List (Bool × Nat) := []
  /-- The sanitize-pending mark, with FAR. -/
  sanitize : Option Bool := none
  splitLink : Bool := false
  farFourLinks : Bool := false
deriving DecidableEq, Repr

/-- Security status (R417) and the SPDM responder (R400). -/
structure Sec where
  bootSlot : BitVec 2 := 0
  pufOk : Bool := false
  owner : Option OwnerRecord := none
  drbg : BitVec 2 := 0
  reseeds : BitVec 16 := 0
  rctFail : Bool := false
  aptFail : Bool := false
  /-- Draws made, and generate requests since the last reseed (R412). -/
  draws : Nat := 0
  requests : Nat := 0
  fwSvn : Word := 0
  fwRunning : Bool := false
  /-- Version of the running firmware, 0 while none runs (R453). -/
  fwVersion : Word := 0
  /-- The UDS, the CDI and the DeviceID private key while the boot ROM works with them (R397, R398). -/
  uds : Option (List Byte) := none
  cdi : Option (List Byte) := none
  devicePrivate : Option Nat := none
  /-- What firmware receives: the DeviceID public key, the alias private key and the alias certificate (R398). -/
  devicePublic : Option (Nat × Nat) := none
  aliasPrivate : Option Nat := none
  aliasCert : List Byte := []
  spdmVersion : Bool := false
  spdmCaps : Bool := false
  spdmAlgs : Bool := false
  /-- A large request under assembly, and what is left of a large response (R400). -/
  chunkIn : List Byte := []
  chunkOut : List Byte := []
  /-- Transcript of the requests and responses that CHALLENGE signs. -/
  transcript : List Byte := []
deriving DecidableEq, Repr

/-- Owners of the PKE (R404, R417). -/
inductive PkeOwner
  | boot | firmware | host | none
deriving DecidableEq, Repr

/-- The PKE (R404 to R411): operand slots are sparse, 0 unlisted. -/
structure Pke where
  owner : PkeOwner := .boot
  session : Option (BitVec 3) := none
  idleClosed : Bool := false
  last : Byte := 0
  faults : Byte := 0
  mem : Sparse Nat := []
  /-- Firmware has signature work waiting for the engine (R411). -/
  work : Bool := false
deriving DecidableEq, Repr

/-- States of a peer port (R374). -/
inductive PortState
  | disabled | training | up | down | miswired | conflict
deriving DecidableEq, Repr

/-- A flit kept for replay (R363): TYPE, SEQ and payload. -/
structure SentFlit where
  type : Nat
  seq : BitVec 12
  payload : BitVec 1888
deriving DecidableEq, Repr

/-- A packet on its way out (R364): header, sector, memory poison, and the port it came in by when it is forwarded. -/
structure PeerPacket where
  header : BitVec 256
  data : SectorBits
  poison : BitVec 32
  cameBy : Option Nat
deriving DecidableEq, Repr

/-- A peer port (R357 to R364, R374). -/
structure Port where
  state : PortState := .disabled
  slow : Bool := false
  partner : BitVec 3 := 0
  credits : Nat := 0
  replays : BitVec 16 := 0
  retrains : Byte := 0
  badPkt : Byte := 0
  txSeq : BitVec 12 := 0
  rxSeq : BitVec 12 := 0
  discarding : Bool := false
  /-- Flits sent and not covered by an ACK, oldest first. -/
  replay : List SentFlit := []
  /-- Replays in a row of the oldest flit (R363). -/
  inRow : Nat := 0
  /-- Packet buffers freed and not yet returned (R362), and whether a flit has come whose SEQ no ACK has carried (R361). -/
  freed : Nat := 0
  ackDue : Bool := false
  /-- The receive stream: bytes of a packet that is not complete. -/
  rx : List Byte := []
  /-- Packets that wait for a credit, and bytes of packets begun and not yet in a flit. -/
  queue : List PeerPacket := []
  tx : List Byte := []
  /-- The port has been up since PEER_CONFIG: in TRAINING it retrains (R363). -/
  wasUp : Bool := false
deriving DecidableEq, Repr

/-- The PEER_CONFIG block in force (R359). -/
structure PeerCfg where
  enable : BitVec 4
  board : Byte
  neighbour : List Byte
  route : List Byte
deriving DecidableEq, Repr

/-- One run of a plan (R368 to R373): number, sectors landed, and what has been done. -/
structure Instance where
  e : Nat
  /-- Sectors landed: shard, rank, COPY, sector. -/
  landed : List (Nat × Nat × Bool × Nat) := []
  summed : Bool := false
  folded : Bool := false
deriving DecidableEq, Repr

/-- An installed plan (R365): its block, the first four bytes of its digest, and its runs. -/
structure Plan where
  block : List Byte
  digest : Word
  instances : List Instance := []
  /-- Instances for which REDUCE_DIGEST has been logged (R365). -/
  digestLogged : List Nat := []
deriving DecidableEq, Repr

/-- REDUCE_STATUSn (R374) but for INSTALLED. -/
structure ReduceStatus where
  missing : Bool := false
  late : Bool := false
  digest : Bool := false
  backupUsed : Bool := false
  latePkts : BitVec 16 := 0
deriving DecidableEq, Repr

/-- Peer ports and plans (15). -/
structure Peer where
  config : Option PeerCfg := none
  ports : Vector Port 4 := Vector.replicate 4 {}
  plans : Vector (Option Plan) 16 := Vector.replicate 16 none
  status : Vector ReduceStatus 16 := Vector.replicate 16 {}
deriving DecidableEq, Repr

/-- The rails, VSERDES_A and VSERDES_T, and VCORE0 to VCORE3, each as one (R375, R422). -/
inductive Rail
  | bus12 | vnuc | vserdesA | vserdesT | vdramPp | vdramCore | vdramIo | vcore
deriving DecidableEq, Repr

/-- Pins, rails and the module (19, R375, R385, R422). -/
structure Pins where
  perst : Bool := true
  moduleId : BitVec 3 := 0
  /-- Boot step 1 of a cold boot has completed: ID_LINK shows MODULE_ID (R453). -/
  idRead : Bool := false
  /-- Rails in regulation, the last that came up first (R422). -/
  rails : List Rail := []
  inputPower : Bool := false
  tripped : Bool := false
  slew : BitVec 6 := 0x15
  /-- The slew setting in force on TDO (R442). -/
  tdoSlew : BitVec 2 := 1
  tap : TapInstruction := .bypass
  faultCause : Byte := 0
  faultUnit : Byte := 0
  faultAtBoot : Bool := false
  /-- The coming boot follows a cold reset. -/
  cold : Bool := true
deriving DecidableEq, Repr

/-- A boot in progress (R423): what it meets, and the step that comes next. -/
structure Booting where
  seen : BootSeen
  step : Nat
deriving DecidableEq, Repr

end Sys2Proof.Machine
end

