-- ==== Sys2Proof/Machine/State.lean ====
section
/-! DEFINITION. The whole state of the block, the reasons a step can stop, and the state after reset. -/

namespace Sys2Proof.Machine

/-- The device: everything but the queue of commands. -/
structure Dev where
  tiles : Vector Tile 64 := Vector.replicate 64 {}
  groups : Vector Group 16 := Vector.replicate 16 {}
  tick : Tick := {}
  run : Run := {}
  mem : Mem := {}
  keys : Keys := {}
  host : HostPort := {}
  log : Log := {}
  power : Power := {}
  clocks : Clocks := {}
  sec : Sec := {}
  pke : Pke := {}
  flash : Flash := {}
  peer : Peer := {}
  pins : Pins := {}
  booting : Option Booting := none
  /-- W1C bits outside the tiles that hardware has set in the Nucleus cycle of a wall cycle: the wall cycle, the register's offset, the bits
  (R7; the model's own, log 70). -/
  fresh : List (Nat × Nat × Word) := []
  /-- Accesses that wait for the end of a refresh slot, in the order of their arrival (R208). -/
  held : List Held := []
  /-- Free values drawn so far by the device but its tiles (the model's own, log 7). -/
  free : Nat := 0
deriving DecidableEq, Repr

/-- The state: the device and the commands that wait, first in, first out. -/
structure State where
  pending : List Instr := []
  dev : Dev := {}
deriving DecidableEq, Repr

/-- Why a step stops with a fault. No meaning raises one: the device answers every failed check with a halt of a tile, a
status, a flag or a log entry, each of which is a next state. -/
inductive Fault
  /-- Raised by nobody. Safe. -/
  | stopped
deriving DecidableEq, Repr

/-- Why a command has no meaning. -/
inductive Refusal
  /-- Raised by an arm of `exec` whose command has no meaning yet. Safe. -/
  | notModelled (mnemonic : String)
deriving DecidableEq, Repr

/-- Right after reset: state BOOT with PERST# asserted and the rails off, memories listing nothing, registers at the reset
values of the register tables and, where the spec gives none, at zero (log 1). -/
def State.reset : State := {}

end Sys2Proof.Machine
end

