-- ==== Sys2Proof/Machine/Ops.lean ====
section
/-! DEFINITION. The operations of the device that more than one command uses: parts of the state, the event log, records and pending commands, halts. -/

namespace Sys2Proof.Machine

/-- A meaning that always completes: it changes the device and leaves the queue. -/
def State.act (s : State) (f : Dev → Dev) : Host.Outcome State Fault Refusal := .next { s with dev := f s.dev }

def Dev.tile (d : Dev) (t : TileId) : Tile := d.tiles[t.toNat]
def Dev.setTile (d : Dev) (t : TileId) (x : Tile) : Dev := { d with tiles := d.tiles.set t.toNat x }
def Dev.group (d : Dev) (g : GroupId) : Group := d.groups[g.toNat]
def Dev.setGroup (d : Dev) (g : GroupId) (x : Group) : Dev := { d with groups := d.groups.set g.toNat x }
def Dev.ring (d : Dev) (n : BitVec 6) : RingBlock := d.host.rings[n.toNat]
def Dev.setRing (d : Dev) (n : BitVec 6) (r : RingBlock) : Dev := { d with host := { d.host with rings := d.host.rings.set n.toNat r } }
def Dev.stream (d : Dev) (n : BitVec 6) : Stream := d.host.streams[n.toNat]
def Dev.setStream (d : Dev) (n : BitVec 6) (x : Stream) : Dev := { d with host := { d.host with streams := d.host.streams.set n.toNat x } }

/-- A change of every tile that `p` names. -/
def Dev.mapTiles (d : Dev) (p : TileId → Bool) (f : TileId → Tile → Tile) : Dev :=
  { d with tiles := Vector.ofFn (fun i : Fin 64 => if p (BitVec.ofNat 6 i.val) then f (BitVec.ofNat 6 i.val) d.tiles[i] else d.tiles[i]) }

/-- A change of every lock group. -/
def Dev.mapGroups (d : Dev) (f : GroupId → Group → Group) : Dev :=
  { d with groups := Vector.ofFn (fun i : Fin 16 => f (BitVec.ofNat 4 i.val) d.groups[i]) }

def allGroups : List GroupId := (List.range 16).map (BitVec.ofNat 4)
def allTiles : List TileId := (List.range 64).map (BitVec.ofNat 6)
def allStreams : List (BitVec 6) := (List.range 64).map (BitVec.ofNat 6)

/-- The lock group of a tile (R234). -/
def Dev.groupOf (d : Dev) (t : TileId) : Option GroupId := allGroups.find? (fun g => (d.group g).members.contains t)

/-- Compute die of a tile (R12). -/
def dieOf (t : TileId) : DieId := BitVec.ofNat 2 (t.toNat / 16)

/-- Whether a tile is one of the loaded image's (R255). -/
def Dev.inImage (d : Dev) (t : TileId) : Bool := match d.run.image with | some im => im.tileMask.getLsbD t.toNat | none => false

/-- The device is in RUNNING or STOPPING. -/
def Run.going (r : Run) : Bool := r.state == .running || r.state == .stopping

/-- A run goes on: its tiles have not stopped as at ABORT (R348). -/
def Dev.running (d : Dev) : Bool := d.run.going && d.run.ending.isNone

def Dev.emit (d : Dev) (o : Output) : Dev := { d with host := { d.host with out := d.host.out ++ [o] } }

/-- A fresh free value of the device (log 7). -/
def Dev.freeValue (d : Dev) : Nat := Config.freeNat 64 d.free
def Dev.drew (d : Dev) : Dev := { d with free := d.free + 1 }

/-- Whether two wall cycles lie in one Nucleus cycle, which is two core cycles long (R3). -/
def sameNucleus (a b : Nat) : Bool := a / 2 == b / 2

/-- Hardware sets W1C bits of the register at an offset: a clear in the same Nucleus cycle leaves them set (R7). -/
def Dev.mark (d : Dev) (off : Nat) (bits : Word) : Dev :=
  { d with fresh := (d.tick.wall, off, bits) :: d.fresh.filter (fun x => sameNucleus x.1 d.tick.wall) }

/-- Registers outside the tiles that have W1C bits: WINDOW_STATUS, TICK_STATUS, REDUCE_STATUSn and LG_STATUS, RING_STATUS, stream and log status,
PWR_EVENTS, CLK_STATUS, AVS and PKE status, CH_STATUS, REFRESH_STATUS and the KSU flags (R7). -/
def w1cAt (off : Nat) : Bool :=
  [0x1008, 0x1024, 0x30004, 0x40014, 0x50004, 0x6000C, 0x140024].contains off || (decide (0x1200 ≤ off) && decide (off < 0x1600)) ||
  (decide (0x10000 ≤ off) && decide (off < 0x11000) && off % 64 == 0x20) || (decide (0x11000 ≤ off) && decide (off < 0x11800) && off % 32 == 0) ||
  (decide (0x50010 ≤ off) && decide (off < 0x50030) && off % 8 == 4) || (decide (0x100000 ≤ off) && decide (off < 0x140000) && off % 1024 == 0) ||
  (decide (0x200000 ≤ off) && decide (off < 0x200400) && off % 256 == 4)

/-- What of a write to the register at an offset can clear: not the bits that hardware has set in this Nucleus cycle (R7). -/
def Dev.clearing (d : Dev) (off : Nat) (v : Word) : Word :=
  if d.tick.running && w1cAt off then
    d.fresh.foldl (fun v x => if sameNucleus x.1 d.tick.wall && x.2.1 == off then v &&& ~~~x.2.2 else v) v
  else v

/-- Whether firmware, not the ROM responder, runs (R395). -/
def Dev.firmware (d : Dev) : Bool := d.sec.fwRunning

/- Rails and power (R375, R385, R422). -/

/-- The order in which the rails come up (R422). -/
def railOrder : List Rail := [.bus12, .vnuc, .vserdesA, .vserdesT, .vdramPp, .vdramCore, .vdramIo, .vcore]

/-- A rail comes up only after those before it in the order are in regulation (R422). -/
def railUp (up : List Rail) (r : Rail) : List Rail := if (railOrder.takeWhile (· != r)).all up.contains && !up.contains r then r :: up else up

/-- A rail turned off. -/
def railOff (up : List Rail) (r : Rail) : List Rail := up.filter (· != r)

/-- All rails in regulation. -/
def Pins.up (p : Pins) : Bool := railOrder.all p.rails.contains

/-- A device fresh from reset but for what every reset leaves: the model's own counters, what has been driven, and the level of PWR_BRAKE#, which
the board holds (R446). -/
def Dev.afresh (d : Dev) : Dev :=
  { tiles := d.tiles.map (fun t => { free := t.free })
    mem := { epochs := d.mem.epochs + 1, farEpoch := d.mem.farEpoch + 1 }
    host := { out := d.host.out }
    power := { brake := d.power.brake }
    sec := { draws := d.sec.draws }
    flash := d.flash
    free := d.free }

/-- The rails are turned off in the reverse order (R422): nothing but flash lasts (R418, R419). -/
def Dev.off (d : Dev) : Dev := { d.afresh with pins := { rails := railOrder.reverse.foldl railOff d.pins.rails } }

/-- THERMTRIP# asserted, every rail off until input power is removed (R385). -/
def Dev.trip (d : Dev) : Dev :=
  let e := (d.emit .thermTrip).off
  { e with pins := { e.pins with moduleId := d.pins.moduleId, inputPower := true, tripped := true } }

/-- What the host or a pin asks of the device: nothing is acted on after a trip (R446). -/
def Dev.unlessTripped (d : Dev) (f : Dev → Dev) : Dev := if d.pins.tripped then d else f d

/- Adaptive loops (R391, R393). -/

def Dev.onClocks (d : Dev) (f : Clocks → Clocks) : Dev := { d with clocks := f d.clocks }

/-- How long the equalisation loops of a class have run: they stand still while EQ_CTRL pins them (R391). -/
def Dev.eqRunning (d : Dev) (cls : Nat) : Nat :=
  (if d.clocks.eqCtrl.getLsbD cls then d.clocks.eqPinned.getD cls 0 else d.log.time) - d.clocks.eqFrozen.getD cls 0

/-- Interface class of a link: 0 the host port, 1 to 4 FP0 to FP3, 5 to 8 PP0 to PP3. -/
def linkClass (l : Nat) : Nat := if l = 0 then 0 else if l < 5 then 1 else 2

/-- An off-package link has trained: its lanes count tap changes from now on (R393). -/
def Dev.linkTrains (d : Dev) (l : Nat) : Dev := d.onClocks (fun c => { c with eqTrained := c.eqTrained.set l (d.eqRunning (linkClass l)) })

/- MSI-X (R321, R455). -/

/-- The MSI-X table and the pending-bit array in BAR0: their offsets, and the entries of the table (R455). -/
def msixTableAt : Nat := 0x18000
def msixPbaAt : Nat := 0x20000
def msixEntries : Nat := 2048

/-- The function's MSI-X capability (R455): ID and Message Control, Table Offset and BIR, PBA Offset and BIR, in PCIe's layout (PRESUMED, log 23). The
function of BAR0 that they name is BIR 0. No row of the table reads configuration space. -/
def msixCapability : List Word := [BitVec.ofNat 32 (0x11 + (msixEntries - 1) * 2 ^ 16), BitVec.ofNat 32 (msixTableAt + 0), BitVec.ofNat 32 (msixPbaAt + 0)]

/-- An MSI-X table word at reset: entries masked, the rest 0 (PCIe's values, log 23). -/
def msixDefault : Nat → Word := fun k => if k % 4 = 3 then 1 else 0
def pbaDefault : Nat → Word := fun _ => 0

def HostPort.masked (h : HostPort) (v : Nat) : Bool := (Store.read msixDefault h.msix (4 * v + 3)).getLsbD 0

/-- The vector is sent, or stays pending while its table entry is masked. -/
def Dev.message (d : Dev) (v : BitVec 11) : Dev :=
  if d.host.masked v.toNat then
    let w := Store.read pbaDefault d.host.pba (v.toNat / 32)
    { d with host := { d.host with pba := Store.write pbaDefault d.host.pba (v.toNat / 32) (w ||| BitVec.ofNat 32 (2 ^ (v.toNat % 32))) } }
  else d.emit (.message v)

/- The event log (R426 to R430). -/

/-- An event: code and severity (R429). -/
abbrev Event := Nat × Nat

def evBootDone : Event := (0x01, 0)
def evFlrDone : Event := (0x02, 1)
def evStateChange : Event := (0x03, 0)
def evDeviceFault : Event := (0x04, 4)
def evFwAuthFail : Event := (0x05, 4)
def evPufFail : Event := (0x06, 4)
def evEntropyFail : Event := (0x07, 4)
def evClockLost : Event := (0x08, 4)
def evSanitized : Event := (0x09, 1)
def evRingError : Event := (0x0A, 3)
def evTileHalt (countReached : Bool) : Event := (0x10, if countReached then 0 else 3)
def evTickOverrun (skip : Bool) : Event := (0x11, if skip then 2 else 3)
def evDrainLate : Event := (0x12, 2)
def evTickEarly : Event := (0x13, 2)
def evTickInLost : Event := (0x14, 3)
def evSentinelFault : Event := (0x15, 3)
def evScratchUe : Event := (0x16, 3)
def evStreamStarved : Event := (0x17, 2)
def evStreamLapped : Event := (0x18, 2)
def evMemCeRate : Event := (0x20, 2)
def evMemUe : Event := (0x21, 3)
def evDramHot : Event := (0x22, 2)
def evHotChannel : Event := (0x23, 2)
def evTransitTableFull : Event := (0x24, 2)
def evFarTimeout : Event := (0x25, 3)
def evFarLinkDown : Event := (0x26, 3)
def evFarWriteLost : Event := (0x27, 3)
def evPeerIdConflict : Event := (0x30, 3)
def evPeerMiswire : Event := (0x31, 3)
def evPeerRouteLoop : Event := (0x32, 2)
def evPeerLinkDown : Event := (0x33, 3)
def evReduceDigest : Event := (0x34, 3)
def evReduceMissing : Event := (0x35, 2)
def evReduceLate : Event := (0x36, 2)
def evReduceAbandoned : Event := (0x37, 1)
def evPwrBrake : Event := (0x40, 1)
def evPwrInputLimit : Event := (0x41, 2)
def evPwrThermal : Event := (0x42, 2)
def evPwrBelowPlan : Event := (0x43, 2)
def evAvsOverride : Event := (0x44, 2)
def evPkeFault : Event := (0x50, 3)
def evPkeIdleClose : Event := (0x51, 1)

/- Sources (R428). -/
def srcDie (d : DieId) : Nat := 0x40 + d.toNat
def srcFirmware : Nat := 0x44
def srcRom : Nat := 0x45
def srcArbiter : Nat := 0x46
def srcTick : Nat := 0x47
def srcHost : Nat := 0x48
def srcFar : Nat := 0x49
def srcPort (k : Nat) : Nat := 0x4A + k
def srcPke : Nat := 0x4E
def srcEntropy : Nat := 0x4F

/-- DATA of an entry: fields as (entry byte, value). -/
def logData (fs : List (Nat × Nat)) : List Byte := leBytes 16 ((fs.map (fun p => p.2 * 2 ^ (8 * (p.1 - 16)))).sum)

/-- Whether an entry of this severity at a position asserts ALERT# (R430). -/
def Log.asserts (l : Log) (pos sev : Nat) : Bool := decide (l.ack ≤ pos) && decide (l.alertSev.toNat ≤ sev)

def Log.firstPos (l : Log) : Nat := l.next - l.entries.length

/-- ALERT# as the log drives it (R430). -/
def Log.alert (l : Log) : Bool :=
  l.alertEn && (l.lost.any (fun p => l.asserts p.1 p.2) ||
    (l.entries.zipIdx).any (fun p => l.asserts (l.firstPos + p.2) p.1.severity))

/-- The entries of the present Nucleus cycle. -/
def Log.recent (l : Log) (entries : List LogEntry) : List LogEntry := entries.drop (entries.length - l.tail)

/-- An entry among the last ones: those of one Nucleus cycle stand in ascending SOURCE (R427). -/
def Log.place (l : Log) (entries : List LogEntry) (e : LogEntry) : List LogEntry :=
  let r := l.recent entries
  entries.take (entries.length - l.tail) ++ r.takeWhile (fun x => x.source.ule e.source) ++ [e] ++ r.dropWhile (fun x => x.source.ule e.source)

/-- Appends an entry; at 4,096 it overwrites the oldest (R427), which is lost where it has not been acknowledged (R430). -/
def Log.append (l : Log) (e : LogEntry) : Log :=
  match l.entries with
  | o :: rest =>
    if l.entries.length = 4096 then
      { l with entries := l.place rest e, next := l.next + 1, wrapped := true
               lost := if l.ack ≤ l.firstPos then l.lost ++ [(l.firstPos, o.severity)] else l.lost }
    else { l with entries := l.place l.entries e, next := l.next + 1 }
  | [] => { l with entries := [e], next := l.next + 1 }

/-- An entry reaches the Nucleus, `together` with those of its cycle, or on its own while no cycle is counted (log 70); the entries of one cycle have
one timestamp (R427). -/
def Log.arrive (l : Log) (together : Bool) (e : LogEntry) : Log :=
  let l := if together then l else { l with tail := 0 }
  let m := l.append { e with timestamp := match l.recent l.entries with | x :: _ => x.timestamp | [] => e.timestamp }
  { m with tail := if together then m.tail + 1 else 0 }

/-- The log after a change, seen from ALERT#: a falling edge of the pin takes up the slew setting that SB_SLEW holds (R442). -/
def Dev.alertEdge (d : Dev) (l : Log) : Log := if l.alert && !d.log.alert then { l with slew := d.pins.slew.extractLsb' 2 2 } else l

/-- Logs an event and signals it (R426, R430). -/
def Dev.event (d : Dev) (source : Nat) (ev : Event) (data : List (Nat × Nat)) : Dev :=
  let d := if d.log.entries.length = 4096 then d.mark 0x30004 0x2000 else d
  let e : LogEntry :=
    { timestamp := d.log.time / 80000, tick := d.tick.number.setWidth 16, source := BitVec.ofNat 8 source
      code := BitVec.ofNat 8 ev.1, cycle := BitVec.ofNat 26 d.tick.cycle, severity := ev.2, run := d.run.going, data := logData data }
  let d := { d with log := d.alertEdge (d.log.arrive d.tick.running e) }
  if d.log.msiEn && decide (d.log.msiSev.toNat ≤ ev.2) then
    if d.log.holdOff then { d with log := { d.log with waiting := true } }
    else { d with log := { d.log with holdOff := true } }.message d.log.vector
  else d

def DevState.code : DevState → Nat
  | .boot => 0
  | .ready => 1
  | .loaded => 2
  | .running => 3
  | .stopping => 4
  | .halted => 5
  | .faulted => 6
  | .sanitizing => 7

/-- A pulse or an edge on TICK_OUT, which takes up the slew setting that SB_SLEW holds (R230, R442, R446). -/
def Dev.pulse (d : Dev) : Dev :=
  ({ d with tick := { d.tick with slew := d.pins.slew.extractLsb' 0 2 } }).emit (.tickOut (d.pins.slew.extractLsb' 0 2))

/-- A change of device state, logged but for the departure from BOOT (R429). -/
def Dev.enter (d : Dev) (next : DevState) (opcode : Nat) : Dev :=
  let d := if d.run.state = .boot then d
    else d.event srcFirmware evStateChange [(16, d.run.state.code), (17, next.code), (18, opcode)]
  { d with run := { d.run with state := next } }

/- Commands and records (R325 to R334). -/

/-- Status codes (R330). -/
inductive Status
  | ok | badOpcode | badParam | state | busy | noResource | authFail | powerPlan | imageFormat | keyNotResident | aborted
  | deviceFault | pending
deriving DecidableEq, Repr

def Status.code : Status → Nat
  | .ok => 0
  | .badOpcode => 1
  | .badParam => 2
  | .state => 3
  | .busy => 4
  | .noResource => 5
  | .authFail => 6
  | .powerPlan => 7
  | .imageFormat => 8
  | .keyNotResident => 9
  | .aborted => 10
  | .deviceFault => 11
  | .pending => 12

end Sys2Proof.Machine

namespace Sys2Proof

open Sys2Proof.Machine

def Packet.get (c : Packet) (byte n : Nat) : Nat := field c.bits.toNat (8 * byte) (8 * n)
def Packet.opcode (c : Packet) : Nat := c.get 0 1
def Packet.ack (c : Packet) : Bool := c.bits.getLsbD 8
def Packet.fence (c : Packet) : Bool := c.bits.getLsbD 9
def Packet.commandId (c : Packet) : Nat := c.get 4 4
def Packet.paramLen (c : Packet) : Nat := c.get 16 4
def Packet.replyLen (c : Packet) : Nat := c.get 20 4
def Packet.replyPtr (c : Packet) : Nat := c.get 24 8
/-- n inline bytes from inline byte k (R325). -/
def Packet.inl (c : Packet) (k n : Nat) : Nat := c.get (32 + k) n

/-- Step 2 of R332 on the packet: reserved bits, pointers, lengths, and inline bits outside `inline` (a mask of inline bits). -/
def Packet.fieldsOk (c : Packet) (paramLen replyLen : Option Nat) (inlineMask : Nat) : Bool :=
  field c.bits.toNat 10 22 == 0 &&
  (match paramLen with
    | some n => c.get 8 8 % 64 == 0 && c.paramLen == n
    | none => c.get 8 8 == 0 && c.paramLen == 0) &&
  (match replyLen with
    | some n => c.replyPtr % 64 == 0 && decide (n ≤ c.replyLen)
    | none => c.replyPtr == 0 && c.replyLen == 0) &&
  (c.inl 0 32 &&& inlineMask) == c.inl 0 32

end Sys2Proof

namespace Sys2Proof.Machine

/-- The mask of inline bytes a to a + n − 1. -/
def inlBytes (a n : Nat) : Nat := (2 ^ (8 * n) - 1) * 2 ^ (8 * a)

/-- DETAIL: fields as (byte, value) (R327). -/
def detailOf (fs : List (Nat × Nat)) : List Byte := leBytes 20 ((fs.map (fun p => p.2 * 2 ^ (8 * p.1))).sum)

/-- Entries of a ring. -/
def ringSize (log2 : BitVec 4) : Nat := 2 ^ log2.toNat

/-- Entries of a completion ring that no record is due to (R326). -/
def RingBlock.room (r : RingBlock) : Nat := ringSize r.cqSize - r.used - r.reserved

def RingBlock.flag (r : RingBlock) (n : Nat) : RingBlock := { r with status := r.status ||| BitVec.ofNat 5 (2 ^ n) }

/-- A ring block as `r` with bit n of RING_STATUS set by hardware (R322). -/
def Dev.flagRing (d : Dev) (cq : BitVec 6) (r : RingBlock) (n : Nat) : Dev :=
  (d.setRing cq (r.flag n)).mark (0x10020 + 64 * cq.toNat) (BitVec.ofNat 32 (2 ^ n))

/-- Writes one record to a completion ring (R328, R329). `bytes` is the record with PHASE 0. A write that fails disables the ring, and its
record and those to come are lost (R323). -/
def Dev.postRecord (d : Dev) (cq : BitVec 6) (bytes : List Byte) : Dev :=
  let r := d.ring cq
  if r.cqEnable && r.fails == some 0 then
    (d.flagRing cq { r with cqEnable := false } 3).event srcHost evRingError [(16, cq.toNat), (17, 2)]
  else if r.cqEnable then
    let b3 := byteAt bytes 3 + r.phase.toNat
    let full := bytes.set 3 (BitVec.ofNat 8 b3)
    let t := r.cqTail.toNat
    let wrap := decide (t + 1 = ringSize r.cqSize)
    let n := r.unsignalled + 1
    let fire := r.ie && decide (r.coal.toNat + 1 ≤ n)
    let r' := { r with cqTail := if wrap then 0 else r.cqTail + 1, phase := if wrap then !r.phase else r.phase, used := r.used + 1
                       unsignalled := if fire then 0 else n, fails := r.fails.map (· - 1) }
    let d := (d.setRing cq r').emit (.record cq t (r.cqTaken.toNat + 32 * t) full)
    if fire then d.message r.vector else d
  else d

/-- A command record with PHASE 0 (R327). -/
def commandRecord (d : Dev) (f : Fetched) (st : Status) (detail : List Byte) : List Byte :=
  leBytes 12 (st.code + d.run.state.code * 2 ^ 8 + f.packet.opcode * 2 ^ 16 + f.packet.commandId * 2 ^ 32 + f.head.toNat * 2 ^ 64 +
    f.packet.sq.toNat * 2 ^ 80) ++ detail

/-- Gives back reserved entries of a completion ring (R326). -/
def Dev.unreserve (d : Dev) (cq : BitVec 6) (n : Nat) : Dev := d.setRing cq { d.ring cq with reserved := (d.ring cq).reserved - n }

/-- No DETAIL. -/
def noDetail : List Byte := detailOf []

/-- The final record of a command: it takes one reserved entry, and a second one that no PENDING record took is released (R326). -/
def Dev.finalRecord (d : Dev) (f : Fetched) (wasPending : Bool) (st : Status) (detail : List Byte) : Dev :=
  (d.unreserve f.cq (if f.packet.ack && !wasPending then 2 else 1)).postRecord f.cq (commandRecord d f st detail)

/- Batch records that wait for room (R352, R354). -/

/-- A batch record with PHASE 0 (R327, R353). -/
def batchBytes (d : Dev) (n : BitVec 6) (r : BatchRec) : List Byte :=
  leBytes 12 (d.run.state.code * 2 ^ 8 + 2 * 2 ^ 24 + r.batch.toNat * 2 ^ 32 + n.toNat * 2 ^ 80) ++
  detailOf [(0, r.flags.toNat), (4, r.slot), (8, r.tick % 2 ^ 32)]

/-- Posts one batch record. POSTED becomes its number plus 1 (R350, R352); a record of an earlier run does not count (R345). -/
def Dev.postBatch (d : Dev) (n : BitVec 6) (r : BatchRec) : Dev :=
  let s := d.stream n
  let d := if s.output && r.current then d.setStream n { s with devCount := r.batch + 1 } else d
  d.postRecord s.cq (batchBytes d n r)

/-- Posts the backlog of a stream, in order, as far as its CQ has room (R352); at most `k` records. -/
def Dev.flushBacklog : Nat → Dev → BitVec 6 → Dev
  | 0, d, _ => d
  | k + 1, d, n =>
    match (d.stream n).backlog with
    | [] => d
    | r :: rest =>
      if (d.ring (d.stream n).cq).room = 0 then d
      else ((d.setStream n { d.stream n with backlog := rest }).postBatch n r).flushBacklog k n

def Dev.flushStream (d : Dev) (n : BitVec 6) : Dev := d.flushBacklog (d.stream n).backlog.length n

/-- A stream closed; what is left of its backlog is discarded. -/
def Dev.shut (d : Dev) (n : BitVec 6) : Dev := d.setStream n { d.stream n with isOpen := false, backlog := [] }

/-- DETAIL of CLOSE_STREAM (R354). -/
def Dev.closeDetail (d : Dev) (n : BitVec 6) : List Byte := detailOf [(0, (d.stream n).devCount.toNat)]

/-- A pending CLOSE_STREAM completes. -/
def Dev.finishClose (d : Dev) (j : Job) (detail : List Byte) : Dev :=
  ({ d with host := { d.host with jobs := d.host.jobs.erase j } }).finalRecord j.cmd true .ok detail

/-- Pending CLOSE_STREAMs go on as entries free up, in any state; other backlogs only where batch records are posted (R349, R352, R354). -/
def Dev.entriesFreed (d : Dev) (cq : BitVec 6) : Dev :=
  (allStreams.filter (fun n => (d.stream n).isOpen && (d.stream n).cq == cq)).foldl (fun d n =>
    match d.host.jobs.find? (fun j => match j.kind with | .closeStream m => m == n | _ => false) with
    | some j =>
      let d := d.flushStream n
      if (d.stream n).backlog.isEmpty then (d.shut n).finishClose j (d.closeDetail n) else d
    | none => if d.running || d.run.state == .loaded then d.flushStream n else d) d

/-- Completes a command (R326). An entry that it releases goes to the records that wait for room (R352). -/
def Dev.complete (d : Dev) (f : Fetched) (wasPending : Bool) (st : Status) (detail : List Byte) : Dev :=
  let d := d.finalRecord f wasPending st detail
  if f.packet.ack && !wasPending then d.entriesFreed f.cq else d

/-- A command becomes pending, with its PENDING record under ACK = 1 (R326). -/
def Dev.becomePending (d : Dev) (f : Fetched) (k : JobKind) : Dev :=
  let d := if f.packet.ack then (d.unreserve f.cq 1).postRecord f.cq (commandRecord d f .pending noDetail) else d
  { d with host := { d.host with jobs := d.host.jobs ++ [{ kind := k, cmd := f }] } }

/-- Whether a job is a pending command: PEER_CONFIG is not, it executes until it completes (R326). -/
def JobKind.pends : JobKind → Bool
  | .peerConfig => false
  | _ => true

/-- A pending command completes. -/
def Dev.finish (d : Dev) (j : Job) (st : Status) (detail : List Byte) : Dev :=
  let d : Dev := { d with host := { d.host with jobs := d.host.jobs.erase j } }
  d.complete j.cmd j.kind.pends st detail

/-- Completes every pending command that `p` names, in order. -/
def Dev.finishAll (d : Dev) (p : JobKind → Bool) (st : Status) (detail : Job → List Byte) : Dev :=
  (d.host.jobs.filter (fun j => p j.kind)).foldl (fun d j => d.finish j st (detail j)) d

/-- Opcodes that the acceptance table defines (R333). -/
def opcodeDefined (n : Nat) : Bool :=
  [0x01, 0x02, 0x10, 0x11, 0x12, 0x13, 0x14, 0x15, 0x20, 0x21, 0x22, 0x23, 0x24, 0x30, 0x31, 0x40, 0x41, 0x42, 0x50, 0x51, 0x60,
    0x61, 0x70, 0x71, 0x72, 0x73, 0x80, 0x81].contains n

/-- The next command to execute: the first fetched one that FENCE does not hold, and that no held one of its ring precedes
(R326). A PEER_CONFIG that still trains holds all. -/
def nextOf (jobs : List Job) : List (BitVec 6) → List Fetched → Option Fetched
  | _, [] => none
  | held, f :: fs =>
    if held.contains f.packet.sq || (f.packet.fence && jobs.any (fun j => j.cmd.packet.sq == f.packet.sq)) then
      nextOf jobs (f.packet.sq :: held) fs
    else some f

def HostPort.nextCmd (h : HostPort) : Option Fetched :=
  if h.jobs.any (fun j => match j.kind with | .peerConfig => true | _ => false) then none else nextOf h.jobs [] h.fetched

def Dev.take (d : Dev) (f : Fetched) : Dev := { d with host := { d.host with fetched := d.host.fetched.erase f } }

/-- Completes commands at the front whose opcode is not defined (step 1 of R332). -/
def Dev.pump : Nat → Dev → Dev
  | 0, d => d
  | n + 1, d =>
    match d.host.nextCmd with
    | some f => if opcodeDefined f.packet.opcode then d else ((d.take f).complete f false .badOpcode noDetail).pump n
    | none => d

def Dev.pumpAll (d : Dev) : Dev := d.pump d.host.fetched.length

/-- A meaning in which a pending command may end: firmware then goes on with what it has fetched (R326, R332). -/
def State.event (s : State) (f : Dev → Dev) : Host.Outcome State Fault Refusal := s.act (fun d => (f d).pumpAll)

/-- States in which a command passes step 3 of R332 (R333). -/
def accepts (opcode : Nat) (st : DevState) : Bool :=
  match st with
  | .boot => false
  | .ready => [0x01, 0x02, 0x10, 0x12, 0x13, 0x14, 0x15, 0x24, 0x50, 0x51, 0x60, 0x61, 0x70, 0x71, 0x72, 0x73, 0x80].contains opcode
  | .loaded => [0x01, 0x02, 0x11, 0x12, 0x13, 0x14, 0x15, 0x20, 0x23, 0x24, 0x30, 0x31, 0x40, 0x42, 0x50, 0x51, 0x70, 0x71, 0x72, 0x73,
      0x81].contains opcode
  | .running => [0x01, 0x02, 0x12, 0x13, 0x14, 0x21, 0x22, 0x50, 0x51, 0x70, 0x71, 0x72].contains opcode
  | .stopping => [0x01, 0x02, 0x12, 0x13, 0x14, 0x21, 0x22, 0x50, 0x51, 0x70, 0x71, 0x72].contains opcode
  | .halted => [0x01, 0x02, 0x11, 0x12, 0x13, 0x14, 0x15, 0x31, 0x41, 0x50, 0x51, 0x70, 0x71, 0x72, 0x73].contains opcode
  | .faulted => [0x01, 0x02, 0x50, 0x51, 0x73].contains opcode
  | .sanitizing => [0x01, 0x02].contains opcode

/-- What a command's own meaning supplies to the tests of R332: validity without state, a further state condition, a resource held, and
whether it needs a signature check that an open session of the big-number engine keeps waiting (R411). -/
structure Tests where
  valid : Bool
  condition : Bool := true
  busy : Bool := false
  signature : Bool := false

/-- Executes command `c` when it is the next one and its opcode is `opcode`: the tests of R332 in order, then its own effect. -/
def Dev.command (d : Dev) (c : Packet) (opcode : Nat) (t : Tests) (effect : Dev → Fetched → Dev) : Dev :=
  match d.host.nextCmd with
  | some f =>
    if f.packet = c ∧ c.opcode = opcode then
      let d1 := d.take f
      (if !t.valid then d1.complete f false .badParam noDetail
        else if !(accepts opcode d.run.state && t.condition) then d1.complete f false .state noDetail
        else if t.busy then d1.complete f false .busy noDetail
        else if t.signature && d.pke.session.isSome then { d1 with pke := { d1.pke with work := true } }.complete f false .busy noDetail
        else effect d1 f).pumpAll
    else d
  | none => d

/-- Whether a pending command satisfies `p`. -/
def Dev.hasJob (d : Dev) (p : JobKind → Bool) : Bool := d.host.jobs.any (fun j => p j.kind)

/- Halts (R245, R269, R270, R272). -/

/-- DATA of a TILE_HALT entry (R429). -/
def Dev.haltData (d : Dev) (x : Tile) : List (Nat × Nat) :=
  [(16, x.haltReason.code), (17, (haltAddrWord x).toNat >>> 16), (18, x.haltAddr.toNat), (20, d.tick.runTick % 2 ^ 32),
    (24, x.haltSched.toNat), (28, x.haltSeq.toNat)]

/-- The hold of a halted tile's group: from the third wall cycle on, under COUNT_REACHED from the end of the second schedule cycle after the count cycle,
so that eclipses do not move the point (R245, R246, R310; log 24). -/
def Group.holdFor (g : Group) (wall : Nat) (count : Bool) : Group :=
  if count then { g with heldCount := some (g.counter + 3) }
  else { g with heldFrom := match g.heldFrom with | some h => some (min h (wall + 3)) | none => some (wall + 3) }

/-- COUNT_REACHED has come, and the schedule cycles up to the second one after the count are still to run: no wait, marker or throttle freezes the group,
since its pipelines advance through them (R245) at a point that no eclipse moves (R246, R310, R312; log 24). -/
def Group.counting (g : Group) : Bool := g.heldCount.any (fun c => decide (g.counter < c))

/-- Whether an indefinite eclipse holds the group in wall cycle w (R245, R246, R310). -/
def Group.held (g : Group) (w : Nat) : Bool := !g.counting && (g.heldFrom.any (fun h => decide (h ≤ w)) || g.heldCount.isSome)

/-- A tile has halted in this wall cycle: its SEQ, the hold of its group, its log entry; its sentinel's sample is discarded (R115). -/
def Dev.noteHalt (d : Dev) (t : TileId) : Dev :=
  let w := d.tick.wall
  let o := d.run.haltOrder
  let n := if o.1 ≠ 0 ∧ o.2 = w then o.1 else o.1 + 1
  let x : Tile := { d.tile t with haltSeq := BitVec.ofNat 8 (min n 255), sent := { (d.tile t).sent with sample := none } }
  let d := { d.setTile t x with run := { d.run with haltOrder := (n, w) } }
  let d := match d.groupOf t with
    | some g => d.setGroup g ((d.group g).holdFor w (x.haltReason == HaltReason.countReached))
    | none => d
  d.event t.toNat (evTileHalt (x.haltReason == HaltReason.countReached)) (d.haltData x)

/-- The last entry of a list that `p` names, changed. -/
def amendLast {α : Type} (p : α → Bool) (f : α → α) : List α → List α
  | [] => []
  | x :: xs => if p x && !xs.any p then f x :: xs else x :: amendLast p f xs

/-- A tile's halt of this cycle has given way to a condition before it in R269's order: the log entry tells of that one. -/
def Dev.amendHalt (d : Dev) (t : TileId) : Dev :=
  let x : Tile := d.tile t
  let mine := fun (e : LogEntry) => e.source.toNat == t.toNat && e.code == 0x10
  let tells := fun (e : LogEntry) => { e with severity := (evTileHalt (x.haltReason == .countReached)).2, data := logData (d.haltData x) }
  { d with log := { d.log with entries := amendLast mine tells d.log.entries } }

/-- A change of one tile, with what follows from its halting. -/
def Dev.onTile (d : Dev) (t : TileId) (f : Tile → Tile) : Dev :=
  let x := d.tile t
  let y := f x
  let d := d.setTile t y
  if y.halted && !x.halted then d.noteHalt t else if y.halted && (y.haltRank, y.haltIssue) != (x.haltRank, x.haltIssue) then d.amendHalt t else d

/-- What a tile sees at issue in its group's present cycle. -/
def Dev.issueCtx (d : Dev) (t : TileId) (g : GroupId) : IssueCtx :=
  { pipe := (d.group g).pipe, sched := (d.group g).counter, wall := d.tick.wall, self := t, bundle := BitVec.ofNat 14 (d.tile t).pc
    poisonHalt := match d.run.image with | some im => im.poisonHalt | none => false
    overflowHalt := match d.run.image with | some im => im.overflowHalt | none => false
    hazard := d.run.hazard }

/-- Schedule counter of a tile's group. -/
def Dev.schedOf (d : Dev) (t : TileId) : Nat := match d.groupOf t with | some g => (d.group g).counter | none => 0

/-- A halt raised outside issue: by a queue, a port or the KSU, naming `bundle` (R271). -/
def Dev.haltTile (d : Dev) (t : TileId) (r : HaltReason) (bundle : BitVec 14) : Dev :=
  d.onTile t (fun x => x.halt (d.schedOf t) { reason := r, bundle := bundle, async := true, rank := 3 })

end Sys2Proof.Machine
end

