-- ==== Sys2Proof/Machine/MemOps.lean ====
section
/-! DEFINITION. Memory accesses (09 R196 to R212, R216, R218): placement of near and far sectors, poison, retirement, load counts, accumulates, and the
queues of the channels. -/

namespace Sys2Proof.Machine

/-- Pages of a channel that lie in the data region: D of R199. -/
def Mem.dataPages (m : Mem) : Nat := 40960 - m.keyPages

/-- Parity of the bits of x, of w bits (R201). -/
def parity (x : Nat) : Nat → Bool
  | 0 => false
  | w + 1 => x.testBit w != parity x w

/-- Channel and channel-local page that the hash gives a logical page (R201). -/
def hashPlace (rows : List (BitVec 16)) (g : Nat) : Nat × Nat :=
  let u := g / 256
  let h := packNat 1 (fun i => (parity ((rows.getD i 0).toNat &&& u) 16).toNat) 8
  ((g % 256) ^^^ h, u)

/-- A physical page: channel · 40,960 + channel-local page. -/
def physPage (channel page : Nat) : Nat := channel * 40960 + page
def pageChannel (p : Nat) : Nat := p / 40960
def pageLocal (p : Nat) : Nat := p % 40960

/-- The physical page of a logical page: the remap table, else the hash (R200, R220). -/
def Mem.place (m : Mem) (g : Nat) : Nat :=
  match m.remap.find? (fun e => e.1 == g) with
  | some e => e.2
  | none => physPage (hashPlace m.hashRows g).1 (hashPlace m.hashRows g).2

/-- The logical page that maps to a physical page, if one does (R207). -/
def Mem.logical (m : Mem) (p : Nat) : Option Nat :=
  if m.dataPages ≤ pageLocal p then none
  else match m.remap.find? (fun e => e.2 == p) with
    | some e => some e.1
    | none =>
      let u := pageLocal p
      let h := (hashPlace m.hashRows (u * 256)).1
      let g := u * 256 + (pageChannel p ^^^ h)
      if m.remap.any (fun e => e.1 == g) then none else some g

/-- The largest valid near-tier sector address (R200). -/
def Mem.nearMax (m : Mem) : Nat := 113 * 256 * m.dataPages - 1
def Mem.nearValid (m : Mem) (s : Nat) : Bool := decide (s < 113 * 256 * m.dataPages)

/-- Mapped far-tier pages (R216). -/
def Mem.farPages (m : Mem) : Nat := 4096 * min (m.farUnits.sum) 16384
def Mem.farValid (m : Mem) (s : Nat) : Bool := decide (s < 113 * m.farPages)

/-- The epoch of the undefined contents of a near-tier sector that is not listed, 0 where it reads 0 (log 3): the latest change or test
that left its page undefined. -/
def Mem.epochAt (m : Mem) (k : Nat) : Nat :=
  let c := pageChannel (k / 113)
  let l := pageLocal (k / 113)
  match m.undef.find? (fun r => r.1.getLsbD c && decide (r.2.1 ≤ l) && decide (l < r.2.1 + r.2.2.1)) with
  | some r => r.2.2.2
  | none => 0

/-- What an unlisted near-tier sector reads as, by physical page · 113 + sector (log 3). -/
def Mem.nearDefault (m : Mem) (k : Nat) : Sector := if m.epochAt k = 0 then {} else { data := Config.nearUndefined (m.epochAt k) k }

/-- What an unlisted far-tier sector reads as (log 4). -/
def Mem.farDefault (m : Mem) (k : Nat) : Sector := if m.farZero then {} else { data := Config.farUndefined m.farEpoch k }

/-- A page sampled once more. -/
def sampleBump (p : Nat) : List (Nat × Nat) → List (Nat × Nat)
  | [] => [(p, 1)]
  | (q, n) :: rest => if q = p then (q, n + 1) :: rest else (q, n) :: sampleBump p rest

/-- The channel has served one sector of its page p; one request in 16 is sampled (R219). -/
def Channel.serve (c : Channel) (p : Nat) : Channel :=
  let n := c.served + 1
  { c with served := n, sampled := if n % 16 = 0 then sampleBump p c.sampled else c.sampled }

/-- A page put before those sampled less. -/
def insertSample (x : Nat × Nat) : List (Nat × Nat) → List (Nat × Nat)
  | [] => [x]
  | y :: ys => if y.2 < x.2 then x :: y :: ys else y :: insertSample x ys

/-- The 16 pages sampled most, the earlier seen of equals first (R219). -/
def topSamples (l : List (Nat × Nat)) : List (Nat × Nat) := (l.foldl (fun acc x => insertSample x acc) []).take 16

def Mem.channel (m : Mem) (n : Nat) : Channel := m.channels.toList.getD n {}
def Mem.setChannel (m : Mem) (n : Nat) (c : Channel) : Mem := { m with channels := m.channels.setIfInBounds n c }
def Mem.onChannel (m : Mem) (n : Nat) (f : Channel → Channel) : Mem := m.setChannel n (f (m.channel n))

/-- All codewords poisoned. -/
def allPoison : BitVec 32 := BitVec.allOnes 32

/-- What sector o of a physical page holds; a retired page reads as poison (R207). -/
def Mem.peekNear (m : Mem) (p o : Nat) : Sector :=
  if m.retiredNear.contains p then { data := 0, poison := allPoison } else Store.read m.nearDefault m.near (p * 113 + o)

def Mem.hit (m : Mem) (p : Nat) : Mem := m.onChannel (pageChannel p) (fun c => { c with retiredHits := satInc c.retiredHits })

/-- A read served by a channel. -/
def Mem.readNear (m : Mem) (p o : Nat) : Mem × Sector :=
  let m' := m.onChannel (pageChannel p) (·.serve (pageLocal p))
  (if m.retiredNear.contains p then m'.hit p else m', m.peekNear p o)

/-- The sector stored, with no count. -/
def Mem.pokeNear (m : Mem) (p o : Nat) (x : Sector) : Mem := { m with near := Store.write m.nearDefault m.near (p * 113 + o) x }

/-- CH_ERR of a channel: the sector last recorded, and why (R223). -/
def Channel.record (c : Channel) (p o : Nat) (kind : BitVec 2) : Channel :=
  { c with errPage := BitVec.ofNat 16 (pageLocal p), errSector := BitVec.ofNat 7 o, errKind := kind }

/-- A sector stored, unless its page is retired, which drops and counts the write (R207). -/
def Mem.storeNear (m : Mem) (p o : Nat) (x : Sector) : Mem := if m.retiredNear.contains p then m.hit p else m.pokeNear p o x

/-- A write of a whole sector served by a channel (R207). A sector that arrives poisoned is recorded in CH_ERR (PRESUMED, log 3: R223 names
the kind and no rule says when). -/
def Mem.writeNear (m : Mem) (p o : Nat) (x : Sector) : Mem :=
  let m' := m.onChannel (pageChannel p) (fun c => if x.poison = 0 then c.serve (pageLocal p) else (c.serve (pageLocal p)).record p o 2)
  m'.storeNear p o x

def Mem.peekFar (m : Mem) (s : Nat) : Sector :=
  if m.retiredFar.contains (s / 113) then { data := 0, poison := allPoison } else Store.read m.farDefault m.far s

def Mem.writeFar (m : Mem) (s : Nat) (x : Sector) : Mem :=
  if m.retiredFar.contains (s / 113) then m else { m with far := Store.write m.farDefault m.far s x }

/-- The link FPk that a far-tier page lies behind (R216). -/
def Mem.farLink (m : Mem) (page : Nat) : Nat :=
  let present := (List.range 4).filter (fun k => decide (0 < m.farUnits.getD k 0))
  if !m.farWidth then 0
  else if m.farInterleaved then present.getD (page % (max present.length 1)) 0
  else
    let rec go : Nat → List Nat → Nat
      | _, [] => 3
      | p, k :: ks => if p < 4096 * m.farUnits.getD k 0 then k else go (p - 4096 * m.farUnits.getD k 0) ks
    go page present

/-- Whether far-tier reads of a page end under the timeout rule at once (R218). -/
def Mem.farLinkDown (m : Mem) (page : Nat) : Bool := m.farDown.getLsbD (m.farLink page)

/- Poison between DRAM codewords and scratchpad codewords (R206). -/
def spreadPoison (p : BitVec 32) : BitVec 64 :=
  if p = 0 then 0 else BitVec.ofNat 64 (packNat 1 (fun i => (p.getLsbD (i / 2)).toNat) 64)
def gatherPoison (p : BitVec 64) : BitVec 32 :=
  if p = 0 then 0 else BitVec.ofNat 32 (packNat 1 (fun c => (p.getLsbD (2 * c) || p.getLsbD (2 * c + 1)).toNat) 32)

/-- The sector address (key) of a place in the near tier: physical page and sector. -/
def Mem.nearKey (m : Mem) (s : Nat) : Nat × Nat := (m.place (s / 113), s % 113)

/-- Bytes a to a + n − 1 of a sector replaced; a codeword wholly covered loses its poison, any other keeps it (R206). -/
def Sector.patch (x : Sector) (a : Nat) (bs : List Byte) : Sector :=
  let n := bs.length
  let cleared := BitVec.ofNat 32 (packNat 1 (fun c => (decide (a ≤ 18 * c) && decide (18 * c + 18 ≤ a + n)).toNat) 32)
  let mask := (2 ^ (8 * n) - 1) * 2 ^ (8 * a)
  { data := (x.data &&& ~~~(BitVec.ofNat 4608 mask)) ||| BitVec.ofNat 4608 (leNat bs * 2 ^ (8 * a)), poison := x.poison &&& ~~~cleared }

/-- Bytes a to a + n − 1 written as poisoned: every codeword they cover is poisoned (R320). -/
def Sector.patchPoisoned (x : Sector) (a : Nat) (bs : List Byte) : Sector :=
  let n := bs.length
  let hit := BitVec.ofNat 32 (packNat 1 (fun c => (decide (a < 18 * c + 18) && decide (18 * c < a + n)).toNat) 32)
  let y := x.patch a bs
  { y with poison := y.poison ||| hit }

/-- The accumulate adder (R211): the new data, whether a signed sum wrapped, and whether an FP32 condition arose. -/
def accumulateData (op : AccOp) (a b : SectorBits) (q : Nat) : SectorBits × Bool × Bool :=
  match op with
  | .modAdd => (sectorOf (fun i => res (((lane128 a i).toNat % q + (lane128 b i).toNat % q) % q)), false, false)
  | .int32Add =>
    let sum := fun i => (a.extractLsb' (32 * i) 32).toInt + (b.extractLsb' (32 * i) 32).toInt
    (BitVec.ofNat 4608 (packNat 32 (fun i => (BitVec.ofInt 32 (sum i)).toNat) 144),
      (List.range 144).any (fun i => decide (sum i < -2147483648) || decide (2147483647 < sum i)), false)
  | .fp32Add =>
    let out := fun i => fAdd (a.extractLsb' (32 * i) 32).toNat (b.extractLsb' (32 * i) 32).toNat
    (BitVec.ofNat 4608 (packNat 32 (fun i => (out i).bits) 144), false,
      (List.range 144).any (fun i => (out i).invalid || (out i).overflow || (out i).underflow))

/-- One accumulate into a near-tier sector: a read and a write of its channel (R211, R212). To a retired page it is dropped. -/
def Mem.accumulate (m : Mem) (op : AccOp) (s : Nat) (operand : Sector) (q : Nat) : Mem :=
  let (p, o) := m.nearKey s
  let x := m.peekNear p o
  let r := accumulateData op x.data operand.data q
  let m := m.onChannel (pageChannel p) (fun c => (c.serve (pageLocal p)).serve (pageLocal p))
  if m.retiredNear.contains p then m.hit p
  else
    (m.onChannel (pageChannel p) (fun c => { c with accOvf := c.accOvf || r.2.1, accFp := c.accFp || r.2.2 })).pokeNear p o
      { data := r.1, poison := x.poison ||| operand.poison }

/-- The flags of CH_STATUS that an accumulate sets, at their bits (R211, R223). -/
def Mem.accumulateFlags (m : Mem) (op : AccOp) (s : Nat) (operand : Sector) (q : Nat) : Word :=
  let (p, o) := m.nearKey s
  let r := accumulateData op (m.peekNear p o).data operand.data q
  if m.retiredNear.contains p then 0 else BitVec.ofNat 32 (8 * r.2.1.toNat + 16 * r.2.2.toNat)

/-- The memory with a new account of what is undefined: what is listed in pages that `keep` names stays. -/
def Mem.recast (m m' : Mem) (keep : Nat → Bool) : Mem :=
  { m' with near := m.near.filter (fun e => keep (e.1 / 113) && e.2 != m'.nearDefault e.1) }

/-- Pages of some channels become undefined. -/
def Mem.forget (m : Mem) (mask : BitVec 256) (first pages : Nat) : Mem :=
  m.recast { m with undef := (mask, first, pages, m.epochs + 1) :: m.undef, epochs := m.epochs + 1 }
    (fun p => !(mask.getLsbD (pageChannel p) && decide (first ≤ pageLocal p) && decide (pageLocal p < first + pages)))

/-- Data-region contents, of `pages` pages of every channel, become undefined and the remap table empties (R203). -/
def Mem.forgetData (m : Mem) (pages : Nat) : Mem := { m.forget (BitVec.allOnes 256) 0 pages with remap := [], tableFull := false }

/-- Pages that a test leaves undefined: of the data region, which is all that R213 speaks of, so that tested pages of the key region keep what they held
(DESIGN CHOICE, log 89); and of the key region if `all` says so: one that an FLR or a fault stops leaves all that it
tested (R213, R420). -/
def Mem.forgetTested (m : Mem) (mask : BitVec 256) (first pages : Nat) (all : Bool) : Mem :=
  m.forget mask first (if all then pages else min (first + pages) m.dataPages - first)

/-- A change of the memory. -/
def Dev.onMem (d : Dev) (f : Mem → Mem) : Dev := { d with mem := f d.mem }

/-- An uncorrectable codeword met on a read of a physical page's sector (R206): poisoned in place, counted and logged. -/
def Dev.memUe (d : Dev) (p o : Nat) (ue : BitVec 32) : Dev :=
  if ue = 0 then d
  else
    let n := pageChannel p
    let x := d.mem.peekNear p o
    let m := if d.mem.retiredNear.contains p then d.mem else d.mem.pokeNear p o { x with poison := x.poison ||| ue }
    let m := m.onChannel n (fun c => { c with ue := satAdd c.ue ((List.range 32).countP (fun i => ue.getLsbD i)) }.record p o 1)
    { d with mem := m }.event (srcDie (BitVec.ofNat 2 (n / 64))) evMemUe
      [(16, n), (18, pageLocal p), (20, o), (24, (d.mem.logical p).getD 0xFFFFFFFF)]

/-- Corrected codewords on a read (R205). -/
def Dev.memCe (d : Dev) (p : Nat) (ce : BitVec 32) : Dev :=
  let k := (List.range 32).countP (fun i => ce.getLsbD i)
  let sec := d.log.time / 80000000000000
  d.onMem (fun m => m.onChannel (pageChannel p) (fun c =>
    let c := if c.ceSec = sec then c else { c with ceSec := sec, ceSecond := 0, ceLogged := false }
    { c with ce := satAdd c.ce k, ceSecond := c.ceSecond + k }))

/-- A read of a near-tier sector served by its channel, with what its ECC finds (R205 to R207). -/
def Dev.readNear (d : Dev) (p o : Nat) (e : SectorEcc) : Dev × Sector :=
  let d := if d.mem.retiredNear.contains p then d else (d.memCe p e.ce).memUe p o e.ue
  let r := d.mem.readNear p o
  ({ d with mem := r.1 }, r.2)

/-- One accumulate, with what the ECC finds on its read of the target (R205, R206, R211, R212). -/
def Dev.accumulate (d : Dev) (op : AccOp) (s : Nat) (operand : Sector) (q : Nat) (e : SectorEcc) : Dev :=
  let k := d.mem.nearKey s
  let d := if d.mem.retiredNear.contains k.1 then d else (d.memCe k.1 e.ce).memUe k.1 k.2 e.ue
  (d.mark (0x100000 + 1024 * pageChannel k.1) (d.mem.accumulateFlags op s operand q)).onMem (fun m => m.accumulate op s operand q)

/-- Near-tier sector of a region's sector, by the bases that LOAD_IMAGE gave (R258, R320). -/
def Dev.regionSector (d : Dev) (region sector : Nat) : Nat :=
  match d.run.image with
  | some im => (match im.regions[region]? with | some r => r.base | none => 0) + sector
  | none => sector

/-- Codewords that overlap the 64-byte lines of a mask (R218). -/
def linePoison (lines : BitVec 9) : BitVec 32 :=
  if lines = 0 then 0
  else BitVec.ofNat 32 (packNat 1 (fun c => ((List.range 9).any (fun i =>
    lines.getLsbD i && decide (64 * i < 18 * c + 18) && decide (18 * c < 64 * i + 64))).toNat) 32)

/-- A read of a far-tier sector: poisoned lines, a timeout, or a link that is down (R218). -/
def Dev.readFar (d : Dev) (s : Nat) (lines : BitVec 9) (timeout : Bool) : Dev × Sector :=
  let x := d.mem.peekFar s
  if timeout || d.mem.farLinkDown (s / 113) then
    (d.event srcFar evFarTimeout [(16, s / 113), (20, s % 113)], { x with poison := allPoison })
  else (d, { x with poison := x.poison ||| linePoison lines })

/-- A write that the far-tier port accepts; behind a link that is down it is lost (R218). -/
def Dev.writeFar (d : Dev) (s : Nat) (x : Sector) : Dev :=
  if d.mem.farLinkDown (s / 113) then d.event srcFar evFarWriteLost [(16, s / 113)] else d.onMem (fun m => m.writeFar s x)

def pageEcc (f : PageFindings) (o : Nat) : SectorEcc := ((f.ecc.find? (fun p => p.1 == o)).map (·.2)).getD {}
def pageLines (f : PageFindings) (o : Nat) : BitVec 9 := ((f.lines.find? (fun p => p.1 == o)).map (·.2)).getD 0

/-- Whether a channel is in a refresh slot (R208). -/
def Dev.refreshing (d : Dev) (n : Nat) : Bool := decide (d.tick.wall < (d.mem.channel n).refreshEnd)

/-- Bit 171 of a header in memory: POISON (R33). -/
def poisonBit : SectorBits := BitVec.ofNat 4608 (2 ^ 171)

/- Die links (R14, R244). -/

/-- Die links that traffic between two compute dies crosses: the shorter way round, or through GD(d+1) (R14, R197). -/
def ringPath (a b : Nat) : List Nat :=
  match (b + 4 - a) % 4 with
  | 0 => []
  | 1 => [a]
  | 2 => [a, (a + 1) % 4]
  | _ => [b]

/-- A replay holds a die link that the traffic needs (R244). -/
def Dev.linkHeld (d : Dev) (path : List Nat) : Bool := path.any (fun l => decide (d.tick.wall < d.clocks.linkHold.getD l 0))

/- Accesses that come to the channels one by one, and their wait for the end of a refresh slot (R208). -/

/-- Near-tier sectors that an access touches. -/
def Held.sectors : Held → List Nat
  | .write s _ _ _ _ => [s]
  | .read parts _ => parts.map (·.1)
  | .accumulate _ s _ _ _ _ => [s]
  | .store s _ _ _ => [s]
  | .copy a b _ _ => [a, b]
  | .fold _ _ a b _ _ _ => [a, b]
  | .send _ s _ _ => [s]
  | .spoil s _ => [s]
  | .mark s _ _ => [s]
  | _ => []

/-- The channels that an access needs; a sector that does not exist needs none. -/
def Dev.channelsOf (d : Dev) (h : Held) : List Nat :=
  match h with
  | .put p _ _ => [pageChannel p]
  | .fetch _ c _ _ _ => [c.toNat]
  | .fill _ cs _ _ _ _ => cs
  | .move c _ => [c]
  | .swap a b => [a, b]
  | h => (h.sectors.filter d.mem.nearValid).map (fun s => pageChannel (d.mem.nearKey s).1)

/-- The die of a near-tier sector. -/
def Dev.dieOfSector (d : Dev) (s : Nat) : Nat := pageChannel (d.mem.nearKey s).1 / 64

/-- The die links that an access crosses (R14, R197): between the Nucleus and the die of its sector, for what the host, another module or firmware reads
or writes, and between two dies for what one channel gives another. The spec does not say where the operand of an accumulate comes from: none is counted for
it (DESIGN CHOICE, log 86). -/
def Dev.linksOf (d : Dev) : Held → List Nat
  | .accumulate .. => []
  | .copy a b _ _ => ringPath (d.dieOfSector a) (d.dieOfSector b)
  | .fold _ _ a b _ _ _ => ringPath (d.dieOfSector a) (d.dieOfSector b)
  | .put p _ _ => [4 + pageChannel p / 64]
  | .fetch links _ _ _ _ => links
  | .fill links _ _ _ _ _ => links
  | .move c _ => [4 + c / 64]
  | .swap a b => ringPath (a / 64) (b / 64)
  | h => (h.sectors.filter d.mem.nearValid).map (fun s => 4 + d.dieOfSector s)

/-- Whether an access is a BAR4 write that no channel has accepted: a replay holds its link (R197, R244). -/
def Dev.onItsWay (d : Dev) (h : Held) : Bool :=
  match h with
  | .write .. => d.linkHeld (d.linksOf h)
  | _ => false

/-- Whether an access has to wait: for the end of a refresh slot, behind one of `before` that needs a channel of its own, or at a die link that a replay
holds (R208, R211, R244); a doorbell, behind a BAR4 write on its way (R351). -/
def Dev.mustWait (d : Dev) (before : List Held) (h : Held) : Bool :=
  (d.channelsOf h).any (fun c => d.refreshing c || before.any (fun x => (d.channelsOf x).contains c)) || d.linkHeld (d.linksOf h) ||
  (match h with | .doorbell _ _ => before.any d.onItsWay | _ => false)

/-- WINDOW_STATUS.ERR (R320). -/
def Dev.windowError (d : Dev) : Dev := ({ d with host := { d.host with windowErr := true } }).mark 0x1008 1

/-- A write within one sector; one that covers less reads it first (R320). -/
def Dev.writePiece (d : Dev) (s a : Nat) (bs : List Byte) (poisoned : Bool) (e : SectorEcc) : Dev :=
  if !d.mem.nearValid s then d.windowError
  else
    let k := d.mem.nearKey s
    let r : Dev × Sector := if bs.length = 576 then (d, {}) else d.readNear k.1 k.2 e
    let x := if poisoned then r.2.patchPoisoned a bs else r.2.patch a bs
    r.1.onMem (fun m => m.writeNear k.1 k.2 x)

/-- A read within one sector: bytes, and whether the sector is poisoned; bytes of a poisoned codeword are free (R320). -/
def Dev.readPiece (d : Dev) (s a n : Nat) (e : SectorEcc) : Dev × List Byte × Bool :=
  if !d.mem.nearValid s then (d.windowError, List.replicate n 0xFF, false)
  else
    let k := d.mem.nearKey s
    let r := d.readNear k.1 k.2 e
    let open_ := d.freeValue
    let bytes := (List.range n).map (fun i =>
      let b := a + i
      if r.2.poison.getLsbD (b / 18) then BitVec.ofNat 8 (field open_ (8 * b) 8) else r.2.data.extractLsb' (8 * b) 8)
    if r.2.poison = 0 then (r.1, bytes, false)
    else (({ r.1.drew with host := { r.1.host with windowPoison := true } }).mark 0x1008 2, bytes, true)

/-- A read's parts, in order, with their bytes and whether a sector is poisoned. -/
def Dev.readParts (d : Dev) (parts : List (Nat × Nat × Nat)) (ecc : List SectorEcc) : Dev × List Byte × Bool :=
  parts.zipIdx.foldl (fun (r : Dev × List Byte × Bool) p =>
    let x := r.1.readPiece p.1.1 p.1.2.1 p.1.2.2 (ecc.getD p.2 {})
    (x.1, r.2.1 ++ x.2.1, r.2.2 || x.2.2)) (d, [], false)

/-- An access served that the memory alone carries out; the others are served where their requesters are (`serveHeld`). -/
def Dev.serveMem (d : Dev) : Held → Dev
  | .write s a bs poisoned e => d.writePiece s a bs poisoned e
  | .read parts ecc => let r := d.readParts parts ecc; r.1.emit (.window r.2.1 r.2.2)
  | .accumulate op s x p q e => d.accumulate op s { data := x, poison := p } q.toNat e
  | .store s x p _ => d.onMem (fun m => m.writeNear (m.nearKey s).1 (m.nearKey s).2 { data := x, poison := p })
  | .copy a b e _ =>
    let r := d.readNear (d.mem.nearKey b).1 (d.mem.nearKey b).2 e
    r.1.onMem (fun m => m.writeNear (m.nearKey a).1 (m.nearKey a).2 r.2)
  | .fold op q a b e f _ =>
    let r := d.readNear (d.mem.nearKey b).1 (d.mem.nearKey b).2 e
    r.1.accumulate op a r.2 q f
  | .spoil s _ => d.onMem (fun m =>
      m.writeNear (m.nearKey s).1 (m.nearKey s).2 { data := (m.peekNear (m.nearKey s).1 (m.nearKey s).2).data, poison := allPoison })
  | .mark s e _ =>
    let r := d.readNear (d.mem.nearKey s).1 (d.mem.nearKey s).2 e
    r.1.onMem (fun m => m.writeNear (m.nearKey s).1 (m.nearKey s).2 { r.2 with data := r.2.data ||| poisonBit })
  | .put p o x => d.onMem (fun m => m.writeNear p o x)
  | .send .. => d
  | .fetch .. => d
  | .fill .. => d
  | .move _ _ => d
  | .swap _ _ => d
  | .doorbell _ _ => d

def Held.isSend : Held → Bool
  | .send .. => true
  | _ => false

/-- The reduction work that an access is part of. -/
def Held.work : Held → Option ReduceWork
  | .copy _ _ _ w => some w
  | .fold _ _ _ _ _ _ w => some w
  | .send _ _ _ w => some w
  | .spoil _ w => w
  | .mark _ _ w => w
  | _ => none

/-- An access joins those that wait. -/
def Dev.hold (d : Dev) (h : Held) : Dev := { d with held := d.held ++ [h] }

/-- An access that the memory alone carries out arrives: it is served, or waits its turn. -/
def Dev.receiveMem (d : Dev) (h : Held) : Dev := if d.mustWait d.held h then d.hold h else d.serveMem h

end Sys2Proof.Machine
end

