-- ==== Sys2Proof/Machine/Progress.lean ====
section
/-! DEFINITION. How a tile's work advances: writebacks, row deliveries, row requests, and the ends of the operations of its units. -/

namespace Sys2Proof.Machine

/-- A ring after its head slot is released (R188). -/
def Ring.releaseHead (r : Ring) : Ring :=
  { r with slots := r.slots.set (r.release % (max r.slots.length 1)) .empty, release := r.release + 1 }

/-- A vector register takes the lanes of `m` (R59). -/
def mergeVec (old new : Vec) (m : BitVec 1024) : Vec :=
  if m = BitVec.allOnes 1024 then new else mkVec (fun j => if m.getLsbD j then lane new j else lane old j)

/-- A writeback (R52). -/
def Tile.land (t : Tile) : Dest → Tile
  | .v n x m => { t with v := t.v.set n.toNat (mergeVec (t.vreg n) x m) }
  | .k n x m => { t with k := t.k.set n.toNat ((x &&& m) ||| (t.kreg n &&& ~~~m)) }
  | .s n x => { t with s := t.s.set n.toNat x }
  | .a n x => { t with a := t.a.set n.toNat x }
  | .hop n h tag =>
    let r := t.hreg n
    { t with h := t.h.set n.toNat { r with hdr := { h with poison := h.poison || t.poisonLatch }, tag := tag.getD r.tag }
             poisonLatch := false }
  | .hld n h home => { t with h := t.h.set n.toNat { hdr := h, home := home, tag := {} } }
  | .home n row => { t with h := t.h.set n.toNat { t.hreg n with home := row } }
  | .row r x => t.engineWrite [(r, x)]
  | .mve bits => t.raiseMve bits
  | .clear reg bits =>
    if reg = 0 then { t with mveFlags := t.mveFlags &&& ~~~(bits &&& ~~~t.raised.mve) }
    else if reg = 1 then { t with nma := { t.nma with flags := t.nma.flags &&& ~~~(bits &&& ~~~t.raised.nma) } }
    else t.clearScr (bits &&& ~~~t.raised.scr)
  | .pad n w => { t with pads := t.pads.set n.toNat w }
  | .release ring => { t with rings := t.rings.set ring.toNat t.rings[ring.toNat].releaseHead }

def Dest.isClear : Dest → Bool
  | .clear _ _ => true
  | _ => false

/-- Lands what is due before pipeline cycle `pipe`: clears first, then in issue order, so that a later issue, or the V slot of
one bundle, takes effect last (R54, R71). Each masked writeback changes its own lanes only, so lanes that the later of two does not
write keep what the earlier wrote (DESIGN CHOICE, log 79: R54 speaks of the register). -/
def Tile.landDue (t : Tile) (pipe : Nat) : Tile :=
  let due := (t.flights.filter (fun f => decide (f.due < pipe))).flatMap (·.dests)
  let t1 := { t with flights := t.flights.filter (fun f => !decide (f.due < pipe)) }
  ((due.filter (·.isClear)) ++ (due.filter (fun d => !d.isClear))).foldl Tile.land t1

/-- Drops what instruction `seq` would write: it halted its tile (R143, R291). -/
def Tile.cancel (t : Tile) (seq : Nat) : Tile :=
  { t with flights := t.flights.filter (fun f => f.seq != seq)
           tu := { t.tu with op := t.tu.op.map (fun op => if op.seq = seq then { op with failed := true } else op) }
           nma := { t.nma with
             op := t.nma.op.map (fun op => if op.seq = seq then { op with failed := true } else op)
             dsm := t.nma.dsm.map (fun d => if d.seq = seq then { d with failed := true } else d)
             closes := t.nma.closes.filter (fun d => d.seq != seq) } }

/-- A row reaches its unit (R141, R143, R144, R291). A corrected row is counted. Of a row both uncorrectable and poisoned the error is reported (DESIGN
CHOICE, log 79). -/
def Tile.deliver (t : Tile) (ctx : IssueCtx) (r : RowRead) (ecc : EccOutcome) : Tile :=
  let t := { t with reads := t.reads.erase r }
  match ecc with
  | .uncorrectable =>
    ((t.cancel r.seq).scrErr r.row 0 1).halt ctx.sched { reason := .uncorrectable, bundle := r.bundle, slot := r.slot.code, issue := r.seq }
  | _ =>
    let t := if ecc = .corrected then { (t.raiseScr 1).findError r.row r.writes with ceEngine := satInc t.ceEngine } else t
    if r.poisoned && ctx.poisonHalt then
      ((t.cancel r.seq).scrErr r.row 0 2).halt ctx.sched { reason := .poisonRead, bundle := r.bundle, slot := r.slot.code, issue := r.seq }
    else
      let t := if r.poisoned then { (t.scrErr r.row 0 2) with poisonLatch := true } else t
      match r.reader with
      | .header true => (t.cancel r.seq).halt ctx.sched { reason := .headerInvalid, bundle := r.bundle, slot := r.slot.code, issue := r.seq }
      | _ => t

/-- A fault in the data path of the transform in progress is told: rows that leave from now on, the limb store, the tile and the close have it, beside
what was told before (R82; log 10). -/
def Tile.tellUpset (t : Tile) (u : Option Upset) : Tile :=
  { t with tu := { t.tu with op := t.tu.op.map (fun op => if op.closed then op else op.upsetBy u) } }

/-- The end of a transform (R81, R82, R93): both identities are judged, and it counts. Its rows stand in the banks as they left, and the limb store and
the tile hold what the steps left. Of a fault told only now the checker's own elements are left (log 10). -/
def Tile.closeTransform (t : Tile) (ctx : IssueCtx) (op : TuOp) (inverse table : Bool) (told : Option Upset) : Tile :=
  let u := (op.upsetBy told).upset
  let s := invariantSides op inverse table u
  let ok1 := check1Ok op inverse s
  let ok2 := check2Ok op inverse s
  let t := { t with
    tu := { t.tu with op := some { op with closed := true }, count := t.tu.count + 1, store := storeAfter op inverse table u
                      planes := planesAfter op inverse table u t.tu.planes } }
  if ok1 && ok2 then t
  else
    let t := t.raiseTu (!ok1) (!ok2)
    { t with tu := { t.tu with failTable := table, failInverse := inverse, failEntry := BitVec.ofNat 7 op.entry, failMctx := op.mctx } }.halt
      ctx.sched { reason := .transformCheck, bundle := op.bundle, slot := 2, issue := op.seq }

/-- The transform that is due for its invariant close in cycle i + L − 1 (R82). -/
def Tile.transformDue (t : Tile) (pipe : Nat) : Option (TuOp × Bool × Bool) :=
  match t.tu.op with
  | some op => match op.kind with
    | .transform inverse table =>
      if !op.failed && !op.closed && decide (op.issued + op.latency - 1 ≤ pipe) then some (op, inverse, table) else none
    | _ => none
  | none => none

def Tile.closeDue (t : Tile) (ctx : IssueCtx) (u : Option Upset) : Tile :=
  match t.transformDue ctx.pipe with
  | some (op, inverse, table) => t.closeTransform ctx op inverse table u
  | none => t

/-- The permutation whose index entries are judged in cycle i + 2N/1024 + 6 (R88). -/
def Tile.permDue (t : Tile) (pipe : Nat) : Option TuOp :=
  match t.tu.op with
  | some op => if op.kind = .perm ∧ !op.failed ∧ op.issued + 2 * 2 ^ op.logN / 1024 + 6 ≤ pipe then some op else none
  | none => none

/-- Halts on an index entry that is out of range or has a reserved bit set (R88). The permute is dropped, so that TU_STATUS.BUSY reads 0 from then
on: R93 does not say so of a permute that halts before its last cycle (DESIGN CHOICE, log 79). -/
def Tile.permCheck (t : Tile) (ctx : IssueCtx) : Tile :=
  match t.permDue ctx.pipe with
  | some op =>
    if (List.range (2 ^ op.logN)).all (fun k => permEntryOk op.logN (permEntry op k)) then t
    else { t with tu := { t.tu with op := none } }.halt ctx.sched { reason := .operandRange, bundle := op.bundle, slot := 2, issue := op.seq }
  | none => t

/-- Writes those of a unit's rows, from row `first` on, that leave it in this cycle; gives the marks of all that are written. -/
def Tile.writeChunk (t : Tile) (self : TileId) (width left n first written : Nat) (ready : Nat → Bool) (row : Nat → Nat × Row) : Tile × Nat :=
  let rs := chunkOut (Config.freeNat self.toNat t.free) width left n written ready (fun r => bankOf (first + r))
  ({ t.engineWrite (rs.map row) with free := t.free + 1 }, setBits written rs)

/-- Whether every row that operation `seq` requests has been delivered. -/
def Tile.allDelivered (t : Tile) (f : Fetches) (seq : Nat) : Bool := f.todo.isEmpty && t.reads.all (fun r => r.seq != seq)

/-- The last cycle in which a TU operation writes rows: its close needs a transform's rows written (R80, R82, R89). -/
def TuOp.lastWrite (op : TuOp) : Nat :=
  match op.kind with
  | .transform _ _ => op.issued + op.latency - 2
  | _ => op.issued + op.latency - 1

/-- The first cycle in which rows of an operation leave: of one that is no transform, eight a cycle up to its last (R89, R298; log 10). -/
def TuOp.firstWrite (op : TuOp) : Nat :=
  match op.kind with
  | .transform _ _ => op.issued
  | _ => op.issued + op.latency - (op.regionRows + 7) / 8

/-- Whether the rows of a TU operation may leave it: everything is read, and a permutation has passed its check (R76, R88, R89). -/
def Tile.tuWrites (t : Tile) (op : TuOp) (pipe : Nat) : Bool :=
  !op.failed && !op.closed && t.allDelivered op.fetch op.seq && decide (op.firstWrite ≤ pipe) &&
  (op.kind != .perm || decide (op.issued + 2 * 2 ^ op.logN / 1024 + 6 ≤ pipe))

/-- The rows that a TU operation writes in a cycle: of a transform those of a free value, one in a bank (R78, R131), of any other the next eight (R89,
R298). -/
def Tile.tuChunk (t : Tile) (ctx : IssueCtx) (op : TuOp) : Tile × Nat :=
  match op.kind with
  | .transform _ _ => t.writeChunk ctx.self 1 (op.lastWrite - ctx.pipe) op.regionRows op.dst op.written (fun _ => true) (tuRow op op.upset)
  | _ =>
    let rs := nextEight op.regionRows op.written
    (t.engineWrite (rs.map (tuRow op none)), setBits op.written rs)

/-- What a transform in progress leaves in the limb store and the tile in this cycle (R73, R78). -/
def Tile.tuProgress (t : Tile) (op : TuOp) (pipe : Nat) : Tile :=
  match op.kind with
  | .transform inverse table => if op.failed || op.closed then t else { t with tu := t.tu.progress op inverse table pipe }
  | _ => t

/-- The TU's part of the end of a cycle: destination rows are written, and an operation whose last cycle this is ends
and counts (R73, R74, R89, R93, R298). -/
def Tile.tuCycle (t : Tile) (ctx : IssueCtx) : Tile :=
  match t.tu.op with
  | none => t
  | some op =>
    let t := t.tuProgress op ctx.pipe
    let r := if t.tuWrites op ctx.pipe then t.tuChunk ctx op else (t, op.written)
    let t := r.1
    if op.failed || decide (ctx.pipe + 1 < op.issued + op.latency) then { t with tu := { t.tu with op := some { op with written := r.2 } } }
    else match op.kind with
      | .transform _ _ => { t with tu := { t.tu with op := if op.closed then none else some { op with written := r.2 } } }
      | _ => { t with tu := { t.tu with op := none, count := t.tu.count + 1 } }

/-- One block step of an MMA reaches the accumulators (R100 to R104); its first sets them to 0 under ZERO (R101). -/
def Nma.mmaStep (m : Nma) (fetch : Fetches) (f : Fmt) (int zero : Bool) (a b : Nat) (xr : BitVec 16) (pad : Option PadWindow) (step : Nat) :
    Nma :=
  let u := shapeU f.small
  let out := fun n => accStep f int xr.toInt { acc := if zero && step == 0 then 0 else accAt m.acc n }
    (panelBlock f fetch pad a (n / u) step) (panelBlock f fetch none b (n % u) step)
  m.takeOuts f.small ((List.range (u * u)).map out)

/-- Cycles of a block step (R94). -/
def Fmt.stepCycles (f : Fmt) : Nat := if f.bits = 2 then 16 else 32

/-- The block step of an MMA whose result is due at the end of pipeline cycle `pipe`: steps follow each other through the array, and
the last one's results arrive with the latency (R95, R125; log 19). -/
def NmaOp.stepDue (op : NmaOp) (pipe : Nat) : Bool :=
  match op.kind with
  | .mma f _ _ _ _ nb _ _ _ =>
    !op.failed && decide (op.steps < nb) && decide (op.issued + f.stepCycles * (op.steps + 1) + (op.latency - op.occupancy) ≤ pipe + 1)
  | _ => false

/-- Whether an MMA has results on their way. -/
def NmaOp.inFlight (op : NmaOp) : Bool :=
  match op.kind with
  | .mma _ _ _ _ _ nb _ _ _ => decide (op.steps < nb)
  | _ => false

/-- An MMA's step that is due at the end of this cycle lands. -/
def Tile.landStep (t : Tile) (ctx : IssueCtx) (op : NmaOp) : Tile × NmaOp :=
  if op.stepDue ctx.pipe then
    match op.kind with
    | .mma f int zero a b _ xr _ pad =>
      (t.raisingNma (fun t => { t with nma := t.nma.mmaStep op.fetch f int zero a b xr pad op.steps }), { op with steps := op.steps + 1 })
    | _ => (t, op)
  else (t, op)

/-- The MMA operations behind the occupant of the array, in issue order. -/
def Tile.landTails (t : Tile) (ctx : IssueCtx) : List NmaOp → Tile × List NmaOp
  | [] => (t, [])
  | op :: ops =>
    let r := t.landStep ctx op
    let s := r.1.landTails ctx ops
    (s.1, if r.2.inFlight then r.2 :: s.2 else s.2)

def Nma.addSats (m : Nma) (sats : List Nat) : Nma :=
  { m with sat := Vector.ofFn (fun r : Fin 9 => satAdd m.sat[r] (sats.getD r 0)) }

/-- The last cycle of an NMA operation other than DSM and MMA: what it leaves besides the rows it has written. The accumulators are
those of this cycle, whatever an earlier MMA still brings (DESIGN CHOICE, log 19). -/
def Tile.finishNma (t : Tile) (ctx : IssueCtx) (op : NmaOp) : Tile :=
  let m := { t.nma with op := none }
  match op.kind with
  | .mma .. => { t with nma := { m with tails := if op.inFlight then m.tails ++ [op] else m.tails } }
  | .spill init wide =>
    let o := spillOut m op.fetch init wide
    { t with nma := { m with acc := [], flags := m.flags ||| o.flags } }
  | .resume int small wide _ =>
    let u := shapeU small
    let outs := (List.range (u * u)).map (fun n => resumeOut int (wideAt op.fetch wide n))
    { t with nma := m.takeOuts small outs }
  | .epilogue out f merge dst wide sc bi act k lo hi delta q =>
    let o := epilogueOut m op.fetch out f merge dst wide sc bi act k lo hi delta q
    { t with nma := { m with flags := m.flags ||| o.flags }.addSats o.sats }
  | .send first row tile counter chain i0 nbr =>
    let p : ChainPacket := { tile := tile, counter := counter, row := row, rows := chainPacketRows m first chain i0 nbr, ready := ctx.wall }
    { t with nma := { m with outbox := m.outbox ++ [p] } }
  | .receive row _ i0 nbr =>
    match chainHeader? (op.fetch.seen row) with
    | none => { t with nma := m }
    | some h =>
      let r := chainAdd m h op.fetch row i0 nbr
      let halts := if r.2 && ctx.overflowHalt then
          [{ due := ctx.pipe + 1, seq := op.seq, reason := .accumOverflow, bundle := op.bundle, slot := .m : DueHalt }] else []
      { t with nma := r.1, dueHalts := t.dueHalts ++ halts }

/-- Whether row n of an NMA operation's result can leave: of MSPILL once its own row is read, of MEPI once all is (R105, R107). -/
def Tile.nmaReady (t : Tile) (op : NmaOp) (n : Nat) : Bool :=
  match op.kind with
  | .spill init wide => init || ((op.fetch.got.any (fun p => p.1 == wide + n)) && t.reads.all (fun r => r.seq != op.seq || r.row != wide + n))
  | _ => t.allDelivered op.fetch op.seq

/-- The occupant of the array at the end of a cycle: a block step lands or result rows leave, and in its last cycle it ends. -/
def Tile.nmaOpCycle (t : Tile) (ctx : IssueCtx) : Tile :=
  match t.nma.op with
  | none => t
  | some op =>
    if op.failed then t
    else
      let s := t.landStep ctx op
      let n := op.rowCount t.nma
      let w := if n = 0 then (s.1, op.written)
        else s.1.writeChunk ctx.self (op.width t.nma) (op.issued + op.occupancy - 1 - ctx.pipe) n op.firstRow op.written (s.1.nmaReady op)
          (fun r => (op.rowsOut t.nma).rows.getD r (0, {}))
      let op := { s.2 with written := w.2 }
      let t := { w.1 with nma := { w.1.nma with op := some op } }
      if op.issued + op.occupancy ≤ ctx.pipe + 1 then t.raisingNma (fun t => t.finishNma ctx op) else t

/-- The last cycle of a DSM close stage (R125). -/
def DsmOp.lastClose (d : DsmOp) : Nat := d.issued + d.k + 29

/-- The DSM close stages at the end of a cycle: rows leave, and a stage whose last cycle this is ends (R121, R125). -/
def Tile.closeDsm (t : Tile) (ctx : IssueCtx) : List DsmOp → Tile × List DsmOp
  | [] => (t, [])
  | d :: ds =>
    let w := if t.allDelivered d.fetch d.seq then
        t.writeChunk ctx.self 1 (d.lastClose - ctx.pipe) 8 d.dst d.written (fun _ => true) (fun r => (dsmRows d).getD r (0, {}))
      else (t, d.written)
    let s := w.1.closeDsm ctx ds
    (s.1, if d.lastClose ≤ ctx.pipe then s.2 else { d with written := w.2 } :: s.2)

/-- Ends the close stages whose last cycle has passed. -/
def Tile.closeOverdue (t : Tile) (ctx : IssueCtx) : Tile :=
  let c := t.closeDsm ctx (t.nma.closes.filter (fun d => decide (d.lastClose < ctx.pipe)))
  { c.1 with nma := { c.1.nma with closes := c.2 ++ t.nma.closes.filter (fun d => !decide (d.lastClose < ctx.pipe)) } }

/-- The NMA's part of the end of a cycle (R95, R121, R125). A DSM operation passes to its close stage when its occupancy ends. -/
def Tile.nmaCycle (t : Tile) (ctx : IssueCtx) : Tile :=
  let s := t.landTails ctx t.nma.tails
  let t := { s.1 with nma := { s.1.nma with tails := s.2 } }.nmaOpCycle ctx
  let c := t.closeDsm ctx t.nma.closes
  let t := { c.1 with nma := { c.1.nma with closes := c.2 } }
  match t.nma.dsm with
  | some d => if !d.failed && decide (d.issued + d.k ≤ ctx.pipe + 1) then
      { t with nma := { t.nma with dsm := none, closes := t.nma.closes ++ [d] } } else t
  | none => t

/-- The requests that are due, and those still to come. -/
def Fetches.split (f : Fetches) (pipe : Nat) : List Nat × List (Nat × List Nat) :=
  ((f.todo.filter (fun p => decide (p.1 ≤ pipe))).flatMap (·.2), f.todo.filter (fun p => !decide (p.1 ≤ pipe)))

/-- Makes the row requests of one unit for this cycle. A row in a slot that is not FULL halts the tile (R187). -/
def Tile.fetchFor (t : Tile) (ctx : IssueCtx) (f : Fetches) (seq : Nat) (bundle : BitVec 14) (slot : Slot) (reader : Reader) :
    Tile × Fetches :=
  let (rows, rest) := f.split ctx.pipe
  if rows.any t.ringStarved then
    ((t.cancel seq).halt ctx.sched { reason := .keyStreamUnderrun, bundle := bundle, slot := slot.code, issue := seq }, { f with todo := rest })
  else
    let got := rows.map (fun r => (r, t.fetchRow r))
    let reads := rows.map (fun r =>
      { due := ctx.pipe + 6, seq := seq, bundle := bundle, slot := slot, reader := reader, row := r
        poisoned := (t.fetchRow r).poison != 0, corrected := t.ceRows.contains r : RowRead })
    ({ t with reads := t.reads ++ reads }, { todo := rest, got := f.got ++ got })

def TuOp.withFetch (op : TuOp) (f : Fetches) : TuOp := { op with fetch := f }
def NmaOp.withFetch (op : NmaOp) (f : Fetches) : NmaOp := { op with fetch := f }
def DsmOp.withFetch (op : DsmOp) (f : Fetches) : DsmOp := { op with fetch := f }

def Tile.fetchTu (t : Tile) (ctx : IssueCtx) : Tile :=
  match t.tu.op with
  | some op =>
    if op.failed then t
    else
      let r := t.fetchFor ctx op.fetch op.seq op.bundle .t .transform
      { r.1 with tu := { r.1.tu with op := r.1.tu.op.map (fun o => TuOp.withFetch o r.2) } }
  | none => t

/-- Whether a block step is sampled, with probability 2^−k, and then the output (i, j) of 0 to u − 1 each, all from what the LFSR at x gives (R112;
log 14). -/
def sentinelPick (x : Word) (k u : Nat) : Option (Nat × Nat) :=
  let n := Config.sentinelBits x
  if n % 2 ^ k = 0 then some (n / 2 ^ k % u, n / 2 ^ k / u % u) else none

/-- The sentinel's draw as a block step begins (R112): a sampled block that still waits at the next sample is dropped. `x` is the block but for the
output (i, j) and the array's `value` there. -/
def Sentinel.draw (s : Sentinel) (x : SentSample) (value : Nat → Nat → Option (Option (Bool × Nat × Int))) : Sentinel :=
  if s.ctrl.getLsbD 0 && !x.fmt.small then
    let n := Config.lfsrNext s.lfsr
    let k := if s.ctrl.getLsbD 2 then field s.ctrl.toNat 16 4 else field s.ctrl.toNat 20 4
    match sentinelPick n k 288 with
    | none => { s with lfsr := n }
    | some (i, j) =>
      { s with lfsr := n, drop := if s.sample.isSome then satInc s.drop else s.drop, sample := some { x with i := i, j := j, v := value i j } }
  else s

/-- The array's V of a pair of blocks: an exact number, or none where it is NaN (R97, R98). -/
def arrayValue (f : Fmt) (a b : Block) : Option (Bool × Nat × Int) :=
  if a.nan || b.nan then none else some (decide (blockP a b < 0), (blockP a b).natAbs, blockExp f a b)

/-- What the sentinel does in a cycle in which an MMA has requested rows: it draws as a block step begins (R112), and of a block that it has drawn it takes
the array's V once the step's last rows have been requested (R113). -/
def Tile.drawSentinel (t : Tile) (op : NmaOp) (fetch : Fetches) (wall pipe : Nat) : Tile :=
  match op.kind with
  | .mma f _ _ a b nb _ shadow pad =>
    let step := (pipe - op.issued) / f.stepCycles
    let value := fun i j =>
      if fetch.todo.all (fun p => decide (op.issued + f.stepCycles * (step + 1) ≤ p.1)) then
        some (arrayValue f (panelBlock f fetch pad a i step) (panelBlock f fetch none b j step))
      else none
    if op.fetch.todo.any (fun p => p.1 == pipe) then
      { t with sent :=
          if op.issued + f.stepCycles * step = pipe ∧ step < nb then
            t.sent.draw { fmt := f, a := a, b := b, shadow := shadow, pad := pad, step := step, i := 0, j := 0, asked := wall, seq := op.seq } value
          else { t.sent with sample := t.sent.sample.map (fun x =>
            if x.v.isNone && x.seq == op.seq && x.step == step then { x with v := value x.i x.j } else x) } }
    else t
  | _ => t

/-- The header check of MCHR when its header row is requested (R118). -/
def Tile.chainCheck (t : Tile) (ctx : IssueCtx) (op : NmaOp) : Tile :=
  match op.kind with
  | .receive row chain i0 nbr =>
    if op.issued = ctx.pipe ∧ !(match chainHeader? (t.fetchRow row).seen with
        | some h => chainOk t.nma h chain i0 nbr | none => false) then
      { t.cancel op.seq with
        dueHalts := t.dueHalts ++ [{ due := ctx.pipe + 6, seq := op.seq, reason := .operandRange, bundle := op.bundle, slot := .m }] }
    else t
  | _ => t

def Tile.fetchNmaOp (t : Tile) (ctx : IssueCtx) : Tile :=
  match t.nma.op with
  | some op =>
    if op.failed then t
    else
      let r := (t.chainCheck ctx op).fetchFor ctx op.fetch op.seq op.bundle .m .matrix
      ({ r.1 with nma := { r.1.nma with op := r.1.nma.op.map (fun o => NmaOp.withFetch o r.2) } } : Tile).drawSentinel op r.2 ctx.wall ctx.pipe
  | none => t

def Tile.fetchDsm (t : Tile) (ctx : IssueCtx) : Tile :=
  match t.nma.dsm with
  | some d =>
    if d.failed then t
    else
      let r := t.fetchFor ctx d.fetch d.seq d.bundle .m .matrix
      { r.1 with nma := { r.1.nma with dsm := r.1.nma.dsm.map (fun o => DsmOp.withFetch o r.2) } }
  | none => t

/-- The requests of the NMA's operations in this cycle. -/
def Tile.fetchNma (t : Tile) (ctx : IssueCtx) : Tile := (t.fetchNmaOp ctx).fetchDsm ctx

/-- What happens at the start of a pipeline cycle to operations in flight: a row delivered, a condition due, the close of a transform, the check of a
permutation, the row requests of the cycle with the check of R187 on them. -/
inductive Due
  | read (r : RowRead)
  | halt (h : DueHalt)
  | close
  | perm
  | fetchTu
  | fetchNma
  | fetchDsm
deriving DecidableEq, Repr

/-- What is due in the tile, each with the issue number of its operation. -/
def Tile.dueNow (t : Tile) (ctx : IssueCtx) : List (Nat × Due) :=
  ((t.reads.filter (fun r => decide (r.due ≤ ctx.pipe))).map (fun r => (r.seq, Due.read r))) ++
  ((t.dueHalts.filter (fun h => decide (h.due ≤ ctx.pipe))).map (fun h => (h.seq, Due.halt h))) ++
  (match t.tu.op with | some op => [(op.seq, Due.close), (op.seq, Due.perm), (op.seq, Due.fetchTu)] | none => []) ++
  (match t.nma.op with | some op => [(op.seq, Due.fetchNma)] | none => []) ++
  (match t.nma.dsm with | some op => [(op.seq, Due.fetchDsm)] | none => [])

/-- Insertion by issue number, after equals. -/
def insertDue (x : Nat × Due) : List (Nat × Due) → List (Nat × Due)
  | [] => [x]
  | y :: ys => if x.1 < y.1 then x :: y :: ys else y :: insertDue x ys

def Tile.meet (t : Tile) (ctx : IssueCtx) : Due → Tile
  | .read r => t.deliver ctx r (if r.corrected then .corrected else .clean)
  | .halt h => { t with dueHalts := t.dueHalts.erase h }.halt ctx.sched { reason := h.reason, bundle := h.bundle, slot := h.slot.code, issue := h.seq }
  | .close => t.closeDue ctx none
  | .perm => t.permCheck ctx
  | .fetchTu => t.fetchTu ctx
  | .fetchNma => t.fetchNmaOp ctx
  | .fetchDsm => t.fetchDsm ctx

/-- What the tile does at the start of pipeline cycle `ctx.pipe`, before its group's bundles issue: operations in flight meet what is due and make their
row requests, the earliest issued first (R269). -/
def Tile.settle (t : Tile) (ctx : IssueCtx) : Tile :=
  ((t.dueNow ctx).foldl (fun l x => insertDue x l) []).foldl (fun t x => t.meet ctx x.2) t

/-- The end of pipeline cycle `ctx.pipe`: writebacks, rows and ends of operations (R52, R74, R95), and the bank slots that the engine
has taken in the wall cycle (R131). -/
def Tile.endCycle (t : Tile) (ctx : IssueCtx) : Tile :=
  let reads := (t.reads.filter (fun r => r.due == ctx.pipe + 6)).map (fun r => bankOf r.row)
  ((({ t with slotWall := ctx.wall, slotReads := reads, slotWrites := [], before := [] }.landDue (ctx.pipe + 1)).tuCycle ctx).nmaCycle ctx)

/-- Drops every operation, read and result in flight (R250, R47). -/
def Tile.dropFlights (t : Tile) : Tile :=
  { t with flights := [], reads := [], dueHalts := [], pend := [], holds := []
           tu := { t.tu with op := none }, nma := { t.nma with op := none, tails := [], dsm := none, closes := [] } }

/-- Whether the end-of-stage marker can complete (R166, R192, R238). -/
def Tile.markerMet (t : Tile) : Bool :=
  t.dma.queues.all (·.isEmpty) && t.rings.all (fun r => !r.armed || decide (r.pages ≤ r.done)) &&
  t.flights.isEmpty && t.reads.isEmpty && t.dueHalts.isEmpty && t.tu.op.isNone && t.nma.op.isNone && t.nma.tails.isEmpty &&
  t.nma.dsm.isNone && t.nma.closes.isEmpty && t.nma.outbox.isEmpty

/-- Whether a pending instruction can complete (R240). -/
def Tile.pendMet (t : Tile) (p : Pending) : Bool :=
  match p.kind with
  | .wait c k => decide (k.toNat ≤ t.arrival[c.toNat].toNat)
  | .dma q _ _ => decide (t.dma.queues[q.toNat].length < 32)
  | .marker => t.markerMet && t.pend.head? == some p

/-- A pending instruction completes in wall cycle x; its freeze ends after x + 2, a marker's after x (R239, R240). -/
def Tile.completePend (t : Tile) (x : Nat) (p : Pending) : Tile :=
  let t := { t with pend := t.pend.erase p
                    holds := if x = p.wall then t.holds else t.holds ++
                      [match p.kind with | .marker => (p.wall + 1, x, true) | _ => (p.wall + 3, x + 2, false)] }
  match p.kind with
  | .wait c k => { t with arrival := t.arrival.set c.toNat (t.arrival[c.toNat] - k), taken := t.taken ++ [(c, k.toNat)] }
  | .dma q index bits => { t with dma := { t.dma with queues := t.dma.queues.set q.toNat (t.dma.queues[q.toNat] ++ [{ index := index, bits := bits }]) } }
  | .marker => { t with done := true }

/-- An instruction that can complete in its issue cycle x does, in issue order (R240). -/
def Tile.tryPend (t : Tile) (x : Nat) : Tile :=
  (t.pend.filter (fun p => p.wall == x)).foldl (fun t p => if t.pendMet p then t.completePend x p else t) t

/-- Whether a wait of the tile, not a marker, freezes the group in wall cycle w (R239, R240). -/
def Tile.waitFreezes (t : Tile) (w : Nat) : Bool :=
  t.pend.any (fun p => (match p.kind with | .marker => false | _ => true) && decide (p.wall + 3 ≤ w)) ||
  t.holds.any (fun h => !h.2.2 && decide (h.1 ≤ w) && decide (w ≤ h.2.1))

/-- Whether a marker of the tile freezes the group in wall cycle w (R240). -/
def Tile.markerFreezes (t : Tile) (w : Nat) : Bool :=
  t.pend.any (fun p => (match p.kind with | .marker => true | _ => false) && decide (p.wall + 1 ≤ w)) ||
  t.holds.any (fun h => h.2.2 && decide (h.1 ≤ w) && decide (w ≤ h.2.1))

end Sys2Proof.Machine
end

