-- ==== Sys2Proof/Machine/DmaOps.lean ====
section
/-! DEFINITION. The tile DMA at work (07 R154 to R167): element requests, the bank slots of the remote and DMA ports (06 R131, R134 to R136),
returned data, landed writes, arrivals; chain packets (05 R116). -/

namespace Sys2Proof.Machine

def Tile.queue (t : Tile) (q : BitVec 2) : List DmaJob := t.dma.queues[q.toNat]
def Tile.setQueue (t : Tile) (q : BitVec 2) (js : List DmaJob) : Tile := { t with dma := { t.dma with queues := t.dma.queues.set q.toNat js } }

/-- The head descriptor of a queue changed. -/
def Tile.setHead (t : Tile) (q : BitVec 2) (j : DmaJob) : Tile :=
  match t.queue q with
  | _ :: rest => t.setQueue q (j :: rest)
  | [] => t

/-- DMA_ERR (R170). -/
def Tile.dmaError (t : Tile) (q : BitVec 2) (j : DmaJob) (kind : Nat) (element : Nat) : Tile :=
  { t with dma := { t.dma with errDesc := j.index, errQueue := q, errKind := BitVec.ofNat 3 kind, errElement := BitVec.ofNat 16 element } }

/-- A row of a descriptor's index tensor or coordinate list, as the queue has read it (R156, R157). -/
def DmaJob.listData (j : DmaJob) (r : Nat) : SectorBits := (j.list.getD (r - dListRow j.bits) (0, 0)).2

/-- Whether the queue has by wall cycle `wall` the whole list that a descriptor needs (R156; log 18). -/
def DmaJob.listRead (j : DmaJob) (wall : Nat) : Bool :=
  decide ((listRows j.bits).length ≤ j.list.length) && j.list.all (fun p => decide (p.1 ≤ wall))

/-- Why a place may not be accessed: the kind of DMA_ERR (R161, R170). -/
def Dev.placeError (d : Dev) : Place → Option Nat
  | .scratch t r => if (d.tile t).powered r then none else some 4
  | .near s => if d.mem.nearValid s then none else some 5
  | .far s => if d.mem.farValid s then none else some 5

/-- A row that does not exist halts the tile whose scratchpad it names (R146). -/
def Dev.boundsHalt (d : Dev) (t : TileId) (row : Nat) (port : BitVec 2) : Dev :=
  d.onTile t (fun x => (x.scrErr row port 3).halt (d.schedOf t) { reason := .scratchBounds, bundle := x.lastIssued, async := true, rank := 2 })

/-- A failure during transfer (R161): the issuing tile halts, and with it another tile whose row does not exist (R146). -/
def Dev.dmaFail (d : Dev) (t : TileId) (q : BitVec 2) (j : DmaJob) (kind : Nat) (bad : Option (TileId × Nat × BitVec 2)) : Dev :=
  let d := match bad with | some (u, r, port) => if u = t then d else d.boundsHalt u r port | none => d
  d.onTile t (fun x =>
    let x := match bad with | some (u, r, port) => if u = t then x.scrErr r port 3 else x | none => x
    ((x.setHead q { j with failed := true }).dmaError q j kind j.cursor).halt (d.schedOf t)
      { reason := if kind = 4 then .scratchBounds else .operandRange, bundle := x.lastIssued, async := true, rank := 2 })

/-- The row a failing place names, with its port: DMA for a read or a local write, remote for a write to another tile. -/
def badRow (self : TileId) (write : Bool) : Place → Option (TileId × Nat × BitVec 2)
  | .scratch u r => some (u, r, if write && u != self then 1 else 2)
  | _ => none

/-- Whether queues send requests: in a run in which no tile has halted and COUNT_REACHED has not come (R167). -/
def Dev.queueRuns (d : Dev) : Bool := d.running && decide (d.run.haltOrder.1 = 0) && !d.run.countReached

/-- Where the e-th element of a descriptor goes, none where it is skipped, or why it fails: the kind of DMA_ERR with the row (R161). Of several failures of
one element the model records the first of edge, list entry, source reference, destination reference, source row, destination row: R161 gives no order
(DESIGN CHOICE, log 18). -/
def Dev.elementPlaces (d : Dev) (t : TileId) (j : DmaJob) (e : Nat) : Except (Nat × Option (TileId × Nat × BitVec 2)) (Option (Place × Place)) :=
  match element j.bits j.listData e with
  | .fail k => .error (k, none)
  | .skip => .ok none
  | .move a b =>
    match resolve t (d.tile t).dma.owners (dSrc j.bits) a, resolve t (d.tile t).dma.owners (dDst j.bits) b with
    | .error k, _ => .error (k, none)
    | _, .error k => .error (k, none)
    | .ok src, .ok dst =>
      match d.placeError src, d.placeError dst with
      | some k, _ => .error (k, badRow t false src)
      | _, some k => .error (k, badRow t true dst)
      | none, none => .ok (some (src, dst))

/-- The element at the cursor is requested. -/
def Dev.dmaStep (d : Dev) (t : TileId) (q : BitVec 2) (j : DmaJob) : Dev :=
  match d.elementPlaces t j j.cursor with
  | .error (k, bad) => d.dmaFail t q j k bad
  | .ok none => d.onTile t (fun x => x.setHead q { j with cursor := j.cursor + 1 })
  | .ok (some (src, dst)) =>
    let xf : Xfer := { src := src, dst := dst, ordinal := j.cursor, off := if dByte j.bits then dByteOff j.bits else 0
                       len := if dByte j.bits then dCount j.bits 0 else 576, asked := d.tick.wall }
    d.onTile t (fun x => x.setHead q { j with cursor := j.cursor + 1, xfers := j.xfers ++ [xf], lastAsked := some d.tick.wall })

/-- The next row of a descriptor's list is requested. A row that does not exist fails when it is reached, with no element yet: ELEMENT is 0 (DESIGN CHOICE,
log 18). -/
def Dev.listStep (d : Dev) (t : TileId) (q : BitVec 2) (j : DmaJob) : Dev :=
  match (listRows j.bits)[j.listAsked.length]? with
  | some r =>
    if (d.tile t).powered r then
      d.onTile t (fun x => x.setHead q { j with listAsked := j.listAsked ++ [d.tick.wall], lastAsked := some d.tick.wall })
    else d.dmaFail t q j 4 (some (t, r, 2))
  | none => d

/-- The next request of a queue's first descriptor, one a cycle (R151, R154 to R161): the rows of its list before any element. -/
def Dev.dmaRequest (d : Dev) (t : TileId) (q : BitVec 2) : Dev :=
  match (d.tile t).queue q with
  | j :: _ =>
    if !d.queueRuns || (d.tile t).halted || j.failed || j.stopped || decide (descTotal j.bits ≤ j.cursor) || j.lastAsked == some d.tick.wall then d
    else if j.listRead d.tick.wall then d.dmaStep t q j
    else d.listStep t q j
  | [] => d

/-- The first queue of the device with an element that waits for data from a place. -/
def Dev.waitingOn (d : Dev) (p : Place → Bool) : Option (TileId × BitVec 2 × DmaJob × Xfer) :=
  (allTiles.flatMap (fun t => [0, 1, 2, 3].map (fun q => (t, (q : BitVec 2))))).findSome? (fun tq =>
    match (d.tile tq.1).queue tq.2 with
    | j :: _ => (j.xfers.find? (fun x => x.data.isNone && p x.src)).map (fun x => (tq.1, tq.2, j, x))
    | [] => none)

/-- An element of a descriptor changed. -/
def DmaJob.update (j : DmaJob) (y : Xfer) : DmaJob := { j with xfers := j.xfers.map (fun x => if x.ordinal = y.ordinal then y else x) }

/-- The die links between a tile and a place (R14). -/
def placePath (t : TileId) (nearPage : Nat) : Place → List Nat
  | .scratch u _ => ringPath (t.toNat / 16) (u.toNat / 16)
  | .near _ => ringPath (t.toNat / 16) (pageChannel nearPage / 64)
  | .far _ => [4 + t.toNat / 16]

def Dev.pathOf (d : Dev) (t : TileId) (p : Place) : List Nat := placePath t (match p with | .near s => (d.mem.nearKey s).1 | _ => 0) p

def Dev.placeHeld (d : Dev) (t : TileId) (p : Place) : Bool := d.linkHeld (d.pathOf t p)

/- Bank slots (R131, R134). -/

/-- A request that a remote or DMA port could serve in this wall cycle: tile, bank, direction, port, and when it arrived. -/
structure PortReq where
  tile : TileId
  bank : Nat
  write : Bool
  remote : Bool
  asked : Nat
deriving DecidableEq, Repr

/-- What an element waits for. -/
inductive XferNeed
  | source | merge | land | nothing
deriving DecidableEq, Repr

/-- Whether an element writes less than a row (R135). -/
def Xfer.partial_ (x : Xfer) : Bool := !(x.off == 0 && x.len == 576)

/-- What an element waits for in scratchpad, and whether the least time of its access has passed (R135, R136). -/
def Xfer.need (x : Xfer) (wall : Nat) : XferNeed :=
  match x.data, x.dst, x.src with
  | none, _, .scratch _ _ => if x.asked + 8 ≤ wall then .source else .nothing
  | some _, .scratch _ _, _ =>
    if x.partial_ && x.merged.isNone then (if x.ready ≤ wall then .merge else .nothing)
    else if x.ready + 4 ≤ wall && (match x.merged with | some (c, _) => decide (c + 2 ≤ wall) | none => true) then .land else .nothing
  | _, _, _ => .nothing

/-- The port request of an element of a queue of tile t. -/
def Xfer.portReq (x : Xfer) (t : TileId) (wall : Nat) : Option PortReq :=
  match x.need wall, x.src, x.dst with
  | .source, .scratch u r, _ => some ⟨u, bankOf r, false, false, x.asked⟩
  | .merge, _, .scratch u r => some ⟨u, bankOf r, false, u != t, x.ready⟩
  | .land, _, .scratch u r => some ⟨u, bankOf r, true, u != t, x.ready⟩
  | _, _, _ => none

/-- The next list row of a descriptor and its port request (R156). -/
def DmaJob.listReq (j : DmaJob) (t : TileId) (wall : Nat) : Option (Nat × PortReq) :=
  match j.listAsked[j.list.length]?, (listRows j.bits)[j.list.length]? with
  | some a, some r => if a + 8 ≤ wall then some (r, ⟨t, bankOf r, false, false, a⟩) else none
  | _, _ => none

/-- Whether an element of a queue of tile t is one that a channel controller, the far-tier port or another tile's port has accepted: its read is theirs, or
its data is on its way to them (R167; DEDUCED, log 46). -/
def Xfer.accepted (x : Xfer) (t : TileId) : Bool :=
  let outside := fun (p : Place) => match p with | .scratch u _ => u != t | _ => true
  outside x.src || (x.data.isSome && outside x.dst)

/-- The elements of a descriptor that go on: all while queues run, else those accepted (R167). -/
def DmaJob.active (j : DmaJob) (t : TileId) (runs : Bool) : List Xfer := if runs then j.xfers else j.xfers.filter (·.accepted t)

/-- The requests of a queue's first descriptor that wait for a port: of its writes, the oldest. -/
def DmaJob.portReqs (j : DmaJob) (t : TileId) (runs : Bool) (wall : Nat) : List PortReq :=
  (match (if runs then j.listReq t wall else none) with | some p => [p.2] | none => []) ++
  ((j.active t runs).zipIdx.filterMap (fun p => match p.1.portReq t wall with
    | some r => if r.write && decide (0 < p.2) then none else some r
    | none => none))

/-- A transfer of whole rows through a remote port: the tile, when it reached the port, and the rows that have still to land, in order (R116, R131, R178,
R186). -/
structure Transfer where
  tile : TileId
  ready : Nat
  rows : List Nat
deriving DecidableEq, Repr

/-- The row addresses of a fill, in the order in which they land (R184). -/
def Ring.fillPlaces (r : Ring) (f : Fill) : List Nat :=
  let base := r.base + (f.index % max r.slots.length 1) * r.slotRows
  base :: rowsFrom (base + 8) (2 * r.s)

/-- The oldest chain packet of a sender, once its links let it through (R116, R244). -/
def Dev.packetTransfer (d : Dev) (sender : TileId) : Option Transfer :=
  match (d.tile sender).nma.outbox with
  | p :: _ =>
    if d.linkHeld (ringPath (sender.toNat / 16) (p.tile.toNat / 16)) then none
    else some ⟨p.tile, p.ready, ((rowsFrom p.row p.rows.length).takeWhile (fun r => (d.tile p.tile).powered r)).drop p.landed⟩
  | [] => none

/-- The oldest fill of a ring, once its header has passed (R186, R191). -/
def Dev.fillTransfer (d : Dev) (t : TileId) (n : BitVec 2) : Option Transfer :=
  match (d.keys.ksus[(dieOf t).toNat]).fills.find? (fun f => f.tile == t && f.ring == n) with
  | some f => f.checked.map (fun w => ⟨t, w, (((d.tile t).rings.toList.getD n.toNat {}).fillPlaces f).drop f.landed⟩)
  | none => none

/-- The oldest expansion of a tile that the KSU has started (R178). -/
def Dev.expandTransfer (d : Dev) (t : TileId) : Option Transfer :=
  match (d.tile t).expands.find? (·.started.isSome) with
  | some e => e.started.map (fun w => ⟨t, w, (e.rows.map (·.1)).drop e.landed⟩)
  | none => none

/-- The requests of a transfer in a wall cycle: none before its least time has passed (R136). -/
def Transfer.portReqs (x : Transfer) (wall : Nat) : List PortReq :=
  if x.ready + 4 ≤ wall then (ownBanks [] x.rows).map (fun r => ⟨x.tile, bankOf r, true, true, x.ready⟩) else []

/-- The rows that a sample reads: of the A operand, or of the shadow panel, and of the B operand (R99, R113). -/
def SentSample.rows (x : SentSample) (shadow : Bool) : Nat × Nat :=
  (if shadow then x.shadow + (x.step * 288 + x.i) / 16 else x.a + (x.step * shapeU x.fmt.small + x.i) / x.fmt.bpr,
    x.b + (x.step * shapeU x.fmt.small + x.j) / x.fmt.bpr)

/-- Whether the rows of a sample may be read: the array's V is known, and a DMA read's least time has passed since the draw (R113, R136; log 14). -/
def SentSample.mayRead (x : SentSample) (wall : Nat) : Bool := x.v.isSome && decide (x.asked + 8 ≤ wall)

/-- The sentinel's request for a row of its sample, the A or shadow row first (R113). -/
def SentSample.req (x : SentSample) (t : TileId) (shadow second : Bool) : PortReq :=
  ⟨t, bankOf (if second then (x.rows shadow).2 else (x.rows shadow).1), false, false, x.asked⟩

/-- The requests of a tile's sentinel for the rows that it has not read; none while its group's units stand still (R113, R115, R126). -/
def Dev.sampleReqs (d : Dev) (t : TileId) (held : Bool) : List PortReq :=
  match (d.tile t).sent.sample with
  | some x =>
    let shadow := (d.tile t).sent.ctrl.getLsbD 1
    if held || !x.mayRead d.tick.wall then []
    else (if x.gotA.isSome then [] else [x.req t shadow false]) ++ (if x.gotB.isSome then [] else [x.req t shadow true])
  | none => []

/-- Whether a throttle freezes the group in wall cycle w (R243). -/
def Group.throttled (g : Group) (w : Nat) : Bool := !g.counting && g.throttles.any (fun p => decide (p.1 ≤ w) && decide (w ≤ p.2))

/-- Whether a wait or marker of a member freezes the group (R240). -/
def Dev.waits (d : Dev) (g : Group) : Bool := !g.counting && g.members.any (fun t => (d.tile t).waitFreezes d.tick.wall)
def Dev.marks (d : Dev) (g : Group) : Bool := !g.counting && g.members.any (fun t => (d.tile t).markerFreezes d.tick.wall)

/-- Whether the units of the group's members stand still in the present wall cycle: any cause but a marker's own wait (R237, R240). -/
def Dev.unitsHeld (d : Dev) (g : Group) : Bool :=
  g.throttled d.tick.wall || g.held d.tick.wall || decide (0 < g.eccLeft) || d.waits g

/-- Whether a tile's array stands still. -/
def Dev.arrayHeld (d : Dev) (t : TileId) : Bool := match d.groupOf t with | some g => d.unitsHeld (d.group g) | none => true

/-- Every transfer of rows that has reached a remote port. -/
def Dev.transfers (d : Dev) : List Transfer :=
  allTiles.flatMap (fun t => (d.packetTransfer t).toList ++
    ([0, 1, 2, 3] : List (BitVec 2)).flatMap (fun n => (d.fillTransfer t n).toList) ++ (d.expandTransfer t).toList)

/-- Every request that waits for a port of the device. -/
def Dev.portReqs (d : Dev) : List PortReq :=
  allTiles.flatMap (fun t => (d.tile t).dma.queues.toList.flatMap (fun js => match js with
    | j :: _ => j.portReqs t d.queueRuns d.tick.wall
    | [] => []) ++ d.sampleReqs t (d.arrayHeld t)) ++
  d.transfers.flatMap (·.portReqs d.tick.wall)

/-- Whether the engine's requests of this wall cycle are known: the group has issued, or is frozen, or runs no stage (R131). -/
def Dev.portsOpen (d : Dev) (u : TileId) : Bool :=
  match d.groupOf u with
  | some g => !(d.running && (d.group g).active && (d.group g).started && !(d.group g).ended) || (d.group g).issuedAt == some d.tick.wall ||
      (d.group g).stopped == some d.tick.wall
  | none => true

/-- Whether a bank's slot is free in this wall cycle (R131). -/
def Dev.slotFree (d : Dev) (u : TileId) (bank : Nat) (write : Bool) : Bool :=
  let x := d.tile u
  x.slotWall != d.tick.wall || !(if write then x.slotWrites else x.slotReads).contains bank

/-- Takes a bank's slot. -/
def Tile.takeSlot (t : Tile) (wall bank : Nat) (write : Bool) : Tile :=
  let t := if t.slotWall = wall then t else { t with slotWall := wall, slotReads := [], slotWrites := [], before := [] }
  if write then { t with slotWrites := t.slotWrites ++ [bank] } else { t with slotReads := t.slotReads ++ [bank] }

/-- Whether a request is served now: its slot is free of the engine, and no request of a better port, or an earlier one of its own,
waits for it (R131). -/
def Dev.portGrants (d : Dev) (r : PortReq) : Bool :=
  d.portsOpen r.tile && d.slotFree r.tile r.bank r.write &&
  d.portReqs.all (fun x => !(x.tile == r.tile && x.bank == r.bank && x.write == r.write &&
    ((x.remote && !r.remote) || (x.remote == r.remote && decide (x.asked < r.asked)))))

def Dev.takePort (d : Dev) (r : PortReq) : Dev := d.onTile r.tile (fun x => x.takeSlot d.tick.wall r.bank r.write)

/- Reads. -/

/-- A descriptor with the rows of its list that the queue has not read as the scratchpad holds them now. -/
def Dev.withList (d : Dev) (t : TileId) (j : DmaJob) : DmaJob :=
  { j with list := j.list ++ ((listRows j.bits).drop j.list.length).map (fun r => (0, ((d.tile t).rowAt r).seen)) }

/-- Whether an element of a descriptor that has still to land writes a place: of a SCATTER whose list is not read yet, by the list as its rows stand
(DESIGN CHOICE, log 18). -/
def Dev.stillWrites (d : Dev) (t : TileId) (j : DmaJob) (p : Place) : Bool :=
  let j := d.withList t j
  j.xfers.any (fun x => x.dst == p) ||
  (!j.stopped && !j.failed && (List.range (descTotal j.bits - j.cursor)).any (fun k => match d.elementPlaces t j (j.cursor + k) with
    | .ok (some (_, y)) => y == p
    | _ => false))

/-- The descriptors of a queue that have still to move something: those in it, and one held because it is full (R151). -/
def Tile.issuedTo (t : Tile) (q : BitVec 2) : List DmaJob :=
  t.queue q ++ t.pend.filterMap (fun p => match p.kind with
    | .dma n index bits => if n = q then some { index := index, bits := bits } else none
    | _ => none)

/-- Whether a read of a place that was requested in wall cycle `asked` is undefined (R163): another queue writes the place in this stage, with a descriptor
in its queue or with one whose write no wait has covered before the request, or, in a tier of memory, that had not been accepted whole (R165). A read that
is served before the other descriptor issues is lost when that one writes (`loseReads`). -/
def Dev.uncovered (d : Dev) (t : TileId) (q : BitVec 2) (p : Place) (asked : Nat) : Bool :=
  d.run.stageWrites.any (fun w => w.place == p && !(w.tile == t && w.queue == q) &&
    (match (match p with | .scratch _ _ => w.covered | _ => w.accepted) with | some c => decide (asked < c) | none => true)) ||
  allTiles.any (fun u => ([0, 1, 2, 3] : List (BitVec 2)).any (fun n => !(u == t && n == q) &&
    ((d.tile u).issuedTo n).any (fun j => d.stillWrites u j p)))

/-- Data of a source as it is carried: a free value where R163 leaves it undefined. -/
def Dev.carried (d : Dev) (t : TileId) (q : BitVec 2) (src : Place) (asked : Nat) (p : Payload) : Dev × Payload :=
  if d.uncovered t q src asked then (d.drew, { p with data := BitVec.ofNat 4608 d.freeValue }) else (d, p)

/-- A codeword mask of a row as its bits. -/
def codewordBits (m : BitVec 64) : SectorBits := BitVec.ofNat 4608 (packNat 72 (fun c => if m.getLsbD c then 2 ^ 72 - 1 else 0) 64)

/-- Whether a read of a row through the DMA or the remote port meets an error that its ECC corrects, which delays it by 2 cycles (R142). -/
def Dev.readsCorrected (d : Dev) (u : TileId) (row : Nat) (corrected : Bool) : Bool := corrected || ((d.tile u).bankRow d.tick.wall row).2
def Dev.readLate (d : Dev) (u : TileId) (row : Nat) (corrected : Bool) : Nat := if d.readsCorrected u row corrected then 2 else 0

/-- A row read through the DMA or the remote port: what it held before the writes of this cycle (R131), with poison where its ECC finds an uncorrectable
codeword, and what the tile records (R142 to R144). -/
def Dev.portRead (d : Dev) (u : TileId) (row : Nat) (port : BitVec 2) (corrected : Bool) (ue : BitVec 64) : Dev × Payload :=
  let x := ((d.tile u).bankRow d.tick.wall row).1
  let d := if d.readsCorrected u row corrected then d.onTile u (fun y => y.ceRead row (!y.writtenIn d.tick.wall row)) else d
  let p : Payload := { data := x.data, poison := x.poison ||| ue }
  if ue != 0 then
    ((d.onTile u (fun y => (y.scrErr row port 1).raiseScr 2)).event u.toNat evScratchUe [(16, row), (18, port.toNat)], p)
  else if x.poison != 0 then (d.onTile u (fun y => y.scrErr row port 2), p)
  else (d, p)

/-- Bytes a to a + n − 1 of a row replaced (R135): a codeword wholly covered takes the poison of the data, any other keeps its own and
gains the data's (DESIGN CHOICE, log 79: R135 speaks of bytes, R140 of codewords). -/
def Row.patch (r : Row) (a n : Nat) (p : Payload) : Row :=
  if a = 0 ∧ n = 576 then { data := p.data, poison := p.poison }
  else
    let mask : SectorBits := BitVec.ofNat 4608 ((2 ^ (8 * n) - 1) * 2 ^ (8 * a))
    let whole := BitVec.ofNat 64 (packNat 1 (fun c => (decide (a ≤ 9 * c) && decide (9 * c + 9 ≤ a + n)).toNat) 64)
    let some_ := BitVec.ofNat 64 (packNat 1 (fun c => (decide (a < 9 * c + 9) && decide (9 * c < a + n)).toNat) 64)
    { data := (r.data &&& ~~~mask) ||| (p.data &&& mask), poison := (r.poison &&& ~~~whole) ||| (p.poison &&& some_) }

/-- A row of a queue's list as the queue has it: free values in the codewords that are poisoned or uncorrectable (DESIGN CHOICE, log 18). -/
def Dev.listRow (d : Dev) (p : Payload) : Dev × SectorBits :=
  let v : SectorBits := BitVec.ofNat 4608 d.freeValue
  let bad := codewordBits p.poison
  (if p.poison = 0 then d else d.drew, (p.data &&& ~~~bad) ||| (v &&& bad))

/-- DMA_READ_RETURN: the next row that a queue reads from a scratchpad, with what its ECC finds: a row of its list, else the source or
the read-modify-write row of its first element that waits for one (R135, R136, R142 to R144, R156, R163). A corrected row is two cycles later. An element
that reads a row which an earlier element of its descriptor writes gets what the row holds when the read is served, be the write done or not: R154 does
not say (DESIGN CHOICE, log 18). -/
def Dev.dmaReadReturn (d : Dev) (t : TileId) (q : BitVec 2) (corrected : Bool) (ue : BitVec 64) : Dev :=
  match (d.tile t).queue q with
  | [] => d
  | j :: _ =>
    match (if d.queueRuns then j.listReq t d.tick.wall else none) with
    | some (row, r) =>
      if !d.portGrants r then d
      else
        let late := d.readLate t row corrected
        let p := (d.takePort r).portRead t row 2 corrected ue
        let c := p.1.carried t q (.scratch t row) r.asked p.2
        let l := c.1.listRow c.2
        l.1.onTile t (fun y => y.setHead q { j with list := j.list ++ [(d.tick.wall + late, l.2)] })
    | none =>
      match (j.active t d.queueRuns).find? (fun x => x.need d.tick.wall == .source || x.need d.tick.wall == .merge) with
      | none => d
      | some x =>
        match x.portReq t d.tick.wall, x.need d.tick.wall, x.src, x.dst with
        | some r, .source, .scratch u row, _ =>
          if d.placeHeld t x.src || !d.portGrants r then d
          else
            let late := d.readLate u row corrected
            let p := (d.takePort r).portRead u row 2 corrected ue
            let c := p.1.carried t q x.src x.asked p.2
            c.1.onTile t (fun y => y.setHead q (j.update { x with data := some c.2, ready := d.tick.wall + late }))
        | some r, .merge, _, .scratch u row =>
          if d.placeHeld t x.dst || !d.portGrants r then d
          else
            let late := d.readLate u row corrected
            let p := (d.takePort r).portRead u row (if u = t then 2 else 1) corrected ue
            let m : Row := { data := p.2.data, poison := p.2.poison }
            p.1.onTile t (fun y => y.setHead q (j.update { x with
              merged := some (d.tick.wall + late, m.patch x.off x.len (x.data.getD ⟨0, 0⟩)) }))
        | _, _, _, _ => d

def execDmaReadReturn (t : TileId) (q : BitVec 2) (corrected : Bool) (uncorrectable : BitVec 64) (s : State) :
    Host.Outcome State Fault Refusal := s.act (fun d => d.dmaReadReturn t q corrected uncorrectable)

/-- The data of a near-tier or far-tier sector reaches the queue that waits for it. -/
def Dev.supply (d : Dev) (t : TileId) (q : BitVec 2) (j : DmaJob) (x : Xfer) (s : Sector) : Dev :=
  let c := d.carried t q x.src x.asked { data := s.data, poison := spreadPoison s.poison }
  c.1.onTile t (fun y => y.setHead q (j.update { x with data := some c.2, ready := d.tick.wall }))

/-- The first element that waits for the data of a near-tier sector. -/
def Dev.waitingNear (d : Dev) (channel : Byte) (page : BitVec 16) (sector : BitVec 7) : Option (TileId × BitVec 2 × DmaJob × Xfer) :=
  d.waitingOn (fun x => match x with | .near s => d.mem.nearKey s == (physPage channel.toNat page.toNat, sector.toNat) | _ => false)

/-- A channel serves the read of a sector that a queue waits for (R197, R205, R206). -/
def Dev.nearServe (d : Dev) (channel : Byte) (page : BitVec 16) (sector : BitVec 7) (ecc : SectorEcc) : Dev :=
  match d.waitingNear channel page sector with
  | some (t, q, j, x) =>
    let r := d.readNear (physPage channel.toNat page.toNat) sector.toNat ecc
    r.1.supply t q j x r.2
  | none => d

/-- NEAR_READ_RETURN: a queue's read reaches its channel, which serves it in its turn: after the end of a refresh slot, and after what has been accepted
before it (R197, R208). -/
def Dev.nearReturn (d : Dev) (channel : Byte) (page : BitVec 16) (sector : BitVec 7) (ce ue : BitVec 32) : Dev :=
  match d.waitingNear channel page sector with
  | some (t, _, _, x) =>
    let h : Held := .fetch (d.pathOf t x.src) channel page sector ⟨ce, ue⟩
    if d.mustWait d.held h then d.hold h else d.nearServe channel page sector ⟨ce, ue⟩
  | none => d

def execNearReadReturn (channel : BitVec 8) (page : BitVec 16) (sector : BitVec 7) (ce ue : BitVec 32) (s : State) :
    Host.Outcome State Fault Refusal := s.act (fun d => d.nearReturn channel page sector ce ue)

/-- A far-tier sector reaches the queue that waits for it (R218). -/
def Dev.farSupply (d : Dev) (sector : Nat) (lines : BitVec 9) (timeout : Bool) : Dev :=
  match d.waitingOn (fun x => match x with | .far s => s == sector | _ => false) with
  | some (t, q, j, x) =>
    if d.placeHeld t x.src then d
    else
      let r := d.readFar sector lines timeout
      r.1.supply t q j x r.2
  | none => d

/-- FAR_READ_RETURN (R217, R218): nothing returns over a link that is down. -/
def execFarReadReturn (sector : Nat) (lines : BitVec 9) (s : State) : Host.Outcome State Fault Refusal :=
  s.act (fun d => if d.mem.farLinkDown (sector / 113) then d else d.farSupply sector lines false)

/-- FAR_READ_TIMEOUT (R218). -/
def execFarReadTimeout (sector : Nat) (s : State) : Host.Outcome State Fault Refusal := s.act (fun d => d.farSupply sector 0 true)

/-- FAR_WRITE_LOST: an accepted write did not complete; what the sector then holds is a free value (R218; log 4). Of a sector that is not mapped, as
after a trip, no write has been accepted (R216, R446). -/
def execFarWriteLost (sector : Nat) (s : State) : Host.Outcome State Fault Refusal :=
  s.act (fun d =>
    if !d.mem.farValid sector then d
    else
      let v := d.freeValue
      (d.drew.onMem (fun m => m.writeFar sector { data := BitVec.ofNat 4608 v })).event srcFar evFarWriteLost [(16, sector / 113)])

/-- FAR_LINK_DOWN (R218). -/
def execFarLinkDown (link : BitVec 2) (s : State) : Host.Outcome State Fault Refusal :=
  s.act (fun d =>
    if d.mem.farUp.getLsbD link.toNat then
      let m := BitVec.ofNat 4 (2 ^ link.toNat)
      (d.onMem (fun x => { x with farUp := x.farUp &&& ~~~m, farDown := x.farDown ||| m })).event srcFar evFarLinkDown [(16, link.toNat)]
    else d)

/- Writes and arrivals. -/

/-- An arrival at a counter, numbered so that R163 can tell which wait consumes it; the writes of a queue that it covers take its number. -/
def Dev.arriveAt (d : Dev) (u : TileId) (c : BitVec 6) (by_ : Option (TileId × BitVec 2)) : Dev :=
  let n := d.run.arrivalCount
  let covers := fun (w : StageWrite) => w.arrival.isNone && by_ == some (w.tile, w.queue) &&
    (match w.place with | .scratch v _ => v == u | _ => by_.any (fun b => b.1 == u))
  ({ d with run := { d.run with
      arrivalCount := n + 1, arrivals := d.run.arrivals ++ [(u, c, n)]
      stageWrites := d.run.stageWrites.map (fun w => if covers w then { w with arrival := some n } else w) } }).onTile u
    (·.arrive d.tick.wall c)

/-- Removes the first k entries of a list that `p` names. -/
def dropFirst {α : Type} (p : α → Bool) : Nat → List α → List α × List α
  | _, [] => ([], [])
  | 0, l => ([], l)
  | k + 1, x :: xs =>
    if p x then (let r := dropFirst p k xs; (x :: r.1, r.2)) else (let r := dropFirst p (k + 1) xs; (r.1, x :: r.2))

/-- A wait of tile t has taken k arrivals of counter c, the oldest first: the writes they name are covered (R163). -/
def Dev.cover (d : Dev) (t : TileId) (c : BitVec 6) (k : Nat) : Dev :=
  let r := dropFirst (fun a => a.1 == t && a.2.1 == c) k d.run.arrivals
  let ids := r.1.map (·.2.2)
  { d with run := { d.run with
    arrivals := r.2
    stageWrites := d.run.stageWrites.map (fun w =>
      if w.covered.isNone && (match w.arrival with | some n => ids.contains n | none => false) then { w with covered := some d.tick.wall } else w) } }

/-- The waits that tile t has completed take their arrivals. -/
def Dev.coverTaken (d : Dev) (t : TileId) : Dev :=
  let l := (d.tile t).taken
  if l.isEmpty then d
  else l.foldl (fun d p => d.cover t p.1 p.2) (d.setTile t { d.tile t with taken := [] })

/- A read of a place that another queue writes later in the stage is undefined too (R163): the data that it brought are lost where they lie now. -/

/-- Bytes a to a + n − 1 of x as y has them. -/
def overBytes (x y : SectorBits) (a n : Nat) : SectorBits :=
  let mask : SectorBits := BitVec.ofNat 4608 ((2 ^ (8 * n) - 1) * 2 ^ (8 * a))
  (x &&& ~~~mask) ||| (y &&& mask)

/-- An element whose data, if they have come, are lost to v. -/
def Xfer.lose (v : SectorBits) (x : Xfer) : Xfer :=
  { x with data := x.data.map (fun p => { p with data := v })
           merged := x.merged.map (fun m => (m.1, { m.2 with data := overBytes m.2.data v x.off x.len })) }

/-- A descriptor of tile t that has read place p: elements in flight, and rows of its list. -/
def DmaJob.hasRead (j : DmaJob) (t : TileId) (p : Place) : Bool :=
  j.xfers.any (fun x => x.src == p && x.data.isSome) || ((listRows j.bits).take j.list.length).any (fun r => p == .scratch t r)
def DmaJob.lose (v : SectorBits) (t : TileId) (p : Place) (j : DmaJob) : DmaJob :=
  { j with xfers := j.xfers.map (fun x => if x.src == p then x.lose v else x)
           list := (j.list.zipIdx).map (fun e => match (listRows j.bits)[e.2]? with
             | some r => if p = .scratch t r then (e.1.1, v) else e.1
             | none => e.1) }

/-- Data lost where they have landed, unless something else lies there now. -/
def Dev.loseAt (d : Dev) (at_ : Place) (old : SectorBits) (a n : Nat) : Dev :=
  let v : SectorBits := BitVec.ofNat 4608 d.freeValue
  let x : SectorBits := match at_ with
    | .scratch u r => ((d.tile u).rowAt r).data
    | .near s => (d.mem.peekNear (d.mem.nearKey s).1 (d.mem.nearKey s).2).data
    | .far s => (d.mem.peekFar s).data
  let y := overBytes x v a n
  let lies := overBytes x old a n = x
  match at_ with
  | .scratch u r => if lies then d.drew.setTile u ((d.tile u).setRow r { (d.tile u).rowAt r with data := y }) else d
  | .far s => if lies then d.drew.onMem (fun m => m.writeFar s { m.peekFar s with data := y }) else d
  | .near s =>
    let k := d.mem.nearKey s
    let d := { d.drew with held := d.held.map (fun h => match h with
      | .store s' z p port => if s' = s ∧ z = old then .store s' v p port else h
      | h => h) }
    if lies ∧ !d.mem.retiredNear.contains k.1 then d.onMem (fun m => m.pokeNear k.1 k.2 { m.peekNear k.1 k.2 with data := y }) else d

/-- Whether another queue than q of tile t has read a place in this stage, as far as the data lie in its queue or where they landed. -/
def Dev.readElsewhere (d : Dev) (t : TileId) (q : BitVec 2) (p : Place) : Bool :=
  d.run.stageWrites.any (fun w => !(w.tile == t && w.queue == q) && w.read.any (fun r => r.1 == p)) ||
  allTiles.any (fun u => ([0, 1, 2, 3] : List (BitVec 2)).any (fun n => !(u == t && n == q) && ((d.tile u).queue n).any (fun j => j.hasRead u p)))

/-- A queue writes a place: what other queues have read there in this stage is undefined, a free value (R163). What has been computed from it
stays as it is (DESIGN CHOICE, log 84). -/
def Dev.loseReads (d : Dev) (t : TileId) (q : BitVec 2) (p : Place) : Dev :=
  if !(d.running && d.readElsewhere t q p) then d
  else
    let other := fun (u : TileId) (n : BitVec 2) => !(u == t && n == q)
    let d := d.run.stageWrites.foldl (fun d w => match w.read with
      | some r => if other w.tile w.queue && r.1 == p then d.loseAt w.place r.2.1 r.2.2.1 r.2.2.2 else d
      | none => d) d
    let v : SectorBits := BitVec.ofNat 4608 d.freeValue
    d.drew.mapTiles (fun _ => true) (fun u x => { x with dma := { x.dma with
      queues := x.dma.queues.mapIdx (fun n js => if other u (BitVec.ofNat 2 n) then js.map (·.lose v u p) else js) } })

/-- What a queue's write leaves (R163): its data, or a free value where another queue has written the place in this stage, or where the
row lies in a ring (R187). -/
def Dev.landing (d : Dev) (t : TileId) (q : BitVec 2) (y : Xfer) (p : Payload) (x : Row) : Dev × Row :=
  let d := d.loseReads t q y.dst
  let both := d.run.stageWrites.any (fun w => w.place == y.dst && !(w.tile == t && w.queue == q))
  let held := match y.dst with | .scratch u r => (d.tile u).ringHolds r | _ => false
  let w : StageWrite := { place := y.dst, tile := t, queue := q, read := some (y.src, p.data, y.off, y.len) }
  let d := if d.running then { d with run := { d.run with stageWrites := d.run.stageWrites ++ [w] } } else d
  if both || held then (d.drew, { data := BitVec.ofNat 4608 d.freeValue }) else (d, x)

/-- An element's data lands at its destination (R165, R187, R206, R218). -/
def Dev.landXfer (d : Dev) (t : TileId) (q : BitVec 2) (x : Xfer) (p : Payload) : Dev :=
  match x.dst with
  | .scratch u r =>
    let row := match x.merged with | some (_, m) => m | none => { data := p.data, poison := p.poison }
    let l := d.landing t q x p row
    l.1.onTile u (fun y => y.portWrite [(r, l.2)])
  | .near s =>
    let l := d.landing t q x p { data := p.data, poison := p.poison }
    l.1.receiveMem (.store s l.2.data (gatherPoison l.2.poison) none)
  | .far s =>
    let l := d.landing t q x p { data := p.data, poison := p.poison }
    l.1.writeFar s { data := l.2.data, poison := gatherPoison l.2.poison }

/-- Whether a descriptor has still to write tile u. -/
def Dev.willWrite (d : Dev) (t : TileId) (j : DmaJob) (u : TileId) : Bool :=
  j.xfers.any (fun x => match x.dst with | .scratch v _ => v == u | _ => false) ||
  (List.range (descTotal j.bits - j.cursor)).any (fun k => match d.elementPlaces t j (j.cursor + k) with
    | .ok (some (_, .scratch v _)) => v == u
    | _ => false)

/-- Whether an element that a descriptor has still to request fails: then no counter rises for it (R161). -/
def Dev.walkFails (d : Dev) (t : TileId) (j : DmaJob) : Bool :=
  (List.range (descTotal j.bits - j.cursor)).any (fun k => match d.elementPlaces t j (j.cursor + k) with
    | .error _ => true
    | .ok _ => false)

/-- The near tier or the far tier has accepted all of a descriptor of the queue: from now on later reads return its data (R165). -/
def Dev.acceptAll (d : Dev) (t : TileId) (q : BitVec 2) : Dev :=
  { d with run := { d.run with stageWrites := d.run.stageWrites.map (fun w =>
      if w.accepted.isNone && w.tile == t && w.queue == q then { w with accepted := some d.tick.wall } else w) } }

/-- The first descriptor of a queue leaves it once all of it has landed or been accepted; a near-tier or far-tier one then arrives (R165).
One that SKIP has stopped leaves with its last accepted request. -/
def Dev.dmaFinish (d : Dev) (t : TileId) (q : BitVec 2) : Dev :=
  match (d.tile t).queue q with
  | [] => d
  | j :: rest =>
    if !j.xfers.isEmpty then d
    else if j.stopped then d.onTile t (fun y => y.setQueue q rest)
    else if j.failed || decide (j.cursor < descTotal j.bits) then d
    else
      let d := d.acceptAll t q
      let d := if dNoArrival j.bits || decide (refSpace (dDst j.bits) ≠ 2 ∧ refSpace (dDst j.bits) ≠ 3) then d
        else d.arriveAt t (dArrival j.bits) (some (t, q))
      d.onTile t (fun y => { y.setQueue q rest with dma := { (y.setQueue q rest).dma with count := y.dma.count + 1 } })

/-- Whether the oldest element of a queue can land: in scratchpad when its port grants it; in the near tier or the far tier once its data has come
(R142): a channel accepts it at once, and makes it in its turn (R165, R197, R208). -/
def Dev.mayLand (d : Dev) (x : Xfer) (req : Option PortReq) : Bool :=
  match x.dst with
  | .scratch _ _ => x.need d.tick.wall == .land && (match req with | some r => d.portGrants r | none => false)
  | _ => decide (x.ready ≤ d.tick.wall)

/-- DMA_WRITE_LAND: the oldest element of a queue lands, after a halt the oldest accepted one (R167), with the arrival of its tile and the end of its descriptor (R136, R137, R165). -/
def Dev.dmaLand (d : Dev) (t : TileId) (q : BitVec 2) : Dev :=
  match (d.tile t).queue q with
  | [] => d
  | j :: rest =>
    match j.active t d.queueRuns with
    | [] => d.dmaFinish t q
    | x :: _ =>
      let req := x.portReq t d.tick.wall
      match (if d.placeHeld t x.dst || !d.mayLand x req then none else x.data) with
      | none => d
      | some p =>
        let d := match req with | some r => d.takePort r | none => d
        let d := d.landXfer t q x p
        let j := { j with xfers := j.xfers.erase x }
        let d := d.onTile t (fun y => y.setQueue q (j :: rest))
        let d := match x.dst with
          | .scratch u _ =>
            if j.failed || j.stopped || dNoArrival j.bits || d.willWrite t j u || d.walkFails t j then d
            else d.arriveAt u (dArrival j.bits) (some (t, q))
          | _ => d
        d.dmaFinish t q

/-- Queues stopped by ABORT or SKIP: what is left of them are the requests that have been accepted, which land in their turn (R167, R232, R250). -/
def Tile.stopQueues (t : Tile) (self : TileId) : Tile :=
  { t with dma := { t.dma with queues := t.dma.queues.map (fun js => match js with
      | j :: _ =>
        let xs := j.active self false
        if xs.isEmpty then [] else [{ j with xfers := xs, stopped := true }]
      | [] => []) } }

/-- DMA_ELEMENT_REQUEST (R154). -/
def execDmaElementRequest (t : TileId) (q : BitVec 2) (s : State) : Host.Outcome State Fault Refusal := s.act (fun d => d.dmaRequest t q)

/-- DMA_WRITE_LAND (R165). -/
def execDmaWriteLand (t : TileId) (q : BitVec 2) (s : State) : Host.Outcome State Fault Refusal := s.act (fun d => d.dmaLand t q)

/-- Whether the remote port grants a row of a transfer now (R131, R134). -/
def Dev.rowGranted (d : Dev) (x : Transfer) (r : Nat) : Bool := d.portGrants ⟨x.tile, bankOf r, true, true, x.ready⟩

/-- Whether all that a transfer has still to land can land now: its least time has passed, its rows lie in banks of their own, and the port grants each
(R131, R134, R136). -/
def Dev.completes (d : Dev) (x : Transfer) : Bool :=
  decide (x.ready + 4 ≤ d.tick.wall) && (ownBanks [] x.rows).length == x.rows.length && x.rows.all (d.rowGranted x)

/-- The rows of a transfer, all but its last, that land in this cycle: the next ones in order, as far as the port grants them (R131, R134, R136). -/
def Dev.landsNow (d : Dev) (x : Transfer) : List Nat :=
  if x.ready + 4 ≤ d.tick.wall then (ownBanks [] x.rows.dropLast).takeWhile (d.rowGranted x) else []

def Tile.takeSlots (t : Tile) (wall : Nat) (rows : List Nat) : Tile := rows.foldl (fun t r => t.takeSlot wall (bankOf r) true) t

/-- Rows of a chain packet from the k-th on, as they land. -/
def ChainPacket.rowsAt (p : ChainPacket) (k : Nat) (rows : List Nat) : List (Nat × Row) :=
  rows.zip ((p.rows.drop k).map (fun x => ({ data := x } : Row)))

/-- CHAIN_PACKET_LAND: what is left of the oldest packet of a sender lands on its tile, whose counter rises (R116, R137, R146). -/
def execChainPacketLand (sender : TileId) (s : State) : Host.Outcome State Fault Refusal :=
  s.act (fun d => match (d.tile sender).nma.outbox, d.packetTransfer sender with
    | p :: rest, some x =>
      if !(d.portsOpen p.tile && d.completes x) then d else
      let d := d.onTile sender (fun y => { y with nma := { y.nma with outbox := rest } })
      let d := d.onTile p.tile (fun y => (y.takeSlots d.tick.wall x.rows).portWrite (p.rowsAt p.landed x.rows))
      match (rowsFrom p.row p.rows.length).find? (fun r => !(d.tile p.tile).powered r) with
      | some r => d.boundsHalt p.tile r 1
      | none => d.arriveAt p.tile p.counter none
    | _, _ => d)

/- The rows of a transfer but its last land as the clock goes on, each in a cycle in which its bank's write slot is free (R131; log 85). -/

/-- The next rows of a sender's oldest packet land. -/
def Dev.servePacket (d : Dev) (sender : TileId) : Dev :=
  match (d.tile sender).nma.outbox, d.packetTransfer sender with
  | p :: rest, some x =>
    let rows := d.landsNow x
    let d := d.onTile p.tile (fun y => (y.takeSlots d.tick.wall rows).portWrite (p.rowsAt p.landed rows))
    d.onTile sender (fun y => { y with nma := { y.nma with outbox := { p with landed := p.landed + rows.length } :: rest } })
  | _, _ => d

/-- The next rows of a ring's oldest fill have their write slots. What they hold comes with the fill's completion: until then its slot is FILLING, and an
engine read of it halts (R187). -/
def Dev.serveFill (d : Dev) (t : TileId) (n : BitVec 2) : Dev :=
  match d.fillTransfer t n with
  | some x =>
    let rows := d.landsNow x
    let k := d.keys.ksus[(dieOf t).toNat]
    let fills := match k.fills.find? (fun f => f.tile == t && f.ring == n) with
      | some f => k.fills.map (fun g => if g = f then { g with landed := g.landed + rows.length } else g)
      | none => k.fills
    { d with keys := { d.keys with ksus := d.keys.ksus.set (dieOf t).toNat { k with fills := fills } } }.onTile t (·.takeSlots d.tick.wall rows)
  | none => d

/-- The next rows of a tile's oldest started expansion land. -/
def Dev.serveExpansion (d : Dev) (t : TileId) : Dev :=
  match (d.tile t).expands.find? (·.started.isSome), d.expandTransfer t with
  | some e, some x =>
    let rows := d.landsNow x
    d.onTile t (fun y => { (y.takeSlots d.tick.wall rows).portWrite ((e.rows.drop e.landed).take rows.length) with
      expands := y.expands.map (fun z => if z = e then { e with landed := e.landed + rows.length } else z) })
  | _, _ => d

/-- The remote ports serve the transfers that wait, at the end of a wall cycle (R131). -/
def Dev.serveRemote (d : Dev) : Dev :=
  if (d.transfers).isEmpty then d
  else allTiles.foldl (fun d t => ((([0, 1, 2, 3] : List (BitVec 2)).foldl (fun d n => d.serveFill t n) (d.servePacket t)).serveExpansion t)) d

/-- The places that a descriptor writes, SKIP or not (R164): of a SCATTER by its list as the rows hold it when the descriptor issues, though the queue
reads it later (DESIGN CHOICE, log 18). -/
def Dev.extent (d : Dev) (t : TileId) (j : DmaJob) : List Place :=
  let x := d.tile t
  let free := if dEdge j.bits = 2 then BitVec.ofNat 512 (j.bits.toNat - 2 ^ 6 + 2 ^ 5) else j.bits
  (List.range (descTotal j.bits)).filterMap (fun e =>
    match element free (fun r => (x.rowAt r).seen) e with
    | .move _ b => match resolve t x.dma.owners (dDst free) b with
      | .ok p => some p
      | .error _ => none
    | _ => none)

/-- The descriptors that a tile has issued since `before`: in its queues, or held for a full one (R151, R164). -/
def Tile.issuedSince (t before : Tile) : List DmaJob :=
  ([0, 1, 2, 3] : List (BitVec 2)).flatMap (fun q => (t.queue q).drop (before.queue q).length) ++
  (t.pend.filter (fun p => !before.pend.contains p)).filterMap (fun p => match p.kind with
    | .dma _ index bits => some { index := index, bits := bits }
    | _ => none)

/-- The hazard detector on the descriptors that a bundle has just issued (R164, R307): a row or sector that another descriptor of the stage writes halts
the tile. Of two that members of a group issue in one cycle, the later one is that of the member which stands later in the group's list (DESIGN CHOICE,
log 89: R164 gives no order). -/
def Dev.extentCheck (d : Dev) (g : GroupId) (t : TileId) (before : Tile) (bundle : BitVec 14) : Dev :=
  if !d.run.hazard then d
  else
    ((d.tile t).issuedSince before).foldl (fun d j =>
      let e := d.extent t j
      let clash := e.any (fun p => d.run.extents.any (fun x => x.1 == g && x.2 == p))
      let d := { d with run := { d.run with extents := d.run.extents ++ e.map (fun p => (g, p)) } }
      if clash then d.onTile t (fun x => x.halt (d.schedOf t) { reason := .hazard, bundle := bundle, rank := 4 }) else d) d

end Sys2Proof.Machine
end

