-- ==== Sys2Proof/Machine/KeyStream.lean ====
section
/-! DEFINITION. The Key Stream Units (08): keys and where they lie, grants by deadline, header checks, fills and expansions. -/

namespace Sys2Proof.Machine

def Dev.ksu (d : Dev) (die : DieId) : Ksu := d.keys.ksus[die.toNat]
def Dev.setKsu (d : Dev) (die : DieId) (k : Ksu) : Dev := { d with keys := { d.keys with ksus := d.keys.ksus.set die.toNat k } }

/-- A bound key set (R20). -/
def Keys.set? (k : Keys) (id : Word) : Option BoundSet := k.bound.find? (fun b => b.table.keyset == id)

/-- Where the key of a stream lies, as installed in the last drain (R180). -/
def Keys.locate (k : Keys) (keyset : Word) (tag : Tag) : Option KrtEntry :=
  k.installed.find? (fun e => e.valid && e.keyset == keyset && e.kind == tag.kind && e.galois == tag.galois && e.digit == tag.digit)

/-- Page i of a run: physical near-tier page, or far-tier page (R179). -/
def KrtEntry.nearPage (e : KrtEntry) (i : Nat) : Nat := physPage ((e.channel.toNat + i) % 256) (e.page.toNat + (e.channel.toNat + i) / 256)
def KrtEntry.farPage (e : KrtEntry) (i : Nat) : Nat := e.page.toNat + i

/-- The channel of page i of a near-tier run. -/
def KrtEntry.channelOf (e : KrtEntry) (i : Nat) : Nat := (e.channel.toNat + i) % 256

/-- A read of sector o of page i of a run through its channel or the far-tier port, with what it meets (R205 to R207, R218, R219). -/
def Dev.readKey (d : Dev) (e : KrtEntry) (i o : Nat) (f : PageFindings) : Dev × Sector :=
  if e.far then d.readFar (113 * e.farPage i + o) (pageLines f o) (f.timeouts.contains o) else d.readNear (e.nearPage i) o (pageEcc f o)

/-- Sectors a to a + n − 1 of page i of a run, read in order. -/
def Dev.readKeys (d : Dev) (e : KrtEntry) (i : Nat) (f : PageFindings) (a n : Nat) : Dev × List Sector :=
  (List.range n).foldl (fun (r : Dev × List Sector) o => let x := r.1.readKey e i (a + o) f; (x.1, r.2 ++ [x.2])) (d, [])

/-- The position of a modulus-table entry in a run (R174). -/
def runPosition (b : BoundSet) (entry : Nat) : Nat := if entry < 64 then entry else b.table.limbs.length + entry - 64

/-- Entry and chunk of a ring's fill f (R183). -/
def Ring.pageOf (r : Ring) (f : Nat) : Nat × Nat := (r.entries.getD (f / max r.chunks 1) 0, f % max r.chunks 1)

/-- Slack of a ring's next fill (R189). -/
def Ring.deadline (r : Ring) (f : Nat) : Nat := r.armCycle + r.first + f * r.period

/-- Whether a ring may be granted a fill: armed, its slot at the fill index EMPTY, pages left, its tile not halted (R189, R193). -/
def Dev.ringEligible (d : Dev) (t : TileId) (r : Ring) : Bool :=
  r.armed && !(d.tile t).halted && decide (r.fill < r.pages) && r.slots.getD (r.fill % max r.slots.length 1) .full == .empty &&
  (d.keys.locate r.srcKeyset r.src).isSome

/-- What a KSU may start: a ring's fill, or the i-th of a tile's expansions. -/
inductive Grant
  | ring (t : TileId) (n : Nat)
  | expansion (t : TileId) (i : Nat)
deriving DecidableEq, Repr

/-- The requesters of a die in the order of ties, with their slack (R189). -/
def Dev.requesters (d : Dev) (die : DieId) : List (Grant × Int) :=
  let tiles := (List.range 16).map (fun i => BitVec.ofNat 6 (16 * die.toNat + i))
  (tiles.flatMap (fun t => (List.range 4).filterMap (fun n =>
    let r := (d.tile t).rings.toList.getD n {}
    if d.ringEligible t r then some (Grant.ring t n, (r.deadline r.fill : Int) - d.schedOf t) else none))) ++
  tiles.flatMap (fun t => (d.tile t).expands.zipIdx.filterMap (fun e =>
    if e.1.started.isSome then none else some (Grant.expansion t e.2, (e.1.deadline : Int) - d.schedOf t)))

/-- The least slack, the first of equals. -/
def leastSlack : List (Grant × Int) → Option (Grant × Int)
  | [] => none
  | x :: xs => match leastSlack xs with
    | some y => some (if x.2 ≤ y.2 then x else y)
    | none => some x

def Tile.setRing (t : Tile) (n : Nat) (r : Ring) : Tile := { t with rings := t.rings.setIfInBounds n r }
def Tile.ringAt (t : Tile) (n : Nat) : Ring := t.rings.toList.getD n {}

/-- Key Stream Unit flags raised (R195). -/
def Dev.raiseKsu (d : Dev) (die : DieId) (late mismatch ueHeader ueData farFetch : Bool) : Dev :=
  let k := d.ksu die
  (d.setKsu die { k with late := k.late || late, mismatch := k.mismatch || mismatch, ueHeader := k.ueHeader || ueHeader
                         ueData := k.ueData || ueData, farFetch := k.farFetch || farFetch }).mark (0x200004 + 256 * die.toNat)
    (wordOf [(0, late.toNat), (1, mismatch.toNat), (2, ueHeader.toNat), (3, ueData.toNat), (4, farFetch.toNat)])

/-- A fill starts: its slot is FILLING, and its S + 1 sectors are fetched at five a cycle (R186, R189). FAR_FETCH rises as a fill from the far tier is
granted, whether or not it lands (DESIGN CHOICE, log 89: R195 says when a fill was served). -/
def Dev.startFill (d : Dev) (die : DieId) (t : TileId) (n : Nat) : Dev :=
  let r := (d.tile t).ringAt n
  match d.keys.locate r.srcKeyset r.src, d.keys.set? r.srcKeyset with
  | some e, some b =>
    let (entry, c) := r.pageOf r.fill
    let fill : Fill := { tile := t, ring := BitVec.ofNat 2 n, index := r.fill, key := e, page := runPosition b entry * max r.chunks 1 + c
                         prime := match b.table.entry? entry with | some x => x.q | none => 1, deadline := r.deadline r.fill }
    let d := d.onTile t (fun x => x.setRing n { r with slots := r.slots.set (r.fill % max r.slots.length 1) .filling, fill := r.fill + 1 })
    (d.setKsu die { d.ksu die with fills := (d.ksu die).fills ++ [fill], freeAt := d.tick.wall + (r.s + 5) / 5 }).raiseKsu die
      false false false false e.far
  | _, _ => d

/-- Draws bits of the random bit generator (R412; log 13). -/
def Dev.random (d : Dev) (bits : Nat) : Nat := Config.drbg bits d.sec.draws % 2 ^ bits
def Sec.reseed (x : Sec) : Sec := { x with reseeds := satInc x.reseeds, requests := 0 }
/-- A generate request has been served; after 2^20 of them the generator reseeds (R412). -/
def Sec.drew (x : Sec) : Sec :=
  let x := { x with draws := x.draws + 1 }
  if x.requests + 1 < 2 ^ 20 then { x with requests := x.requests + 1 } else x.reseed
def Dev.drewRandom (d : Dev) : Dev := { d with sec := d.sec.drew }

/-- 128 residues of a list as a row. -/
def residueRow (vs : List Nat) (i : Nat) : Row := { data := sectorOf (fun k => res (vs.getD (128 * i + k) 0)) }

/-- Row of sector r of limb j of polynomial 1 (R31, R178). -/
def expansionRow (h : Header) (first j r : Nat) : Nat :=
  let limbs := h.level.toNat + 1
  let n := sectorsOf h.logN.toNat
  first + (if h.layout then (n + r) * limbs + j else (limbs + j) * n + r)

/-- The rows of an expansion, and whether a chunk lacked values (R178, R414). -/
def expansionRows (e : Expansion) (seed : List Byte) (device : Bool) : List (Nat × Row) × Bool :=
  let s := keyS e.hdr.logN.toNat
  let chunks := keyChunks e.hdr.logN.toNat
  let parts := (e.entries.zipIdx).flatMap (fun p => (List.range chunks).map (fun c =>
    let x := tailExpand seed p.1.1 c (if device then 2 else 1) p.1.2 (128 * s) (if device then 3 * 128 * s else 64 * 128 * s)
    ((List.range s).map (fun i => (expansionRow e.hdr e.row p.2 (s * c + i), residueRow x.1 i)), x.2)))
  (parts.flatMap (·.1), device && parts.any (·.2))

/-- An expansion starts: the tail generates its rows, of a device seed from a fresh draw of the random bit generator, which only a healthy one gives
(R178, R413, R414). The rows land as the remote port takes them. -/
def Dev.startExpansion (d : Dev) (t : TileId) (i : Nat) : Dev :=
  match (d.tile t).expands[i]? with
  | some e =>
    let device := e.hdr.seed == BitVec.allOnes 256
    let seed := if device then leBytes 32 (d.random 256) else leBytes 32 e.hdr.seed.toNat
    let r := expansionRows e seed device
    if device && d.sec.drbg == 2 then d
    else (if device then d.drewRandom else d).onTile t (fun x => { x with
      expands := x.expands.set i { e with started := some d.tick.wall, rows := r.1, short := r.2 } })
  | none => d

/-- KSU_GRANT: with fewer than 16 fills in flight and the fetches of the last one issued, the requester of least slack starts (R189). -/
def Dev.ksuGrant (d : Dev) (die : DieId) : Dev :=
  if !d.running || decide (16 ≤ (d.ksu die).fills.length) || decide (d.tick.wall < (d.ksu die).freeAt) then d
  else match leastSlack (d.requesters die) with
    | some (.ring t n, _) => d.startFill die t n
    | some (.expansion t i, _) => d.startExpansion t i
    | none => d

def execKsuGrant (die : DieId) (s : State) : Host.Outcome State Fault Refusal := s.act (fun d => d.ksuGrant die)

/-- The comparisons of R190 on the header sector x of a fill. -/
def headerMatches (r : Ring) (f : Fill) (x : Nat) : Bool :=
  let seedTag := f.key.seed.toNat % 2 ^ 64
  let (entry, c) := r.pageOf f.index
  field x 0 32 == 0x31504B48 && field x 32 32 == r.keyset.toNat && field x 64 8 == r.tag.kind.toNat && field x 72 8 == r.tag.digit.toNat &&
  field x 88 8 == entry && field x 96 18 == r.tag.galois.toNat && field x 114 14 == 0 &&
  field x 128 16 == (if r.s = 32 then 0 else 64 * c) && field x 152 8 == r.logN.toNat && field x 160 64 == seedTag && field x 224 32 == 0 &&
  ((decide (r.limbBase.toNat ≤ entry) && decide (entry ≤ r.limbBase.toNat + r.level.toNat)) ||
    (decide (64 ≤ entry) && decide (entry < 64 + r.special)))

/-- The header sector of a fill is judged before any row is written (R190, R191). -/
def Dev.judgeHeader (d : Dev) (f : Fill) (x : Sector) : Dev :=
  let die := dieOf f.tile
  let r := (d.tile f.tile).ringAt f.ring.toNat
  let k := d.ksu die
  let bad := x.poison != 0
  if !bad && headerMatches r f x.data.toNat then
    d.setKsu die { k with fills := k.fills.map (fun g => if g = f then { g with head := x, checked := some d.tick.wall } else g) }
  else
    let d := (d.setKsu die { k with fills := k.fills.filter (fun g => !(g.tile == f.tile && g.ring == f.ring && g.checked.isNone)) }).raiseKsu die
      false true bad false false
    if r.armed then
      (d.onTile f.tile (fun x => x.setRing f.ring.toNat { r with armed := false })).haltTile f.tile (if bad then .uncorrectable else .keyMismatch)
        r.armBundle
    else d

/-- The reads of a fill as an access: the die links between its tile and its page, and the page's channel, which a far-tier page has not (R14, R197). -/
def Fill.access (f : Fill) (body : Bool) (seen : PageFindings) : Held :=
  .fill (if f.key.far then [4 + (dieOf f.tile).toNat] else ringPath (dieOf f.tile).toNat (f.key.channelOf f.page / 64))
    (if f.key.far then [] else [f.key.channelOf f.page]) f.tile f.ring body seen

/-- The oldest unchecked fill of a ring. -/
def Dev.unchecked (d : Dev) (t : TileId) (n : BitVec 2) : Option Fill :=
  (d.ksu (dieOf t)).fills.find? (fun f => f.tile == t && f.ring == n && f.checked.isNone)

/-- The header sector of the oldest unchecked fill of a ring is read, and judged (R190, R191). -/
def Dev.headServe (d : Dev) (t : TileId) (n : BitVec 2) (seen : PageFindings) : Dev :=
  match d.unchecked t n with
  | some f =>
    let r := d.readKey f.key f.page 0 seen
    r.1.judgeHeader f r.2
  | none => d

/-- KSU_PAGE_HEADER_ARRIVAL: the read of the header sector of the oldest unchecked fill of a ring, with what it meets; it waits its turn at its channel
(R190, R191, R208). -/
def Dev.pageHeader (d : Dev) (t : TileId) (n : BitVec 2) (seen : PageFindings) : Dev :=
  match d.unchecked t n with
  | some f => if d.mustWait d.held (f.access false seen) then d.hold (f.access false seen) else d.headServe t n seen
  | none => d

def execKsuPageHeaderArrival (t : TileId) (ring : BitVec 2) (seen : PageFindings) (s : State) : Host.Outcome State Fault Refusal :=
  s.act (fun d => d.pageHeader t ring seen)

/-- The rows of a fill with the b sectors `bs`: header, b half with its poison, a half from the tail (R184, R186, R191). -/
def fillRows (r : Ring) (f : Fill) (bs : List Sector) : List (Nat × Row) :=
  let (entry, c) := r.pageOf f.index
  let a := (tailExpand (leBytes 32 f.key.seed.toNat) entry c 0 f.prime (128 * r.s) (64 * 128 * r.s)).1
  let asRow := fun (x : Sector) => ({ data := x.data, poison := spreadPoison x.poison } : Row)
  (r.fillPlaces f).zip (asRow f.head :: (bs.map asRow ++ (List.range r.s).map (residueRow a)))

/-- A fill lands: in an armed ring the slot is FULL, and the counter rises in the next cycle (R186, R189, R191). -/
def Dev.landFill (d : Dev) (f : Fill) (seen : PageFindings) : Dev :=
  let die := dieOf f.tile
  let r := (d.tile f.tile).ringAt f.ring.toNat
  let x := match f.body with | some b => (d, b) | none => d.readKeys f.key f.page seen 1 r.s
  let d := x.1
  let late := decide (f.deadline < d.schedOf f.tile)
  let k := d.ksu die
  let d := (d.setKsu die { k with fills := k.fills.erase f, lateCount := if late then satInc k.lateCount else k.lateCount }).raiseKsu die
    late false false (x.2.any (fun s => s.poison != 0)) false
  let rows := fillRows r f x.2
  let d := d.onTile f.tile (fun y => (y.takeSlots d.tick.wall ((rows.map (·.1)).drop f.landed)).portWrite rows)
  if r.armed then
    (d.onTile f.tile (fun y => y.setRing f.ring.toNat
      { r with slots := r.slots.set (f.index % max r.slots.length 1) .full, done := r.done + 1 })).arriveAt f.tile r.counter none
  else d

/-- The oldest fill of a ring. -/
def Dev.oldestFill (d : Dev) (t : TileId) (n : BitVec 2) : Option Fill := (d.ksu (dieOf t)).fills.find? (fun f => f.tile == t && f.ring == n)

/-- The b sectors of the oldest fill of a ring, whose header has passed, are read. -/
def Dev.bodyServe (d : Dev) (t : TileId) (n : BitVec 2) (seen : PageFindings) : Dev :=
  match d.oldestFill t n with
  | some f =>
    if f.checked.isNone || f.body.isSome then d
    else
      let x := d.readKeys f.key f.page seen 1 ((d.tile t).ringAt n.toNat).s
      let k := x.1.ksu (dieOf t)
      x.1.setKsu (dieOf t) { k with fills := k.fills.map (fun g => if g = f then { f with body := some x.2 } else g) }
  | none => d

/-- SLOT_FILL_COMPLETE: the oldest fill of a ring, once its header has passed, has landed whole through the remote port, with what the reads of
its b sectors meet (R131, R186, R189). Reads that have to wait at their channel are made in their turn, and the fill lands after them (R208). -/
def Dev.fillComplete (d : Dev) (t : TileId) (n : BitVec 2) (seen : PageFindings) : Dev :=
  match d.oldestFill t n, d.fillTransfer t n with
  | some f, some x =>
    if f.body.isNone && d.mustWait d.held (f.access true seen) then d.hold (f.access true seen)
    else if d.completes x then d.landFill f seen else d
  | _, _ => d

def execSlotFillComplete (t : TileId) (ring : RingFill) (s : State) : Host.Outcome State Fault Refusal :=
  s.act (fun d => d.fillComplete t ring.ring ring.seen)

/-- What is left of an expansion lands: its counter rises in the next cycle (R137, R178, R414). -/
def Dev.landExpansion (d : Dev) (t : TileId) (e : Expansion) : Dev :=
  let rest := e.rows.drop e.landed
  let d := if e.short then d.raiseKsu (dieOf t) true false false false false else d
  (d.onTile t (fun x => { (x.takeSlots d.tick.wall (rest.map (·.1))).portWrite rest with expands := x.expands.erase e })).arriveAt t e.counter none

/-- EXPAND_COMPLETE: what is left of the oldest started expansion of a tile lands through the remote port (R131, R178). -/
def Dev.expandComplete (d : Dev) (t : TileId) : Dev :=
  match (d.tile t).expands.find? (·.started.isSome), d.expandTransfer t with
  | some e, some x => if d.completes x then d.landExpansion t e else d
  | _, _ => d

def execExpandComplete (t : TileId) (s : State) : Host.Outcome State Fault Refusal := s.act (fun d => d.expandComplete t)

end Sys2Proof.Machine
end

