-- ==== Sys2Proof/Machine/MemRows.lean ====
section
/-! DEFINITION. The memory's own events (09): refresh slots, temperature, corrected-error rate, Transit's hot channel, swaps and staging copies;
where key runs are placed (08 R179). -/

namespace Sys2Proof.Machine

/-- Base slots per tick: S of R208. -/
def refreshCount (P : Nat) : Nat := (P + 7779) / 7780

/-- Whether a slot of channel n begins in tick cycle c (R208, R209). -/
def slotBegins (P n c : Nat) (extended : Bool) : Bool :=
  let S := refreshCount P
  (List.range S).any (fun k => c == (30 * n + k * P / S) % P || (extended && c == (30 * n + (2 * k + 1) * P / (2 * S)) % P))

/-- Whether channel n, up or in a test, begins a refresh slot now (R208, R209, R213). -/
def Dev.refreshDue (d : Dev) (n : Nat) : Bool :=
  let c := d.mem.channel n
  d.tick.running && (c.state == 2 || c.state == 3) &&
  (if d.tick.cycle < d.tick.period then slotBegins d.tick.period n d.tick.cycle c.extended
    else decide (c.refreshLast + 7780 ≤ d.tick.wall))

/-- REFRESH_SLOT: the channel serves nothing for 240 cycles (R208). -/
def execRefreshSlot (channel : BitVec 8) (s : State) : Host.Outcome State Fault Refusal :=
  s.act (fun d => if d.refreshDue channel.toNat then
      d.onMem (fun m => m.onChannel channel.toNat (fun c => { c with refreshEnd := d.tick.wall + 240, refreshLast := d.tick.wall }))
    else d)

/-- The stack's rate on its 32 channels. -/
def Mem.setExtended (m : Mem) (stack : Nat) (x : Bool) : Mem :=
  { m with stackOf := m.stackOf.setIfInBounds stack { m.stackOf.toList.getD stack {} with extended := x }
           channels := Vector.ofFn (fun n : Fin 256 => if n.val / 32 = stack then { m.channels[n] with extended := x } else m.channels[n]) }

/-- Whether some stack is above 85 °C, which overrides PIN = 1 on every stack (R210; log 26). -/
def Mem.anyHot (m : Mem) : Bool := m.stackOf.any (fun s => decide (85 < s.temperature.toNat))

/-- REFRESH_STATUS.OVERRIDDEN while PIN = 1 is overridden (R210). -/
def Dev.noteOverride (d : Dev) : Dev :=
  if d.mem.refreshPin == 1 && d.mem.anyHot then (d.onMem (fun m => { m with overridden := true })).mark 0x140024 0x100 else d

/-- A temperature read: the crossing of 85 °C starts the 64 µs, and the stack counts as hot until it reads below 82 °C (R209). -/
def Stack.reads (x : Stack) (temp : Byte) : Stack :=
  { x with temperature := temp, hot := decide (85 < temp.toNat) || (x.hot && decide (82 ≤ temp.toNat))
           timer := x.timer || (decide (85 < temp.toNat) && decide (x.temperature.toNat ≤ 85) && !x.extended) }

/-- EXTENDED_REFRESH_ENTRY: a stack's hottest DRAM die reads a temperature (R209, R210, R384); at 110 °C the module trips
(R385, R448). A module whose rails are off reads none. -/
def Dev.stackReads (d : Dev) (stack : BitVec 3) (temp : Byte) : Dev :=
  if !d.pins.up then d
  else if 110 ≤ temp.toNat then d.trip
  else
  let x := d.mem.stackOf[stack.toNat]
  let d := (d.onMem (fun m => { m with stackOf := m.stackOf.set stack.toNat (x.reads temp) })).noteOverride
  if 95 < temp.toNat ∧ x.temperature.toNat ≤ 95 then
    d.event (srcDie (BitVec.ofNat 2 (stack.toNat / 2))) evDramHot [(16, stack.toNat), (17, temp.toNat)]
  else d

def execExtendedRefreshEntry (stack : BitVec 3) (temperature : Byte) (s : State) : Host.Outcome State Fault Refusal :=
  s.act (fun d => d.stackReads stack temperature)

/-- EXTENDED_RATE_TIMER: 64 µs after the crossing the extended rate takes effect (R209): under PIN = 1 on every stack while one is above
85 °C (R210). -/
def execExtendedRateTimer (stack : BitVec 3) (s : State) : Host.Outcome State Fault Refusal :=
  s.act (fun d =>
    let x := d.mem.stackOf[stack.toNat]
    if x.timer then
      d.onMem (fun m =>
        let m := { m with stackOf := m.stackOf.set stack.toNat { x with timer := false } }
        if m.refreshPin == 1 then (if m.anyHot then (List.range 8).foldl (fun m i => m.setExtended i true) m else m)
        else m.setExtended stack.toNat true)
    else d)

/-- MEM_CE_RATE (R205). -/
def execMemCeRate (channel : BitVec 8) (s : State) : Host.Outcome State Fault Refusal :=
  s.act (fun d =>
    let c := d.mem.channel channel.toNat
    if 1024 ≤ c.ceSecond ∧ !c.ceLogged ∧ c.ceSec = d.log.time / 80000000000000 then
      (d.onMem (fun m => m.onChannel channel.toNat (fun c => { c with ceLogged := true }))).event (srcDie (BitVec.ofNat 2 (channel.toNat / 64)))
        evMemCeRate [(16, channel.toNat), (20, c.ceSecond)]
    else d)

/- Transit (R219 to R222). -/

/-- The busiest channel, the lowest of equals, and the least loaded. -/
def Mem.busiest (m : Mem) : Nat :=
  (List.range 256).foldl (fun b n => if (m.channel b).lastServed < (m.channel n).lastServed then n else b) 0
def Mem.leastLoaded (m : Mem) : Nat :=
  (List.range 256).foldl (fun b n => if (m.channel n).lastServed < (m.channel b).lastServed then n else b) 0

def Mem.totalServed (m : Mem) : Nat := ((List.range 256).map (fun n => (m.channel n).lastServed)).sum

/-- The condition of R219 on a channel: above four times the mean, and at least a quarter of its slots, 0.08 a cycle. -/
def Mem.isHot (m : Mem) (n len : Nat) : Bool :=
  decide (4 * m.totalServed < 256 * (m.channel n).lastServed) && decide (len ≤ 50 * (m.channel n).lastServed)

/-- The data-region page of a channel that was served most in the last tick, by its samples. -/
def Mem.hotPage (m : Mem) (n : Nat) : Option (Nat × Nat) := (m.channel n).sampledLast.find? (fun p => decide (p.1 < m.dataPages))

/-- A single page with half or more of the channel's sampled requests (R221). -/
def Mem.singlePage (m : Mem) (n : Nat) : Option Nat :=
  match (m.channel n).sampledLast.find? (fun p => decide ((m.channel n).samplesLast ≤ 2 * p.2)) with
  | some p => some (physPage n p.1)
  | none => none

/-- TRANSIT_HOT_DETECT, once at each boundary (R219, R221). -/
def Dev.hotDetect (d : Dev) : Dev :=
  if !d.tick.running || d.mem.hotJudged || decide (d.tick.number = 0) then d
  else
    let m := d.mem
    let b := m.busiest
    let meets := m.isHot b d.tick.lastLen
    let n := if meets then (m.channel b).hotTicks + 1 else 0
    let m' := { m with
      channels := Vector.ofFn (fun i : Fin 256 => { m.channels[i] with hotTicks := if i.val = b then n else 0 })
      hotJudged := true, hotValid := decide (256 ≤ n), hot := if 256 ≤ n then BitVec.ofNat 8 b else m.hot }
    let d := { d with mem := m' }
    if 256 ≤ n ∧ n % 256 = 0 then
      let ratio := if m.totalServed = 0 then 0 else 4096 * (m.channel b).lastServed / m.totalServed
      d.event srcFirmware evHotChannel [(16, b), (17, (m.singlePage b).isSome.toNat), (18, ratio),
        (24, match m.singlePage b with | some p => (m.logical p).getD 0xFFFFFFFF | none => 0)]
    else d

def execTransitHotDetect (s : State) : Host.Outcome State Fault Refusal := s.act (fun d => d.hotDetect)

/-- A quiet window (R219, R233): from the cycle after the last stage end, or from P, to the boundary, or no run is on; none in BOOT, FAULTED or
SANITIZING. -/
def Dev.quietWindow (d : Dev) : Bool :=
  d.tick.running &&
  (if d.running then d.tick.deadlineDone || (d.tick.stageStarted &&
      allGroups.all (fun g => !(d.group g).active || ((d.group g).ended && decide ((d.group g).endWall < d.tick.wall))))
    else d.run.state == .ready || d.run.state == .loaded || d.run.state == .halted)

/-- Slots of a channel that Transit may use in a tick: 2% of 0.08 a cycle (R220). -/
def Dev.transitLimit (d : Dev) : Nat := d.tick.period * 16 / 10000

/-- Whether a channel has n slots left for Transit in this tick. -/
def Dev.transitRoom (d : Dev) (ch n : Nat) : Bool := decide ((d.mem.channel ch).transitUsed + n ≤ d.transitLimit)

/-- Charges n slots of a channel to Transit's limit (R220, R222). -/
def Dev.chargeTransit (d : Dev) (ch n : Nat) : Dev := d.onMem (fun m => m.onChannel ch (fun c => { c with transitUsed := c.transitUsed + n }))

/-- An unretired data-region page of channel c that sampling did not see, the first from a free start (R220; log 28). -/
def Mem.coldPage (m : Mem) (c start : Nat) : Option Nat :=
  let n := m.dataPages
  ((List.range n).find? (fun i =>
    let p := (start + i) % n
    !(m.channel c).sampledLast.any (fun x => x.1 == p) && !m.retiredNear.contains (physPage c p))).map (fun i => physPage c ((start + i) % n))

/-- The remap table with one entry set. -/
def setRemap (r : Remap) (g p : Nat) : Remap := (r.filter (fun e => e.1 != g)) ++ [(g, p)]

/-- Reads of all sectors of a near-tier page, with what they meet. -/
def Dev.readPage (d : Dev) (p : Nat) (f : PageFindings) : Dev × List Sector :=
  (List.range 113).foldl (fun (r : Dev × List Sector) o => let x := r.1.readNear p o (pageEcc f o); (x.1, r.2 ++ [x.2])) (d, [])

/-- Sectors written to a near-tier page. -/
def Mem.writePage (m : Mem) (p : Nat) (xs : List Sector) : Mem := xs.zipIdx.foldl (fun m x => m.writeNear p x.2 x.1) m

/-- Two pages exchanged, and their logical pages mapped (R220): the new table is in force when both copies are made. -/
def Dev.swapPages (d : Dev) (p q gp gq : Nat) (fp fq : PageFindings) : Dev :=
  let a := d.readPage p fp
  let b := a.1.readPage q fq
  b.1.onMem (fun m => { (m.writePage q a.2).writePage p b.2 with remap := setRemap (setRemap m.remap gp q) gq p })

/-- A swap that waits for its channels. -/
def Held.isSwap : Held → Bool
  | .swap _ _ => true
  | _ => false

/-- The remap table is full: Transit stops swapping (R221). -/
def Dev.fillTable (d : Dev) : Dev := (d.onMem (fun m => { m with tableFull := true })).event srcFirmware evTransitTableFull []

/-- What the reads of the k-th page of a move meet, a free value (log 66). -/
def Dev.findings (d : Dev) (k : Nat) : PageFindings := Config.pageFindings (2 * d.free + k)

/-- TRANSIT_SWAP: a swap that finishes within its window, with what its reads meet; it waits its turn at its channels, and is discarded at the tick
boundary (R206, R208, R220, R221, R244, R381). -/
def Dev.transitSwap (d : Dev) : Dev :=
  let m := d.mem
  let hot := m.hot.toNat
  let cold := m.leastLoaded
  if !d.quietWindow || !m.hotValid || m.transitPin || m.tableFull || d.power.short || (m.singlePage hot).isSome || cold == hot ||
      !d.transitRoom hot 226 || !d.transitRoom cold 226 || d.held.any Held.isSwap then d
  else if d.mustWait d.held (.swap hot cold) then d.hold (.swap hot cold)
  else match m.hotPage hot, m.coldPage cold d.freeValue with
    | some x, some q =>
      let p := physPage hot x.1
      match m.logical p, m.logical q with
      | some gp, some gq =>
        let added := (!m.remap.any (fun e => e.1 == gp)).toNat + (!m.remap.any (fun e => e.1 == gq)).toNat
        if 16384 < m.remap.length + added then d.fillTable
        else if m.retiredNear.contains p then d
        else
          let d := ((d.drew.swapPages p q gp gq (d.findings 0) (d.findings 1)).chargeTransit hot 226).chargeTransit cold 226
          if d.mem.remap.length < 16384 then d else d.fillTable
      | _, _ => d
    | _, _ => d

def execTransitSwap (s : State) : Host.Outcome State Fault Refusal := s.act (fun d => d.transitSwap)

/- Key runs (R179, R339, R340). -/

/-- Near-tier key runs are counted in a linear order of pages: 256 · page + channel, in which page i of a run is its first plus i. -/
def KrtEntry.linear (e : KrtEntry) : Nat := if e.far then e.page.toNat else 256 * e.page.toNat + e.channel.toNat
def linearPhys (x : Nat) : Nat := physPage (x % 256) (x / 256)

def Keys.entry (k : Keys) (i : Nat) : Option KrtEntry := Store.read (fun _ => none) k.krt i
def Keys.setEntry (k : Keys) (i : Nat) (e : Option KrtEntry) : Keys := { k with krt := Store.write (fun _ => none) k.krt i e }
def Keys.entries (k : Keys) : List (Nat × KrtEntry) := k.krt.filterMap (fun e => e.2.map (fun x => (e.1, x)))
def Keys.valid (k : Keys) : List KrtEntry := (k.entries.map (·.2)).filter (·.valid)

/-- KRT entries in use: KRT_USED (R195). -/
def Keys.used (k : Keys) : Nat := k.valid.length

/-- Runs that pending commands have placed in a tier: first page and length. -/
def Job.placed (j : Job) (k : Keys) (far : Bool) : List (Nat × Nat) :=
  match j.kind with
  | .bind _ f t _ dir _ => if f = far then dir.map (fun e => (e.2.2.2.2, (t.limbs.length + t.specials.length) * keyChunks t.logN.toNat)) else []
  | .stage _ f moves _ => if f = far then moves.map (fun m => (m.2, match k.entry m.1 with | some e => e.pages.toNat | none => 0)) else []
  | _ => []

/-- Pages in use in a tier's key space, as first page and length: valid runs, runs being copied, retired pages. -/
def Dev.busyRuns (d : Dev) (far : Bool) : List (Nat × Nat) :=
  ((d.keys.valid.filter (fun e => e.far == far)).map (fun e => (e.linear, e.pages.toNat))) ++
  (d.host.jobs.flatMap (fun j => j.placed d.keys far)) ++
  (if far then d.mem.retiredFar.map (fun p => (p, 1))
    else (d.mem.retiredNear.filter (fun p => decide (d.mem.dataPages ≤ pageLocal p))).map (fun p => (256 * pageLocal p + pageChannel p, 1)))

/-- The pages of a tier that key runs may use: from, to. -/
def Dev.keySpace (d : Dev) (far : Bool) : Nat × Nat := if far then (0, d.mem.farPages) else (256 * d.mem.dataPages, 256 * 40960)

def runFits (busy : List (Nat × Nat)) (lo hi n x : Nat) : Bool :=
  decide (lo ≤ x) && decide (x + n ≤ hi) && busy.all (fun b => decide (x + n ≤ b.1) || decide (b.1 + b.2 ≤ x))

/-- A first page for a run of n pages: a free value where it fits, else the first gap that holds it (log 29). -/
def placeRun (busy : List (Nat × Nat)) (lo hi n free : Nat) : Option Nat :=
  let x := lo + free % max (hi - lo) 1
  if runFits busy lo hi n x then some x else (lo :: busy.map (fun b => b.1 + b.2)).find? (fun y => runFits busy lo hi n y)

/-- Places for runs of the given lengths, in order. -/
def placeRuns (lo hi free : Nat) : List (Nat × Nat) → List Nat → Option (List Nat)
  | _, [] => some []
  | busy, n :: ns =>
    match placeRun busy lo hi n free with
    | some x => (placeRuns lo hi (free / max (hi - lo) 1) ((x, n) :: busy) ns).map (fun xs => x :: xs)
    | none => none

/-- Free pages of the key region. -/
def Dev.freeKeyPages (d : Dev) : Nat := (d.keySpace false).2 - (d.keySpace false).1 - ((d.busyRuns false).map (·.2)).sum

/-- A KRT entry moved to its new run. -/
def KrtEntry.moved (e : KrtEntry) (far : Bool) (first : Nat) : KrtEntry :=
  { e with far := far, channel := if far then 0 else BitVec.ofNat 8 (first % 256), page := BitVec.ofNat 28 (if far then first else first / 256) }

/-- Page n of a staging job: KRT entry, its new run, and the page within it. -/
def stagePage (k : Keys) : List (Nat × Nat) → Nat → Option (KrtEntry × Nat × Nat)
  | [], _ => none
  | (i, first) :: rest, n =>
    match k.entry i with
    | some e => if n < e.pages.toNat then some (e, first, n) else stagePage k rest (n - e.pages.toNat)
    | none => stagePage k rest n

def stageTotal (k : Keys) (moves : List (Nat × Nat)) : Nat :=
  (moves.map (fun m => match k.entry m.1 with | some e => e.pages.toNat | none => 0)).sum

/-- A staging whose last page has landed changes its KRT entries and completes (R222, R340). -/
def Dev.finishStage (d : Dev) (j : Job) : Dev :=
  match j.kind with
  | .stage _ far moves landed =>
    if landed.length < stageTotal d.keys moves then d
    else
      let keys := moves.foldl (fun k m => k.setEntry m.1 ((k.entry m.1).map (fun e => e.moved far m.2))) d.keys
      ({ d with keys := keys }).finish j .ok (detailOf [(0, landed.length)])
  | _ => d

def Dev.finishStages (d : Dev) : Dev := d.host.jobs.foldl (fun d j => d.finishStage j) d

/-- Sectors a on of a page of a key run written: behind a far-tier link that is down they are lost (R218, R222, R339). -/
def Dev.writeKeyPage (d : Dev) (far : Bool) (x a : Nat) (rows : List Sector) : Dev :=
  if far then
    if d.mem.farLinkDown x then d.event srcFar evFarWriteLost [(16, x)]
    else d.onMem (fun m => rows.zipIdx.foldl (fun m r => m.writeFar (113 * x + (a + r.2)) r.1) m)
  else d.onMem (fun m => rows.zipIdx.foldl (fun m r => m.writeNear (linearPhys x) (a + r.2) r.1) m)

/-- How many of n sector slots of a near-tier channel Transit's mover may take now: in a run, in a quiet window and within what the limit of the tick
leaves (R220, R222, R381). -/
def Dev.moverSlots (d : Dev) (ch n : Nat) : Nat :=
  if !d.quietWindow || d.power.short then 0
  else if d.running then min n (d.transitLimit - (d.mem.channel ch).transitUsed) else n

/-- Sectors of page n that a copy of key pages has brought so far (R222). -/
def Job.copied (j : Job) (n : Nat) : Nat := ((j.begun.find? (fun p => p.1 == n)).map (·.2)).getD 0

/-- Page n begun, with k of its sectors copied. -/
def setCopied (begun : List (Nat × Nat)) (n k : Nat) : List (Nat × Nat) := (n, k) :: begun.filter (fun p => p.1 != n)

/-- A pending command changed. -/
def Dev.putJob (d : Dev) (j j' : Job) : Dev := { d with host := { d.host with jobs := d.host.jobs.map (fun x => if x = j then j' else x) } }

/-- The near-tier channel that a page of a staging job is copied from or to. -/
def stageChannel (far : Bool) (e : KrtEntry) (first i : Nat) : Nat := if far then e.channelOf i else pageChannel (linearPhys (first + i))

/-- The first page of a staging job that is not copied, that no channel holds, and whose channel can take it: channels take their pages independently
(R222). -/
def Dev.nextStaged (d : Dev) (far : Bool) (moves : List (Nat × Nat)) (landed : List Nat) : Option (Nat × KrtEntry × Nat × Nat) :=
  (List.range (stageTotal d.keys moves)).findSome? (fun n =>
    if landed.contains n then none
    else match stagePage d.keys moves n with
      | some (e, first, i) =>
        let ch := stageChannel far e first i
        if 0 < d.moverSlots ch 1 ∧ !d.held.contains (.move ch n) then some (n, e, first, i) else none
      | none => none)

/-- The oldest STAGE_KEYS with pages to copy. -/
def Dev.stagingJob (d : Dev) : Option Job :=
  d.host.jobs.find? (fun j => match j.kind with | .stage _ _ m n => decide (n.length < stageTotal d.keys m) | _ => false)

/-- As much of a page of a staging job as Transit's mover may copy now, from where it stands, with what its reads meet; the rest comes in a later window
(R206, R218, R222). -/
def Dev.copyStaged (d : Dev) (j : Job) (b : BoundSet) (n : Nat) (e : KrtEntry) (first i : Nat) : Dev :=
  match j.kind with
  | .stage id far moves landed =>
    let all := keyS b.table.logN.toNat + 1
    let ch := stageChannel far e first i
    let a := j.copied n
    let k := d.moverSlots ch (all - a)
    let r := d.drew.readKeys e i (d.findings 0) a k
    let d := (r.1.writeKeyPage far (first + i) a r.2).chargeTransit ch k
    if a + k < all then d.putJob j { j with begun := setCopied j.begun n (a + k) }
    else
      let j' : Job := { j with kind := .stage id far moves (landed ++ [n]) }
      if d.running then d.putJob j j' else (d.putJob j j').finishStage j'
  | _ => d

/-- STAGING_PAGE_COPY: the next page of the oldest STAGE_KEYS with pages to copy; it waits its turn at its channel (R208, R222, R381). -/
def Dev.stagingCopy (d : Dev) : Dev :=
  match d.stagingJob with
  | some j => match j.kind with
    | .stage id far moves landed => match d.keys.set? id, d.nextStaged far moves landed with
      | some b, some (n, e, first, i) =>
        let h : Held := .move (stageChannel far e first i) n
        if d.mustWait d.held h then d.hold h else d.copyStaged j b n e first i
      | _, _ => d
    | _ => d
  | none => d

/-- A page of a staging that has waited at its channel is copied. -/
def Dev.serveMove (d : Dev) (n : Nat) : Dev :=
  match d.stagingJob with
  | some j => match j.kind with
    | .stage id _ moves landed => match d.keys.set? id, stagePage d.keys moves n with
      | some b, some (e, first, i) => if landed.contains n then d else d.copyStaged j b n e first i
      | _, _ => d
    | _ => d
  | none => d

def execStagingPageCopy (s : State) : Host.Outcome State Fault Refusal := s.event (fun d => d.stagingCopy)

end Sys2Proof.Machine
end

