-- ==== Sys2Proof/Machine/Pke.lean ====
section
/-! DEFINITION. The big-number engine (17 R404 to R411): sessions, operations, result codes, fixed times. -/

namespace Sys2Proof.Machine

/-- Slot length in bits, stride in bytes, and slots of a LENGTH code (R405). -/
def pkeShape (length : Nat) : Option (Nat × Nat × Nat) :=
  match length with
  | 0 => some (256, 64, 256)
  | 1 => some (384, 64, 256)
  | 2 => some (512, 64, 256)
  | 3 => some (1024, 128, 256)
  | 4 => some (2048, 256, 128)
  | 5 => some (4096, 512, 64)
  | _ => none

/-- Slots that an operation uses from A, B, C, M and D on (R407); 0 where the field is not used. -/
def pkeSpans (op : Nat) : Option (List Nat) :=
  match op with
  | 0x01 => some [0, 0, 0, 0, 1]
  | 0x02 => some [1, 0, 0, 0, 0]
  | 0x03 => some [0, 0, 0, 0, 1]
  | 0x04 => some [0, 0, 0, 0, 1]
  | 0x10 => some [1, 1, 0, 1, 1]
  | 0x11 => some [1, 1, 0, 1, 1]
  | 0x12 => some [1, 1, 0, 1, 1]
  | 0x13 => some [1, 1, 0, 1, 1]
  | 0x14 => some [1, 0, 0, 1, 1]
  | 0x15 => some [1, 1, 0, 1, 1]
  | 0x20 => some [0, 0, 0, 0, 3]
  | 0x21 => some [1, 2, 0, 0, 2]
  | 0x22 => some [1, 2, 0, 0, 1]
  | 0x23 => some [1, 1, 0, 0, 2]
  | 0x24 => some [1, 2, 2, 0, 0]
  | _ => none

def pkeIsEc (op : Nat) : Bool := decide (0x20 ≤ op)

/-- Nucleus cycles of an operation at a LENGTH code (R408). -/
def pkeTime (op length : Nat) : Nat :=
  let row := match op with
    | 0x01 | 0x02 | 0x03 => [20, 22, 24, 32, 48, 80]
    | 0x04 => [600, 600, 600, 700, 900, 1300]
    | 0x10 | 0x11 => [10, 11, 12, 16, 24, 40]
    | 0x12 => [28, 38, 52, 148, 532, 2068]
    | 0x15 => [56, 76, 104, 296, 1064, 4136]
    | 0x13 => [14336, 29184, 53248, 303104, 2179072, 16941056]
    | 0x14 => [2048, 3840, 6144, 20480, 73728, 278528]
    | 0x21 | 0x22 => [88176, 179096]
    | 0x20 => [90176, 181096]
    | 0x24 => [178400, 362032]
    | 0x23 => [270672, 548808]
    | _ => []
  row.getD length 0

def pkeDefault : Nat → Nat := fun _ => 0
def Pke.slot (p : Pke) (i : Nat) : Nat := Store.read pkeDefault p.mem i

/-- What an operation leaves: result code, and the values of its output slots from D on (R409). -/
structure PkeOut where
  code : Nat
  outs : List Nat
deriving DecidableEq, Repr

/-- A failure: every output slot zeroed. -/
def pkeFail (code n : Nat) : PkeOut := { code := code, outs := List.replicate n 0 }

/-- The check at the end of a modular operation (R410). -/
def modEnd (m x : Nat) (good : Bool) : PkeOut := if x < m ∧ good then { code := 0, outs := [x] } else pkeFail 7 1

/-- Whether M is refused: even or below 3 (R409). -/
def badModulus (m : Nat) : Bool := m % 2 == 0 || decide (m < 3)

/-- MODADD, MODSUB and MODMUL (R407, R409); `u` is what a fault flips, here and below. -/
def pkeReduced (m a b x u : Nat) : PkeOut :=
  if badModulus m then pkeFail 1 1 else if m ≤ a ∨ m ≤ b then pkeFail 2 1 else modEnd m (x ^^^ u) true

def pkeModexp (m a b u : Nat) : PkeOut :=
  if badModulus m then pkeFail 1 1 else if m ≤ a then pkeFail 2 1 else modEnd m ((if b = 0 then 1 % m else powMod m a b) ^^^ u) true

def pkeModinv (m a u : Nat) : PkeOut :=
  if badModulus m then pkeFail 1 1
  else if m ≤ a then pkeFail 2 1
  else if a = 0 then pkeFail 5 1
  else if Nat.gcd a m ≠ 1 then pkeFail 6 1
  else let x := inverse m a ^^^ u; modEnd m x (a * x % m == 1)

def pkeModred (m a b len u : Nat) : PkeOut := if badModulus m then pkeFail 1 1 else modEnd m (((a * 2 ^ len + b) % m) ^^^ u) true

/-- A point with a fault in its x coordinate. -/
def struck (P : Nat × Nat) (u : Nat) : Nat × Nat := (P.1 ^^^ u, P.2)

/-- An output point must lie on the curve and not be (0, 0) (R410). -/
def pointEnd (c : Curve) (P : Nat × Nat) (outs : List Nat) : PkeOut :=
  if c.on P.1 P.2 && P != (0, 0) then { code := 0, outs := outs } else pkeFail 7 outs.length

/-- A drawn secret in 1 to n − 1 (R407). -/
def pkeScalar (c : Curve) (draw : Nat) : Nat := draw % (c.n - 1) + 1

def pkeKeygen (c : Curve) (draw u : Nat) : PkeOut :=
  let d := pkeScalar c draw
  let P := struck (pointXy (c.mul d (some (c.gx, c.gy)))) u
  pointEnd c P [d, P.1, P.2]

/-- ECMUL and ECDH (R407, R409); `both` writes the point, else its x. -/
def pkeMul (c : Curve) (a x y u : Nat) (both : Bool) : PkeOut :=
  let n := if both then 2 else 1
  if a = 0 ∨ c.n ≤ a then pkeFail 2 n
  else if !(c.on x y) || (x, y) == (0, 0) then pkeFail 3 n
  else
    let P := struck (pointXy (c.mul a (some (x, y)))) u
    pointEnd c P (if both then [P.1, P.2] else [P.1])

def pkeSign (c : Curve) (e d draw u : Nat) : PkeOut :=
  if d = 0 ∨ c.n ≤ d then pkeFail 2 2
  else
    let sg := struck (c.sign (e % c.n) d (pkeScalar c draw)) u
    if c.verifies (e % c.n) (pointXy (c.mul d (some (c.gx, c.gy)))) sg.1 sg.2 then { code := 0, outs := [sg.1, sg.2] } else pkeFail 7 2

def pkeVerify (c : Curve) (e x y r s : Nat) : PkeOut :=
  if !(c.on x y) || (x, y) == (0, 0) then { code := 3, outs := [] }
  else if c.verifies (e % c.n) (x, y) r s then { code := 0, outs := [] } else { code := 4, outs := [] }

/-- The fields of a parameter block: OP and slot indices A, B, C, M, D. -/
def pkeField (bs : List Byte) (k : Nat) : Nat := byteAt bs k

/-- What R407 asks of a block whatever the session: OP defined, a length that some session gives, reserved and unused fields 0 (R332). -/
def pkeFieldsOk (bs : List Byte) : Bool :=
  match pkeSpans (pkeField bs 0) with
  | some spans =>
    (if pkeField bs 0 = 1 then [48, 64, 80, 144, 272, 528].contains bs.length else bs.length == 16) && leAt bs 6 10 == 0 &&
    (List.range 5).all (fun k => spans.getD k 0 != 0 || pkeField bs (k + 1) == 0)
  | none => false

/-- What R407 asks of a block in an open session: the length of the operand, slots, curve. -/
def pkeBlockOk (bs : List Byte) (length : Nat) : Bool :=
  match pkeShape length, pkeSpans (pkeField bs 0) with
  | some (len, _, slots), some spans =>
    bs.length == (if pkeField bs 0 = 1 then 16 + len / 8 else 16) &&
    (List.range 5).all (fun k => spans.getD k 0 == 0 || decide (pkeField bs (k + 1) + spans.getD k 0 ≤ slots)) &&
    (!pkeIsEc (pkeField bs 0) || decide (length < 2))
  | _, _ => false

/-- Ends the session with a wipe (R404, R406). -/
def Pke.close (p : Pke) : Pke := { p with owner := .none, session := none, mem := [], work := false }

def PkeOwner.code : PkeOwner → Nat
  | .boot => 0
  | .firmware => 1
  | .host => 2
  | .none => 3

/-- PKE_OPEN (R405). -/
def execPkeOpen (c : Packet) (s : State) : Host.Outcome State Fault Refusal :=
  s.act (fun d => d.command c 0x70
    { valid := c.fieldsOk none none (inlBytes 0 1) && (pkeShape (c.inl 0 1)).isSome, busy := d.pke.session.isSome }
    (fun d f =>
      let d := { d with pke := { d.pke with owner := .host, session := some (BitVec.ofNat 3 (c.inl 0 1)), mem := [] } }
      match pkeShape (c.inl 0 1) with
      | some (_, stride, slots) => d.complete f false .ok (detailOf [(0, slots), (2, stride)])
      | none => d))

/-- PKE_CLOSE (R406). -/
def execPkeClose (c : Packet) (s : State) : Host.Outcome State Fault Refusal :=
  s.act (fun d => d.command c 0x72 { valid := c.fieldsOk none none 0 }
    (fun d f =>
      if d.pke.session.isSome then ({ d with pke := d.pke.close }).complete f false .ok noDetail
      else d.complete f false .badParam noDetail))

/-- What a fault in an operation adds (R410). -/
def Dev.pkeFaults (d : Dev) (op : Nat) (o : PkeOut) : Dev :=
  if o.code = 7 then
    ({ d with pke := { d.pke with faults := satInc d.pke.faults } }).event srcPke evPkeFault [(16, op), (17, d.pke.owner.code)]
  else d

/-- An operation carried out: its outputs from slot D on, LAST_RESULT, the record (R407 to R410). -/
def Dev.pkeDone (d : Dev) (f : Fetched) (bs : List Byte) (length : Nat) (o : PkeOut) : Dev :=
  let D := pkeField bs 5
  let mem := (o.outs.zipIdx).foldl (fun m x => Store.write pkeDefault m (D + x.2) x.1) d.pke.mem
  let d := { d with pke := { d.pke with mem := mem, last := BitVec.ofNat 8 o.code } }
  (d.pkeFaults (pkeField bs 0) o).complete f false .ok (detailOf [(0, o.code), (4, pkeTime (pkeField bs 0) length)])

/-- PKE_OP with operation `op`: the row acts on a block of its own OP, and on one whose OP is undefined or that could not be read,
which is refused (R332, R407). An operation that writes no reply accepts any REPLY_LEN and REPLY_PTR: R325 calls fields reserved that the
opcode does not use, and the opcode uses these for STORE (DESIGN CHOICE, log 80). -/
def Dev.pkeOp (d : Dev) (c : Packet) (block : HostRead) (op : Nat) (effect : Dev → Fetched → List Byte → Nat → Dev) : Dev :=
  let mine := match block with
    | some bs => pkeField bs 0 == op || (pkeSpans (pkeField bs 0)).isNone
    | none => true
  if !mine then d
  else match block with
    | none => d.command c 0x71 { valid := false } (fun d _ => d)
    | some bs =>
      d.command c 0x71 { valid := c.fieldsOk (some c.paramLen) (some 0) 0 && bs.length == c.paramLen && pkeFieldsOk bs }
        (fun d f => match d.pke.session with
          | some l => if pkeBlockOk bs l.toNat then effect d f bs l.toNat else d.complete f false .badParam noDetail
          | none => d.complete f false .badParam noDetail)

def pkeLen (length : Nat) : Nat := match pkeShape length with | some s => s.1 | none => 0

/-- Values in the slots that A, B, C and M name, and the slot after. -/
def Pke.a (p : Pke) (bs : List Byte) : Nat := p.slot (pkeField bs 1)
def Pke.b (p : Pke) (bs : List Byte) (k : Nat) : Nat := p.slot (pkeField bs 2 + k)
def Pke.c (p : Pke) (bs : List Byte) (k : Nat) : Nat := p.slot (pkeField bs 3 + k)
def Pke.m (p : Pke) (bs : List Byte) : Nat := p.slot (pkeField bs 4)

def pkeCurve (length : Nat) : Curve := if length = 0 then p256 else p384

def execPkeLoad (c : Packet) (block : HostRead) (s : State) : Host.Outcome State Fault Refusal :=
  s.act (fun d => d.pkeOp c block 0x01 (fun d f bs l => d.pkeDone f bs l { code := 0, outs := [leNat (bs.drop 16)] }))

def execPkeStore (c : Packet) (block : HostRead) (s : State) : Host.Outcome State Fault Refusal :=
  s.act (fun d => d.pkeOp c block 0x02 (fun d f bs l =>
    if c.replyLen < pkeLen l / 8 then d.complete f false .badParam noDetail
    else (d.emit (.reply c.replyPtr (leBytes (pkeLen l / 8) (d.pke.a bs)))).pkeDone f bs l { code := 0, outs := [] }))

def execPkeZero (c : Packet) (block : HostRead) (s : State) : Host.Outcome State Fault Refusal :=
  s.act (fun d => d.pkeOp c block 0x03 (fun d f bs l => d.pkeDone f bs l { code := 0, outs := [0] }))

def execPkeRandom (c : Packet) (block : HostRead) (s : State) : Host.Outcome State Fault Refusal :=
  s.act (fun d => d.pkeOp c block 0x04 (fun d f bs l => d.drewRandom.pkeDone f bs l { code := 0, outs := [d.random (pkeLen l)] }))

def execPkeModadd (c : Packet) (run : PkeRun) (s : State) : Host.Outcome State Fault Refusal :=
  s.act (fun d => d.pkeOp c run.block 0x10 (fun d f bs l =>
    let m := d.pke.m bs
    d.pkeDone f bs l (pkeReduced m (d.pke.a bs) (d.pke.b bs 0) ((d.pke.a bs + d.pke.b bs 0) % m) run.upset)))

def execPkeModsub (c : Packet) (run : PkeRun) (s : State) : Host.Outcome State Fault Refusal :=
  s.act (fun d => d.pkeOp c run.block 0x11 (fun d f bs l =>
    let m := d.pke.m bs
    d.pkeDone f bs l (pkeReduced m (d.pke.a bs) (d.pke.b bs 0) (subMod m (d.pke.a bs) (d.pke.b bs 0)) run.upset)))

def execPkeModmul (c : Packet) (run : PkeRun) (s : State) : Host.Outcome State Fault Refusal :=
  s.act (fun d => d.pkeOp c run.block 0x12 (fun d f bs l =>
    let m := d.pke.m bs
    d.pkeDone f bs l (pkeReduced m (d.pke.a bs) (d.pke.b bs 0) (d.pke.a bs * d.pke.b bs 0 % m) run.upset)))

def execPkeModexp (c : Packet) (run : PkeRun) (s : State) : Host.Outcome State Fault Refusal :=
  s.act (fun d => d.pkeOp c run.block 0x13 (fun d f bs l => d.pkeDone f bs l (pkeModexp (d.pke.m bs) (d.pke.a bs) (d.pke.b bs 0) run.upset)))

def execPkeModinv (c : Packet) (run : PkeRun) (s : State) : Host.Outcome State Fault Refusal :=
  s.act (fun d => d.pkeOp c run.block 0x14 (fun d f bs l => d.pkeDone f bs l (pkeModinv (d.pke.m bs) (d.pke.a bs) run.upset)))

def execPkeModred (c : Packet) (run : PkeRun) (s : State) : Host.Outcome State Fault Refusal :=
  s.act (fun d => d.pkeOp c run.block 0x15 (fun d f bs l =>
    d.pkeDone f bs l (pkeModred (d.pke.m bs) (d.pke.a bs) (d.pke.b bs 0) (pkeLen l) run.upset)))

def execPkeEckeygen (c : Packet) (run : PkeRun) (s : State) : Host.Outcome State Fault Refusal :=
  s.act (fun d => d.pkeOp c run.block 0x20 (fun d f bs l =>
    d.drewRandom.pkeDone f bs l (pkeKeygen (pkeCurve l) (d.random (pkeLen l + 64)) run.upset)))

def execPkeEcmul (c : Packet) (run : PkeRun) (s : State) : Host.Outcome State Fault Refusal :=
  s.act (fun d => d.pkeOp c run.block 0x21 (fun d f bs l =>
    d.pkeDone f bs l (pkeMul (pkeCurve l) (d.pke.a bs) (d.pke.b bs 0) (d.pke.b bs 1) run.upset true)))

def execPkeEcdh (c : Packet) (run : PkeRun) (s : State) : Host.Outcome State Fault Refusal :=
  s.act (fun d => d.pkeOp c run.block 0x22 (fun d f bs l =>
    d.pkeDone f bs l (pkeMul (pkeCurve l) (d.pke.a bs) (d.pke.b bs 0) (d.pke.b bs 1) run.upset false)))

def execPkeEcdsaSign (c : Packet) (run : PkeRun) (s : State) : Host.Outcome State Fault Refusal :=
  s.act (fun d => d.pkeOp c run.block 0x23 (fun d f bs l =>
    d.drewRandom.pkeDone f bs l (pkeSign (pkeCurve l) (d.pke.a bs) (d.pke.b bs 0) (d.random (pkeLen l + 64)) run.upset)))

def execPkeEcdsaVerify (c : Packet) (block : HostRead) (s : State) : Host.Outcome State Fault Refusal :=
  s.act (fun d => d.pkeOp c block 0x24 (fun d f bs l =>
    d.pkeDone f bs l (pkeVerify (pkeCurve l) (d.pke.a bs) (d.pke.b bs 0) (d.pke.b bs 1) (d.pke.c bs 0) (d.pke.c bs 1))))

/-- PKE_IDLE_CLOSE: firmware has signature work and the session has been idle for 1 s (R411). -/
def execPkeIdleClose (s : State) : Host.Outcome State Fault Refusal :=
  s.act (fun d =>
    if d.pke.session.isSome && d.pke.work then
      (({ d with pke := { d.pke.close with idleClosed := true } }).mark 0x6000C 0x40).event srcPke evPkeIdleClose []
    else d)

/-- DRBG_RESEED: 1 s has passed since the last seeding (R412); the other cause, 2^20 requests, is `Sec.drew`. -/
def execDrbgReseed (s : State) : Host.Outcome State Fault Refusal :=
  s.act (fun d => if d.sec.drbg = 1 then { d with sec := d.sec.reseed } else d)

/-- A firmware use of the PKE between two wipes (R411). -/
def Dev.firmwarePke (d : Dev) : Dev := { d with pke := { d.pke with owner := .none, mem := [] } }

/-- A signature of the owner record's key (R403): 48-byte little-endian r and s. -/
def ownerVerifies (owner : Option OwnerRecord) (keyId r s : Nat) (signed : List Byte) : Bool :=
  match (owner.bind (fun o => o.keys.getD keyId none)) with
  | some Q => decide (keyId < 4) && p384.on Q.1 Q.2 && p384.verifies (beNat (sha384 signed)) Q r s
  | none => false

/-- The 104-byte signature section (R264): SIG_FORMAT, KEY_ID, r, s. -/
def sectionVerifies (owner : Option OwnerRecord) (sig signed : List Byte) : Bool :=
  leAt sig 0 4 == 1 && ownerVerifies owner (leAt sig 4 4) (leAt sig 8 48) (leAt sig 56 48) signed

end Sys2Proof.Machine
end

