-- ==== Sys2Proof/Machine/KeyCmds.lean ====
section
/-! DEFINITION. BIND_KEYSET and its copy, UNBIND_KEYSET, STAGE_KEYS, RETIRE_PAGE (02 R19 to R25, 08 R171 to R180, 09 R207, 14 R338 to R340). -/

namespace Sys2Proof.Machine

/- The parameter block of BIND_KEYSET (R338): byte offsets as it lies. -/

def bindDnum (b : List Byte) : Nat := byteAt b 0
def bindFar (b : List Byte) : Bool := (byteAt b 1).testBit 0
def bindExtend (b : List Byte) : Bool := (byteAt b 1).testBit 1
def bindSigned (b : List Byte) : Bool := (byteAt b 1).testBit 2
def bindDigits (b : List Byte) : Nat := leAt b 4 4
def bindLimbs (b : List Byte) : Nat := byteAt b 22
def bindSpecials (b : List Byte) : Nat := byteAt b 23
def bindDirAt (b : List Byte) : Nat := 32 + 16 * (bindLimbs b + bindSpecials b)

/-- Length that the block requires. -/
def bindLen (b : List Byte) : Nat := bindDirAt b + 64 * bindDigits b + (if bindSigned b then 104 else 0)

/-- The modulus table as it would be bound (R21, R22). -/
def bindTable (b : List Byte) : ModTable :=
  let entry := fun i => ({ word0 := BitVec.ofNat 64 (leAt b (32 + 16 * i) 8), word1 := BitVec.ofNat 64 (leAt b (40 + 16 * i) 8) } : ModEntry)
  { keyset := BitVec.ofNat 32 (leAt b 16 4), scheme := BitVec.ofNat 8 (byteAt b 20), logN := BitVec.ofNat 8 (byteAt b 21)
    plain := BitVec.ofNat 36 (leAt b 24 8), limbs := (List.range (bindLimbs b)).map entry
    specials := (List.range (bindSpecials b)).map (fun i => entry (bindLimbs b + i)) }

/-- A sign code: 0, +1 or −1; 0b10 is reserved (R22). -/
def signCode (x : Nat) : Option Int :=
  match x with
  | 0 => some 0
  | 1 => some 1
  | 3 => some (-1)
  | _ => none

/-- FORM (R19, R22, R23). -/
def ModEntry.formOk (e : ModEntry) : Bool :=
  let w := e.word0.toNat
  let a := field w 36 6
  let b := field w 42 6
  let c := field w 48 6
  match signCode (field w 54 2), signCode (field w 56 2) with
  | some s1, some s2 =>
    field w 58 6 == 0 && field e.word1.toNat 36 28 == 0 && decide (30 ≤ a) && decide (a ≤ 36) && decide (18 ≤ c) && decide (c < b) && decide (b < a) &&
    decide ((e.q : Int) = 2 ^ a + s1 * 2 ^ b + s2 * 2 ^ c + 1) && decide (2 ^ 29 < e.q) && decide (e.q < 2 ^ 36)
  | _, _ => false

/-- The first check of R23 that an entry fails, 0 for none; `before` are the primes of lower index. -/
def ModEntry.fails (e : ModEntry) (n : Nat) (before : List Nat) : Nat :=
  if !e.formOk then 3
  else if e.q % 2 ^ 18 ≠ 1 then 4
  else if e.psi = 0 ∨ e.q ≤ e.psi then 5
  else if powMod e.q e.psi n ≠ e.q - 1 then 6
  else if powMod e.q e.psi (2 * n) ≠ 1 then 7
  else if before.contains e.q then 8
  else 0

/-- The first failing entry: check code and modulus-table index. -/
def entriesFail (n : Nat) : List (ModEntry × Nat) → List Nat → Option (Nat × Nat)
  | [], _ => none
  | (e, i) :: es, before => if e.fails n before = 0 then entriesFail n es (e.q :: before) else some (e.fails n before, i)

/-- The head of the modulus table (R21, R23). -/
def bindHeadOk (b : List Byte) (m : ModTable) : Bool :=
  decide (1 ≤ m.scheme.toNat) && decide (m.scheme.toNat ≤ 3) && decide (12 ≤ m.logN.toNat) && decide (m.logN.toNat ≤ 17) &&
  m.limbs.length != 0 && decide (m.limbs.length ≤ 64) && decide (m.specials.length ≤ 32) && m.keyset != 0 && m.keyset != 0xFFFFFFFF &&
  decide (leAt b 24 8 < 2 ^ 36)

/-- PLAIN_MOD (R23). -/
def ModTable.plainOk (m : ModTable) : Bool :=
  if m.scheme = 1 then m.plain == 0
  else decide (2 ≤ m.plain.toNat) && m.limbs.all (fun e => decide (m.plain.toNat < e.q))

/-- The checks of R23: code and modulus-table index of the first failure. -/
def tableFails (b : List Byte) (m : ModTable) : Option (Nat × Nat) :=
  if !bindHeadOk b m then some (1, 0xFF)
  else if !m.plainOk then some (2, 0xFF)
  else entriesFail (2 ^ m.logN.toNat) (m.limbs.zipIdx ++ m.specials.zipIdx.map (fun p => (p.1, 64 + p.2))) []

/-- A directory entry (R338). -/
structure DirEntry where
  kind : Nat
  digit : Nat
  galois : Nat
  ok : Bool
  seed : BitVec 256
deriving DecidableEq, Repr

/-- The Galois element that a kind takes at degree 2^logN (R171). -/
def galoisOk (kind galois logN : Nat) : Bool :=
  let n2 := 2 ^ (logN + 1)
  match kind with
  | 1 => galois == 1
  | 2 => galois % 2 == 1 && decide (3 ≤ galois) && decide (galois ≤ n2 - 3)
  | 3 => galois == n2 - 1
  | _ => false

/-- Directory entry i; `ok` is its check 0x11. -/
def dirEntry (b : List Byte) (logN i : Nat) : DirEntry :=
  let p := bindDirAt b + 64 * i
  let kind := byteAt b p
  let galois := leAt b (p + 4) 4
  { kind := kind, digit := byteAt b (p + 1), galois := galois, seed := BitVec.ofNat 256 (leAt b (p + 32) 32)
    ok := galoisOk kind galois logN && decide (byteAt b (p + 1) < bindDnum b) && leAt b (p + 8) 8 % 4096 == 0 && leAt b (p + 2) 2 == 0 &&
      leAt b (p + 16) 16 == 0 }

def bindDir (b : List Byte) (logN : Nat) : List DirEntry := (List.range (bindDigits b)).map (dirEntry b logN)

/-- Checks 0x11 and 0x12 entry by entry; `have_` are the keys of lower index and those bound (R339). -/
def dirFails : List (DirEntry × Nat) → List (Nat × Nat × Nat) → Option (Nat × Nat)
  | [], _ => none
  | (e, i) :: es, have_ =>
    if !e.ok then some (0x11, i)
    else if have_.contains (e.kind, e.galois, e.digit) then some (0x12, i)
    else dirFails es ((e.kind, e.galois, e.digit) :: have_)

/-- Check 0x13: the first entry of the first key that lacks a digit. -/
def dirIncomplete (dnum : Nat) (have_ : List (Nat × Nat × Nat)) (es : List (DirEntry × Nat)) : Option Nat :=
  (es.find? (fun e => !(List.range dnum).all (fun g => have_.contains (e.1.kind, e.1.galois, g)))).map (·.2)

/-- Digits of a key set that are bound: KIND, GALOIS and DIGIT of its valid entries. -/
def Keys.boundDigits (k : Keys) (id : Word) : List (Nat × Nat × Nat) :=
  (k.valid.filter (fun e => e.keyset == id)).map (fun e => (e.kind.toNat, e.galois.toNat, e.digit.toNat))

/-- BIND_HEAD (R339). -/
def Dev.bindHead (d : Dev) (b : List Byte) (m : ModTable) : Bool :=
  decide (1 ≤ bindDnum b) && decide (bindDnum b ≤ 16) && bindDigits b != 0 && decide (bindDigits b ≤ 65535) && decide (byteAt b 1 < 8) && leAt b 2 2 == 0 &&
  leAt b 8 8 == 0 &&
  (match d.keys.set? m.keyset with
    | some s => bindExtend b && s.table == m && s.dnum == bindDnum b
    | none => !bindExtend b)

/-- Checks 0x10 to 0x13: code and directory index. -/
def Dev.dirCheck (d : Dev) (b : List Byte) (m : ModTable) : Option (Nat × Nat) :=
  if !d.bindHead b m then some (0x10, 0xFFFF)
  else
    let es := (bindDir b m.logN.toNat).zipIdx
    let old := if bindExtend b then d.keys.boundDigits m.keyset else []
    match dirFails es old with
    | some f => some f
    | none => (dirIncomplete (bindDnum b) (es.map (fun e => (e.1.kind, e.1.galois, e.1.digit)) ++ old) es).map (fun i => (0x13, i))

/-- DETAIL of BIND_KEYSET (R339). -/
def Dev.bindDetail (d : Dev) (code index dir page : Nat) : List Byte :=
  detailOf [(0, code), (1, index), (4, dir), (8, page), (12, d.keys.used)]

/-- Pages of a run of a table (R174). -/
def ModTable.runPages (m : ModTable) : Nat := (m.limbs.length + m.specials.length) * keyChunks m.logN.toNat

/-- KRT entries that pending binds will fill. -/
def Dev.pendingDigits (d : Dev) : Nat := ((d.host.jobs.map (fun j => match j.kind with | .bind _ _ _ _ dir _ => dir.length | _ => 0))).sum

/-- Places of the runs of a bind, when entries and pages suffice (R180, R339). -/
def Dev.bindSpace (d : Dev) (b : List Byte) (m : ModTable) : Option (List Nat) :=
  if 65536 < d.keys.used + d.pendingDigits + bindDigits b then none
  else
    let s := d.keySpace (bindFar b)
    placeRuns s.1 s.2 d.freeValue (d.busyRuns (bindFar b)) (List.replicate (bindDigits b) m.runPages)

/-- Whether a pending BIND_KEYSET or STAGE_KEYS names a key set (R334). -/
def Dev.keysetBusy (d : Dev) (id : Word) : Bool :=
  d.hasJob (fun k => match k with | .bind x _ _ _ _ _ => x == id | .stage x _ _ _ => x == id | _ => false)

def Dev.testing (d : Dev) : Bool := d.hasJob (fun k => match k with | .channelTest .. => true | _ => false)

/-- BIND_KEYSET once its tests have passed (R339, R403, R411). -/
def Dev.bindKeyset (d : Dev) (f : Fetched) (b : List Byte) : Dev :=
  let required := match d.sec.owner with | some o => o.policy.getLsbD 1 | none => false
  let signedOk := !bindSigned b || sectionVerifies d.sec.owner (b.drop (b.length - 104)) (b.take (b.length - 104))
  let d := if bindSigned b then d.firmwarePke else d
  if (required && !bindSigned b) || !signedOk then d.complete f false .authFail (d.bindDetail 0 0xFF 0xFFFF 0)
  else
    let m := bindTable b
    match tableFails b m with
    | some (code, i) => d.complete f false .badParam (d.bindDetail code i 0xFFFF 0)
    | none => match d.dirCheck b m with
      | some (code, i) => d.complete f false .badParam (d.bindDetail code 0xFF i 0)
      | none => match d.bindSpace b m with
        | none => d.complete f false .noResource (d.bindDetail 0 0xFF 0xFFFF 0)
        | some places =>
          let dir := ((bindDir b m.logN.toNat).zip places).map (fun e =>
            (BitVec.ofNat 4 e.1.kind, BitVec.ofNat 18 e.1.galois, BitVec.ofNat 4 e.1.digit, e.1.seed, e.2))
          d.drew.becomePending f (.bind m.keyset (bindFar b) m (bindDnum b) dir [])

/-- BIND_KEYSET (R338, R339). -/
def execBindKeyset (c : Packet) (block : HostRead) (s : State) : Host.Outcome State Fault Refusal :=
  s.act (fun d => match block with
    | none => d.command c 0x12 { valid := false } (fun d _ => d)
    | some b => d.command c 0x12
        { valid := c.fieldsOk (some c.paramLen) none 0 && b.length == c.paramLen && decide (32 ≤ b.length) && bindLen b == b.length
          busy := d.keysetBusy (BitVec.ofNat 32 (leAt b 16 4)) || (d.testing && !bindFar b), signature := bindSigned b }
        (fun d f => d.bindKeyset f b))

/-- The header sector that firmware writes to a page (R174, R175, R339). -/
def pageHeaderBits (m : ModTable) (dnum : Nat) (kind : BitVec 4) (galois : BitVec 18) (digit : BitVec 4) (seed : BitVec 256) (i : Nat) : Nat :=
  let c := keyChunks m.logN.toNat
  let s := keyS m.logN.toNat
  let pos := i / c
  let entry := if pos < m.limbs.length then pos else 64 + pos - m.limbs.length
  0x31504B48 + m.keyset.toNat * 2 ^ 32 + kind.toNat * 2 ^ 64 + digit.toNat * 2 ^ 72 + dnum * 2 ^ 80 + entry * 2 ^ 88 + galois.toNat * 2 ^ 96 +
  (if m.logN.toNat = 12 then 0 else 64 * (i % c)) * 2 ^ 128 + s * 2 ^ 144 + m.logN.toNat * 2 ^ 152 + (seed.toNat % 2 ^ 64) * 2 ^ 160

/-- Checks 0x14 and 0x15 on a page as read from the host (R339): the code that fails, 0 for none. -/
def pageFails (m : ModTable) (dnum : Nat) (kind : BitVec 4) (galois : BitVec 18) (digit : BitVec 4) (page : HostRead) : Nat :=
  match page with
  | none => 0x15
  | some bs =>
    if leAt bs 0 4 == 0x31504B48 && leAt bs 4 4 == m.keyset.toNat && byteAt bs 8 == kind.toNat && byteAt bs 9 == digit.toNat && byteAt bs 10 == dnum &&
      leAt bs 12 4 % 2 ^ 18 == galois.toNat then 0 else 0x14

/-- The sectors of a page that firmware writes: its own header, and what the host holds of the others (R174, R339). -/
def bindSectors (m : ModTable) (hdr : Nat) (bs : List Byte) : List Sector :=
  { data := BitVec.ofNat 4608 hdr } ::
    (List.range (keyS m.logN.toNat)).map (fun o => { data := sectorOfBytes ((bs.drop (576 * (o + 1))).take 576) })

/-- The page of a tier's key space that page k of a bind goes to, its near-tier channel, and its header. -/
def bindPlace (m : ModTable) (dir : List (BitVec 4 × BitVec 18 × BitVec 4 × BitVec 256 × Nat)) (k : Nat) : Nat :=
  match dir[k / m.runPages]? with | some e => e.2.2.2.2 + k % m.runPages | none => 0

def bindHeader (m : ModTable) (dnum : Nat) (dir : List (BitVec 4 × BitVec 18 × BitVec 4 × BitVec 256 × Nat)) (k : Nat) : Nat :=
  match dir[k / m.runPages]? with
  | some e => pageHeaderBits m dnum e.1 e.2.1 e.2.2.1 e.2.2.2.1 (k % m.runPages)
  | none => 0

/-- The first KRT index from `start` on, cyclically, whose entry is not valid; `fuel` bounds the entries passed over. -/
def Keys.freeIndex (k : Keys) : Nat → Nat → Nat
  | 0, i => i % 65536
  | n + 1, i => match k.entry (i % 65536) with
    | some e => if e.valid then k.freeIndex n (i + 1) else i % 65536
    | none => i % 65536

/-- The runs of a bind enter the KRT, at free indices from a free start on (R180, log 29). -/
def Keys.enterRuns (k : Keys) (start : Nat) (far : Bool) (m : ModTable) (dir : List (BitVec 4 × BitVec 18 × BitVec 4 × BitVec 256 × Nat)) : Keys :=
  dir.foldl (fun k e =>
    let blank : KrtEntry := { keyset := m.keyset, kind := e.1, galois := e.2.1, digit := e.2.2.1, valid := true, far := far, channel := 0, page := 0
                              pages := BitVec.ofNat 16 m.runPages, seed := e.2.2.2.1 }
    k.setEntry (k.freeIndex k.used start) (some (blank.moved far e.2.2.2.2))) k

/-- Sectors a on of a near-tier page of a bind go to its channel, which makes the writes in their turn (R208). -/
def Dev.putRows (d : Dev) (p a : Nat) (rows : List Sector) : Dev := rows.zipIdx.foldl (fun d r => d.receiveMem (.put p (a + r.2) r.1)) d

/-- Pages of a bind copied, each as far as Transit's mover may work on its channel, and from where it stands (R222, R339); the pages landed, and those
begun. -/
def Dev.bindPages (d : Dev) (far : Bool) (m : ModTable) (dnum : Nat) (dir : List (BitVec 4 × BitVec 18 × BitVec 4 × BitVec 256 × Nat)) :
    List (Nat × List Byte) → List Nat → List (Nat × Nat) → Dev × List Nat × List (Nat × Nat)
  | [], landed, begun => (d, landed, begun)
  | (k, bs) :: rest, landed, begun =>
    let x := bindPlace m dir k
    let all := keyS m.logN.toNat + 1
    let ch := pageChannel (linearPhys x)
    let rows := bindSectors m (bindHeader m dnum dir k) bs
    let a := ((begun.find? (fun p => p.1 == k)).map (·.2)).getD 0
    let n := d.moverSlots ch (all - a)
    if landed.contains k || (!far && n == 0) then d.bindPages far m dnum dir rest landed begun
    else if far then (d.writeKeyPage true x 0 rows).bindPages far m dnum dir rest (landed ++ [k]) begun
    else if a + n < all then
      ((d.putRows (linearPhys x) a ((rows.drop a).take n)).chargeTransit ch n).bindPages far m dnum dir rest landed (setCopied begun k (a + n))
    else ((d.putRows (linearPhys x) a (rows.drop a)).chargeTransit ch n).bindPages far m dnum dir rest (landed ++ [k]) begun

/-- The end of a bind: its runs enter the KRT, and the set is bound (R339). -/
def Dev.bindDone (d : Dev) (j : Job) (far : Bool) (m : ModTable) (dnum : Nat) (dir : List (BitVec 4 × BitVec 18 × BitVec 4 × BitVec 256 × Nat)) :
    Dev :=
  let keys := d.keys.enterRuns (d.freeValue % 65536) far m dir
  let digits := dir.map (fun e => (e.1, e.2.1, e.2.2.1))
  let keys : Keys :=
    if (keys.set? m.keyset).isSome then
      { keys with bound := keys.bound.map (fun b => if b.table.keyset = m.keyset then { b with digits := b.digits ++ digits } else b) }
    else { keys with bound := keys.bound ++ [{ table := m, dnum := dnum, digits := digits }] }
  let d : Dev := { d.drew with keys := keys }
  d.finish j .ok (d.bindDetail 0 0xFF 0xFFFF 0)

/-- BIND_COPY_COMPLETE: pages of the oldest bind as read from the host, each with its number over the runs. They are checked and copied; with the
last one the command completes (R339). What the mover may not copy yet stays to be copied (R222). -/
def Dev.bindCopied (d : Dev) (pages : List (Nat × HostRead)) : Dev :=
  match d.host.jobs.find? (fun j => match j.kind with | .bind .. => true | _ => false) with
  | none => d
  | some j => match j.kind with
    | .bind id far m dnum dir landed =>
      let n := m.runPages
      let total := dir.length * n
      let todo := pages.filter (fun p => decide (p.1 < total) && !landed.contains p.1)
      let code := fun (p : Nat × HostRead) => match dir[p.1 / n]? with
        | some e => pageFails m dnum e.1 e.2.1 e.2.2.1 p.2
        | none => 0x15
      match todo.find? (fun p => code p != 0) with
      | some p => d.finish j .badParam (d.bindDetail (code p) 0xFF (p.1 / n) (p.1 % n))
      | none =>
        let r := d.bindPages far m dnum dir (todo.filterMap (fun p => p.2.map (fun bs => (p.1, bs)))) landed j.begun
        if r.2.1.length = total then r.1.bindDone j far m dnum dir
        else r.1.putJob j { j with kind := .bind id far m dnum dir r.2.1, begun := r.2.2 }
    | _ => d

def execBindCopyComplete (pages : List (Nat × HostRead)) (s : State) : Host.Outcome State Fault Refusal := s.event (fun d => d.bindCopied pages)

/-- Key sets that the loaded image's stages declare (R27). -/
def Dev.declares (d : Dev) (id : Word) : Bool :=
  match d.run.image with
  | some im => im.stages.any (fun st => st.entries.any (fun e => e.refs.any (fun r => r != 0xFF && im.keysets.getD r.toNat 0 == id)))
  | none => false

/-- An installed plan names a key set (R367). -/
def Dev.planNames (d : Dev) (id : Word) : Bool :=
  d.peer.plans.any (fun p => match p with
    | some x => byteAt x.block 1 == 1 && (List.range (leAt x.block 4 2)).any (fun h => leAt x.block (64 + 32 * h + 16) 4 == id.toNat)
    | none => false)

/-- UNBIND_KEYSET (R180, R340, R367). -/
def execUnbindKeyset (c : Packet) (s : State) : Host.Outcome State Fault Refusal :=
  s.act (fun d =>
    let id := BitVec.ofNat 32 (c.inl 0 4)
    d.command c 0x13
      { valid := c.fieldsOk none none (inlBytes 0 4)
        condition := !((d.run.state == .loaded || d.run.going) && (d.declares id || d.planNames id)), busy := d.keysetBusy id }
      (fun d f =>
        if (d.keys.set? id).isNone then d.complete f false .badParam noDetail
        else
          let krt := d.keys.krt.map (fun e => (e.1, e.2.map (fun x => if x.keyset = id then { x with valid := false, seed := 0 } else x)))
          ({ d with keys := { d.keys with krt := krt, bound := d.keys.bound.filter (fun x => x.table.keyset != id) } }).complete f false .ok noDetail))

/- STAGE_KEYS (R340). -/

def stageAll (c : Packet) : Bool := (c.inl 4 1).testBit 1

/-- KRT indices of the runs that STAGE_KEYS names. -/
def Dev.stageNamed (d : Dev) (c : Packet) : List (Nat × KrtEntry) :=
  d.keys.entries.filter (fun e => e.2.valid && e.2.keyset.toNat == c.inl 0 4 &&
    (stageAll c || (e.2.kind.toNat == c.inl 5 1 && e.2.galois.toNat == c.inl 8 4 && (c.inl 6 1 == 0xFF || e.2.digit.toNat == c.inl 6 1))))

/-- STAGE_KEYS (R222, R340): KIND and DIGIT are checked with the packet (R332). -/
def execStageKeys (c : Packet) (s : State) : Host.Outcome State Fault Refusal :=
  s.act (fun d =>
    let id := BitVec.ofNat 32 (c.inl 0 4)
    let far := (c.inl 4 1).testBit 0
    d.command c 0x14
      { valid := c.fieldsOk none none (inlBytes 0 7 + inlBytes 8 4) && decide (c.inl 4 1 < 4) && decide (c.inl 8 4 < 2 ^ 18) &&
          (if stageAll c then c.inl 5 2 == 0 && c.inl 8 4 == 0
            else decide (1 ≤ c.inl 5 1) && decide (c.inl 5 1 ≤ 3) && (decide (c.inl 6 1 < 16) || c.inl 6 1 == 0xFF))
        busy := d.keysetBusy id || (d.testing && !far) }
      (fun d f =>
        let named := d.stageNamed c
        let moves := named.filter (fun e => e.2.far != far)
        let space := d.keySpace far
        if (d.keys.set? id).isNone || (named.isEmpty && !stageAll c) then d.complete f false .badParam noDetail
        else if far && d.mem.farPages == 0 then d.complete f false .noResource noDetail
        else match placeRuns space.1 space.2 d.freeValue (d.busyRuns far) (moves.map (fun e => e.2.pages.toNat)) with
          | none => d.complete f false .noResource noDetail
          | some places =>
            let d := d.drew.becomePending f (.stage id far ((moves.map (·.1)).zip places) [])
            match d.host.jobs.getLast? with
            | some j => if moves.isEmpty then d.finishStage j else d
            | none => d))

/- RETIRE_PAGE (R207, R340). -/

/-- Whether a run includes a page of its tier: near pages as physical pages. -/
def KrtEntry.includes (e : KrtEntry) (far : Bool) (p : Nat) : Bool :=
  e.far == far &&
  (let x := if far then p else 256 * pageLocal p + pageChannel p
   decide (e.linear ≤ x) && decide (x < e.linear + e.pages.toNat))

/-- Whether a stream of the loaded image resolves to an entry (R180). -/
def Dev.streamsUse (d : Dev) (e : KrtEntry) : Bool :=
  match d.run.image with
  | none => false
  | some im => im.stages.any (fun st => st.entries.any (fun x => (d.tile x.tile).streams.any (fun s =>
      let r := x.refs.getD (stMctx s.2).toNat 0xFF
      r != 0xFF && im.keysets.getD r.toNat 0 == e.keyset && e.kind.toNat == stKind s.2 && e.galois.toNat == stGalois s.2 &&
      e.digit.toNat == stDigit s.2)))

/-- RETIRE_PAGE (R207, R340). Under TIER = 1 CHANNEL is not looked at: the spec does not say that it is then unused (DESIGN CHOICE, log 80). -/
def execRetirePage (c : Packet) (s : State) : Host.Outcome State Fault Refusal :=
  s.act (fun d =>
    let far := c.inl 0 1 == 1
    let p := if far then c.inl 4 4 else physPage (c.inl 1 1) (c.inl 4 4)
    d.command c 0x15
      { valid := c.fieldsOk none none (inlBytes 0 2 + inlBytes 4 4) && decide (c.inl 0 1 < 2) && (far || decide (c.inl 4 4 < 40960))
        condition := !(d.run.state == .loaded && d.keys.valid.any (fun e => e.includes far p && d.streamsUse e)), busy := d.testing }
      (fun d f =>
        let known := d.flash.retired.contains (far, p)
        if far && decide (d.mem.farPages ≤ p) then d.complete f false .badParam noDetail
        else if !known && decide (1024 ≤ d.flash.retired.length) then d.complete f false .noResource noDetail
        else
          let logical := if far then 0xFFFFFFFF else (d.mem.logical p).getD 0xFFFFFFFF
          let retired := if known then d.flash.retired else d.flash.retired ++ [(far, p)]
          let krt := d.keys.krt.map (fun e => (e.1, e.2.map (fun x => if x.includes far p then { x with valid := false } else x)))
          let m := if far then { d.mem with retiredFar := if d.mem.retiredFar.contains p then d.mem.retiredFar else p :: d.mem.retiredFar }
            else { d.mem with retiredNear := if d.mem.retiredNear.contains p then d.mem.retiredNear else p :: d.mem.retiredNear }
          ({ d with flash := { d.flash with retired := retired }, keys := { d.keys with krt := krt }, mem := m }).complete f false .ok
            (detailOf [(0, logical), (4, retired.length)])))

end Sys2Proof.Machine
end

