-- ==== Sys2Proof/Machine/Power.lean ====
section
/-! DEFINITION. Power (16): the power plan and its peak, the arbiter's evaluations and throttles, thermal and droop conditions, the input monitor, voltage scaling. -/

namespace Sys2Proof.Machine

/- Planning currents in tenths of an ampere, powers in hundredths of a watt: 0.1 A at 0.80 V is 8 of them (R376). -/

/-- Current of a class byte beyond the base (R124, R377). -/
def classCurrent (b : Nat) : Nat :=
  [0, 25, 50, 0].getD (field b 0 2) 0 + (if field b 2 1 = 1 then 38 else 0) + [0, 75, 81, 56, 88, 106, 25, 0].getD (field b 3 3) 0

/-- No reserved code in a class byte (R377). -/
def classOk (b : Nat) : Bool := field b 0 2 != 3 && field b 3 3 != 7 && field b 6 2 == 0

/-- TILE_BASE (R376). -/
def tileBase (segments : Nat) : Nat := 17 + (List.range 8).countP (fun i => segments.testBit i)

def Image.base (im : Image) (t : TileId) : Nat :=
  if im.tileMask.getLsbD t.toNat then tileBase (byteAt im.segments t.toNat) else 3

/-- Planned power of a stage's members and uncore in quarter q (R378, R379). -/
def Image.stagePower (im : Image) (st : Stage) (q : Nat) : Nat :=
  st.uncore.getD q 0 * 10 + ((st.classes.map (fun c => 8 * (im.base c.1 + classCurrent (byteAt c.2 q)))).sum)

/-- Planned saving when a stage's group is frozen in quarter q (R381). -/
def Stage.saving (st : Stage) (q : Nat) : Nat := (st.classes.map (fun c => 8 * classCurrent (byteAt c.2 q))).sum

/-- Members of a lock group by the image's map. -/
def Image.members (im : Image) (g : GroupId) : List TileId :=
  allTiles.filter (fun t => byteAt im.membership t.toNat == g.toNat)

def Image.idlePower (im : Image) (g : GroupId) : Nat := ((im.members g).map (fun t => 8 * im.base t)).sum

/-- Power of the tiles in no group. -/
def Image.looseTiles (im : Image) : Nat :=
  ((allTiles.filter (fun t => decide (16 ≤ byteAt im.membership t.toNat))).map (fun t => 8 * im.base t)).sum

/-- Nucleus, links and DRAM standby: at least 80 W. -/
def Image.uncore (im : Image) : Nat := max (im.baseUncore * 10) 8000

/-- Power of a group at rota position t in quarter q. -/
def Image.groupPower (im : Image) (g : GroupRec) (t q : Nat) : Nat :=
  let b := g.rota.getD (t % max g.rota.length 1) 0xFF
  if b = 0xFF then im.idlePower g.group else match im.stages[b.toNat]? with
    | some st => im.stagePower st q
    | none => im.idlePower g.group

def lcmAll : List Nat → Nat
  | [] => 1
  | n :: ns => Nat.lcm (max n 1) (lcmAll ns)

/-- The planned peak in watts, rounded up (R379). -/
def Image.peak (im : Image) : Nat :=
  let L := lcmAll (im.groups.map (·.rota.length))
  let rest := im.uncore + im.looseTiles
  let w := fun (p : GroupRec → Nat) => rest + (im.groups.map p).sum
  let peak :=
    if L ≤ 4096 then
      (List.range L).foldl (fun m t => (List.range 4).foldl (fun m q => max m (w (fun g => im.groupPower g t q))) m) 0
    else
      (List.range 4).foldl (fun m q => max m (w (fun g =>
        (List.range (max g.rota.length 1)).foldl (fun a t => max a (im.groupPower g t q)) 0))) 0
  (peak + 99) / 100

/- The arbiter (R380 to R386). -/

/-- Quarter of the present tick cycle. -/
def Dev.quarter (d : Dev) : Nat := min 3 (4 * d.tick.cycle / max d.tick.period 1)

/-- Whether a group runs a stage now, as the arbiter sees it: active, started, not at stage end (R243). -/
def Dev.candidate (d : Dev) (g : Group) : Bool := d.running && g.active && g.started && !g.ended && !d.tick.deadlineDone

/-- Whether a throttle still freezes a group when a new one would begin (R243, R381; log 30). -/
def Group.stillThrottled (g : Group) (w : Nat) : Bool := g.throttles.any (fun p => decide (p.1 ≤ w + 3) && decide (w + 3 ≤ p.2))

/-- A group frozen in the coming interval, taken at TILE_BASE (R381). -/
def Dev.restsAtBase (d : Dev) (g : Group) : Bool :=
  g.stillThrottled d.tick.wall || g.held d.tick.wall || decide (0 < g.eccLeft) ||
  g.members.any (fun t => (d.tile t).waitFreezes d.tick.wall || (d.tile t).markerFreezes d.tick.wall)

/-- Planned power of the current quarter with frozen groups at TILE_BASE (R379, R381): that of every group of the tick, until the last has
ended its stage. -/
def Dev.plannedNow (d : Dev) : Nat :=
  match d.run.image with
  | none => 0
  | some im =>
    let q := d.quarter
    let live := allGroups.any (fun g => d.candidate (d.group g))
    im.uncore + im.looseTiles + (im.groups.map (fun r =>
      let g := d.group r.group
      match live && g.active && g.started, im.stages[g.stage]? with
      | true, some st => im.stagePower st q - (if d.restsAtBase g then st.saving q else 0)
      | _, _ => im.idlePower r.group)).sum

/-- R243's order: higher PRIORITY, then more HALO_LEFT, then the lower number. -/
def Dev.throttleBefore (d : Dev) (a b : GroupId) : Bool :=
  let x := d.group a
  let y := d.group b
  decide (y.priority < x.priority) || (x.priority == y.priority && (decide (y.haloLeft < x.haloLeft) ||
    (decide (x.haloLeft = y.haloLeft) && decide (a < b))))

/-- Inserts a group in R243's order. -/
def Dev.insertGroup (d : Dev) (g : GroupId) : List GroupId → List GroupId
  | [] => [g]
  | h :: hs => if d.throttleBefore g h then g :: h :: hs else h :: d.insertGroup g hs

/-- The candidates in order (R381). -/
def Dev.candidates (d : Dev) : List GroupId :=
  (allGroups.filter (fun g => d.candidate (d.group g) && !(d.group g).stillThrottled d.tick.wall)).foldl (fun l g => d.insertGroup g l) []

def Dev.onPower (d : Dev) (f : Power → Power) : Dev := { d with power := f d.power }
def Dev.powerEvent (d : Dev) (bit : Nat) : Dev :=
  (d.onPower (fun p => { p with events := p.events ||| BitVec.ofNat 7 (2 ^ bit) })).mark 0x40014 (BitVec.ofNat 32 (2 ^ bit))

/-- One quantum raised now: frozen from the third cycle on, for 2,000 (R243). -/
def Dev.throttle (d : Dev) (g : GroupId) : Dev :=
  let x := d.group g
  let w := d.tick.wall
  (d.setGroup g { x with throttles := x.throttles ++ [(w + 3, w + 2002)] }).onPower (fun p => { p with quanta := satInc p.quanta })

/-- Throttles candidates in turn until the planned saving covers the need (R381). -/
def Dev.throttleUntil (d : Dev) (need : Nat) : List GroupId → Dev
  | [] => if need = 0 then d else d.powerEvent 5
  | g :: gs =>
    if need = 0 then d
    else
      let saving := match d.run.image.bind (fun im => im.stages[(d.group g).stage]?) with | some st => st.saving d.quarter | none => 0
      (d.throttle g).throttleUntil (need - saving) gs

/-- The first candidate of a die. -/
def Dev.dieCandidate (d : Dev) (die : Nat) : Option GroupId := d.candidates.find? (fun g => (d.group g).die.toNat == die)

/-- R384 for one compute die at an evaluation. -/
def Dev.thermal (d : Dev) (first : Option GroupId) (die : Nat) : Dev :=
  let t := byteAt d.power.junction die
  let was := d.power.hot.getD die false
  let lim := d.power.limit.toNat
  let hot := decide (lim < t) || (was && decide (lim < t + 2))
  let d := d.onPower (fun p => { p with hot := p.hot.set die hot })
  let d := if hot && !was then d.event srcArbiter evPwrThermal [(16, die), (17, t)] else d
  let dram := (d.mem.stackOf.toList.getD (2 * die) {}).temperature.toNat > 95 || (d.mem.stackOf.toList.getD (2 * die + 1) {}).temperature.toNat > 95
  match first with
  | some g =>
    let d := if hot then (d.throttle g).powerEvent 2 else d
    if dram && decide (d.power.evals % 4 = 0) then (d.throttle g).powerEvent 3 else d
  | none => d

/-- The grant and the term that sets it (R380). -/
def Power.setGrant (p : Power) : Power :=
  let a := if p.brake && decide (p.floor < p.budget) then (p.floor, (1 : BitVec 2)) else (p.budget, 0)
  let b := if p.inputTerm < a.1 then (p.inputTerm, (2 : BitVec 2)) else a
  { p with grant := b.1, by_ := b.2 }

/-- The input term is lowered while the 1 ms average is above 990 W (R383). -/
def Dev.inputLimit (d : Dev) : Dev :=
  if 990 < d.power.input.toNat then
    let first := d.running && !d.power.loweredThisRun
    let d := d.onPower (fun p => { p with inputTerm := min p.inputTerm p.budget - 10, loweredThisRun := p.loweredThisRun || d.running })
    if first then (d.powerEvent 1).event srcArbiter evPwrInputLimit [(16, d.power.input.toNat)] else d
  else d

/-- One evaluation (R380 to R386). -/
def Dev.evaluate (d : Dev) (seen : Sensors) : Dev :=
  let d := d.onPower (fun p => { p with package := seen.package, junction := (List.range 5).map (fun i => seen.junction.getD i 0)
                                        evals := p.evals + 1 })
  let d := (d.inputLimit).onPower Power.setGrant
  let e := max (seen.package.toNat * 100) d.plannedNow
  let d := d.onPower (fun p => { p with short := decide (p.grant * 100 < e) })
  let firsts := (List.range 4).map d.dieCandidate
  let d := if d.power.short then d.throttleUntil (e - d.power.grant * 100) d.candidates else d
  (List.range 4).foldl (fun d i => d.thermal (firsts.getD i none) i) d

/-- An evaluation with its sensors: a junction of 125 °C trips the module (R385, R448). -/
def Dev.measure (d : Dev) (seen : Sensors) : Dev := if seen.junction.any (fun t => decide (125 ≤ t.toNat)) then d.trip else d.evaluate seen

/-- ARBITER_EVALUATION: at tick cycles 0, 2,000, 4,000 and so on of every tick (R380). -/
def execArbiterEvaluation (seen : Sensors) (s : State) : Host.Outcome State Fault Refusal :=
  s.act (fun d =>
    if d.tick.running && decide (d.tick.cycle % 2000 = 0) && d.power.evalAt != some d.tick.wall then
      (d.onPower (fun p => { p with evalAt := some d.tick.wall })).measure seen
    else d)

/-- An edge of PWR_BRAKE# triggers an evaluation, but in BOOT, where its level counts from the first evaluation after READY (R382, R446). -/
def Dev.brakeEdge (d : Dev) (seen : Sensors) : Dev := if d.pins.up && d.run.state != .boot then d.measure seen else d

/-- PWR_BRAKE_ASSERT (R382): a module without power sees the level alone. -/
def execPwrBrakeAssert (seen : Sensors) (s : State) : Host.Outcome State Fault Refusal :=
  s.act (fun d =>
    if d.power.brake then d
    else
      let e := d.onPower (fun p => { p with brake := true })
      (if d.pins.up then (e.powerEvent 0).event srcArbiter evPwrBrake [(16, d.power.floor)] else e).brakeEdge seen)

/-- PWR_BRAKE_RELEASE (R382). -/
def execPwrBrakeRelease (seen : Sensors) (s : State) : Host.Outcome State Fault Refusal :=
  s.act (fun d => if d.power.brake then (d.onPower (fun p => { p with brake := false })).brakeEdge seen else d)

/-- INPUT_MONITOR_SAMPLE: one sample a microsecond; the average of the last 1,000; the term rises by 10 W a millisecond (R383). -/
def Power.sample (p : Power) (watts : Nat) : Power :=
  let xs := (p.inputSamples ++ [watts]).drop (p.inputSamples.length + 1 - 1000)
  let avg := xs.sum / max xs.length 1
  let raise := decide (avg < 970) && decide (p.inputTerm < p.budget)
  let n := if raise then p.sinceRaise + 1 else 0
  { p with inputSamples := xs, input := BitVec.ofNat 16 avg, sinceRaise := if n = 1000 then 0 else n
           inputTerm := if n = 1000 then min (p.inputTerm + 10) p.budget else p.inputTerm }

def execInputMonitorSample (watts : BitVec 16) (s : State) : Host.Outcome State Fault Refusal :=
  s.act (fun d => if d.pins.up then d.onPower (fun p => p.sample watts.toNat) else d)

/- Clocks and voltage (R390 to R392). -/

/-- DROOP_DETECTED (R384, R390). -/
def execDroopDetected (die : DieId) (s : State) : Host.Outcome State Fault Refusal :=
  s.act (fun d =>
    if !d.pins.up then d
    else
      let d := match d.dieCandidate die.toNat with | some g => d.throttle g | none => d
      let i := die.toNat
      (d.powerEvent 4).onClocks (fun c => if (c.inForce.getD i none).isSome && !c.overriding.getD i false then c
        else { c with code := c.code.set i (if 70 ≤ (c.code.getD i 0).toNat then 72 else c.code.getD i 0 + 2) }))

/-- One step of a die's voltage loop (R390 to R392; log 31): the code and whether a pin is overridden after it. `inForce` is the code that the step
before took up from the pin. A pin that is set, or a code that is written, since then is taken up, but for a lower code while the loop overrides. -/
def avsNext (pin : Bool) (inForce : Option Nat) (overriding : Bool) (pinCode code : Nat) (slack guard : Int) : Nat × Bool :=
  if pin then
    if inForce ≠ some pinCode ∧ (!overriding ∨ code ≤ pinCode) then (pinCode, false)
    else if slack < 0 ∨ (overriding ∧ slack = 0) then (min 72 (code + 1), true)
    else if overriding then
      (if code ≤ pinCode then (pinCode, false)
        else if guard < slack then (if code - 1 ≤ pinCode then (pinCode, false) else (code - 1, true)) else (code, true))
    else (pinCode, false)
  else if guard < slack then (code - 1, false)
  else if slack < guard then (min 72 (code + 1), false)
  else (code, false)

/-- AVS_STEP (R390, R392). -/
def Dev.avsStep (d : Dev) (die : Nat) (slack guard : Byte) : Dev :=
  let c := d.clocks
  let was := c.overriding.getD die false
  let n := avsNext (c.pin.getD die false) ((c.inForce.getD die none).map (·.toNat)) was (c.pinCode.getD die 0).toNat (c.code.getD die 0).toNat slack.toInt guard.toInt
  let c' := { c with code := c.code.set die (BitVec.ofNat 7 n.1), overriding := c.overriding.set die n.2, slack := c.slack.set die slack
                     inForce := c.inForce.set die (if c.pin.getD die false then some (c.pinCode.getD die 0) else none)
                     overridden := if n.2 && !was then c.overridden.set die true else c.overridden }
  let d := { d with clocks := c' }
  if n.2 && !was then (d.mark (0x50014 + 8 * die) 0x80).event (0x40 + die) evAvsOverride [(16, (c.pinCode.getD die 0).toNat), (17, n.1)] else d

def execAvsStep (die : DieId) (slack guardBand : BitVec 8) (s : State) : Host.Outcome State Fault Refusal :=
  s.act (fun d => if d.pins.up then d.avsStep die.toNat slack guardBand else d)

def eqDefault : Nat → Word := fun _ => 0

/-- DIE_LINK_REPLAY: the traffic of the link waits for the length of the replay; EQ_LINKl counts it (R244, R393). -/
def execDieLinkReplay (link : BitVec 3) (cycles : BitVec 16) (s : State) : Host.Outcome State Fault Refusal :=
  s.act (fun d => d.unlessTripped fun d =>
    let w := Store.read eqDefault d.clocks.eqLink link.toNat
    let n := satInc (w.extractLsb' 16 16)
    d.onClocks (fun c => { c with eqLink := Store.write eqDefault c.eqLink link.toNat (n ++ w.extractLsb' 0 16)
                                  linkHold := c.linkHold.set link.toNat (d.tick.wall + cycles.toNat) }))

end Sys2Proof.Machine
end

