-- ==== Sys2Proof/Machine/ImageFormat.lean ====
section
/-! DEFINITION. The format of a Stavnar image (11 R254 to R263, 16 R378): its sections as parsed, and the checks that need only its bytes. -/

namespace Sys2Proof.Machine

/- The device's own dimensions, which the compiled-for fields must equal (R255) and the feature registers show (R453). -/
def featTiles : Nat := 64
def featMaxLogN : Nat := 17
def featLanes : Nat := 1024
def featRows : Nat := 0x8000
def featChannels : Nat := 256
def featKrtEntries : Nat := 65536

/-- n bytes from byte `off` of a byte string read as one number. -/
def fb (x off n : Nat) : Nat := field x (8 * off) (8 * n)

/-- A failed check of R264: its number and the offset of the first field found wrong (R336). -/
abbrev Bad := Nat × Nat
abbrev Checked := Except Bad

def must (ok : Bool) (check off : Nat) : Checked Unit := if ok then .ok () else .error (check, off)

/-- Every condition of a list, in order. -/
def mustAll {α : Type} (l : List α) (f : α → Checked Unit) : Checked Unit :=
  match l with
  | [] => .ok ()
  | a :: as => match f a with
    | .ok _ => mustAll as f
    | .error e => .error e

/-- Section i: offset and length (R255). -/
def secOff (x i : Nat) : Nat := fb x (48 + 16 * i) 4
def secLen (x i : Nat) : Nat := fb x (52 + 16 * i) 4
def secEnd (x i : Nat) : Nat := secOff x i + secLen x i

/-- Bytes of an image in TILE_MASK. -/
def imgMask (x : Nat) : BitVec 64 := BitVec.ofNat 64 (fb x 16 8)
def imgStages (x : Nat) : Nat := fb x 36 1
def imgPoisonHalt (x : Nat) : Bool := (fb x 6 2).testBit 1
def imgTiles (x : Nat) : List TileId := allTiles.filter (fun t => (imgMask x).getLsbD t.toNat)
/-- Segment mask of a tile (R254). -/
def imgSegments (x : Nat) (t : TileId) : Nat := fb x (secOff x 8 + t.toNat) 1

/-- Check 2 on the header and the section entries (R254, R255). `len` is IMAGE_LEN (R336). -/
def checkHeader (x len : Nat) : Checked Unit := do
  must (decide (256 ≤ len)) 2 0
  mustAll [(0, 4, 0x524E5653), (4, 2, 1), (24, 1, featTiles), (25, 1, featMaxLogN), (26, 2, featLanes), (28, 2, featRows),
      (30, 2, featChannels), (32, 4, featKrtEntries)] (fun f => must (fb x f.1 f.2.1 == f.2.2) 2 f.1)
  must (decide (fb x 6 2 < 8)) 2 6
  must (fb x 8 4 == len) 2 8
  must (imgStages x != 0) 2 36
  must (fb x 37 11 == 0) 2 37
  mustAll (List.range 11) (fun i => do
    must (fb x (56 + 16 * i) 8 == 0) 2 (56 + 16 * i)
    if secLen x i = 0 then must (!([0, 1, 5, 6, 7, 8] : List Nat).contains i) 2 (52 + 16 * i)
    else
      let before := ((List.range i).map (fun j => if secLen x j = 0 then 256 else secEnd x j)).foldl max 256
      must (i != 9 && secOff x i % 64 == 0 && decide (before ≤ secOff x i) && decide (secEnd x i ≤ len) && (i != 8 || secLen x i == 64))
        2 (48 + 16 * i))

/-- Lock group of a tile by the map (R262). -/
def mapGroup (x : Nat) (t : TileId) : Nat := fb x (secOff x 5 + 256 + t.toNat) 1
def mapMembers (x g : Nat) : List TileId := if g = 0xFF then [] else allTiles.filter (fun t => mapGroup x t == g)

/-- Where stage record s of the map begins. -/
def mapStageAt (x : Nat) : Nat → Nat
  | 0 => secOff x 5 + 320
  | s + 1 => let p := mapStageAt x s; p + 16 + 8 * (mapMembers x (fb x (p + 1) 1)).length

/-- Lock group and members of stage s by the map. -/
def mapStageGroup (x s : Nat) : Nat := fb x (mapStageAt x s + 1) 1
def mapStageMembers (x s : Nat) : List TileId := mapMembers x (mapStageGroup x s)

/-- Where stage record s of the power plan begins (R378). -/
def planStageAt (x : Nat) : Nat → Nat
  | 0 => secOff x 6 + 16
  | s + 1 => planStageAt x s + 16 + 4 * (mapStageMembers x s).length

/-- Bytes from p to the end of section i are all 0 (log 32). -/
def restZero (x i p : Nat) : Bool := decide (p ≤ secEnd x i) && fb x p (secEnd x i - p) == 0

/-- Check 2 on the power plan (R377, R378). -/
def checkPlan (x : Nat) : Checked Unit := do
  let p := secOff x 6
  must (decide (16 ≤ secLen x 6) && fb x p 1 == 1 && fb x (p + 1) 1 == 0 && fb x (p + 4) 1 == imgStages x && fb x (p + 5) 11 == 0) 2 p
  mustAll (List.range (imgStages x)) (fun s => do
    let q := planStageAt x s
    let n := (mapStageMembers x s).length
    must (decide (q + 16 + 4 * n ≤ secEnd x 6) && fb x q 1 == s && fb x (q + 1) 7 == 0) 2 q
    mustAll (List.range n) (fun k => must ((List.range 4).all (fun j => classOk (fb x (q + 16 + 4 * k + j) 1))) 2 (q + 16 + 4 * k)))
  must (restZero x 6 (planStageAt x (imgStages x))) 2 (planStageAt x (imgStages x))

/-- A tile-program record (R256): where it begins, and BUNDLES. -/
structure TileProg where
  tile : TileId
  start : Nat
  bundles : Nat
deriving DecidableEq, Repr

/-- The tile programs from byte p on (R256). -/
def tileProgs (x : Nat) : List TileId → Nat → Checked (List TileProg)
  | [], p => do
    must (restZero x 0 p) 3 p
    pure []
  | t :: ts, p => do
    let n := fb x (p + 2) 2
    must (decide (p + 16 + 16 * n ≤ secEnd x 0) && fb x p 1 == t.toNat && fb x (p + 1) 1 == 0 && n != 0 && decide (n ≤ 16384)) 3 p
    must (fb x (p + 4) 4 &&& 0xFFF000F8 == 0 && fb x (p + 8) 4 &&& 0xFF000000 == 0) 3 (p + 4)
    let rest ← tileProgs x ts (p + 16 + 16 * n)
    pure ({ tile := t, start := p, bundles := n } :: rest)

/- The relocation and patch heads (R258); an absent section has none. -/
def relRegions (x : Nat) : Nat := if secLen x 2 = 0 then 0 else fb x (secOff x 2) 2
def relEntries (x : Nat) : Nat := if secLen x 2 = 0 then 0 else fb x (secOff x 2 + 4) 4
def patchParams (x : Nat) : Nat := if secLen x 3 = 0 then 0 else fb x (secOff x 3) 2
def patchEntries (x : Nat) : Nat := if secLen x 3 = 0 then 0 else fb x (secOff x 3 + 4) 4
def regionAt (x r : Nat) : Nat := secOff x 2 + 16 + 8 * r
def regionFar (x r : Nat) : Bool := fb x (regionAt x r) 1 == 3
def regionLen (x r : Nat) : Nat := fb x (regionAt x r + 4) 4

/-- A constants record (R257): where its data begins, in units of its kind from DEST on. -/
structure Const where
  kind : Nat
  /-- Tile, or region for KIND 0x4. -/
  owner : Nat
  dest : Nat
  units : Nat
  start : Nat
deriving DecidableEq, Repr

/-- Bytes of a unit by kind: row, descriptor, stream descriptor, sector. -/
def constUnit (kind : Nat) : Nat := ([1, 576, 64, 32, 576] : List Nat).getD kind 1

/-- Whether segment mask `m` powers a row (R145). -/
def rowPowered (m row : Nat) : Bool := decide (row < 32768) && m.testBit (2 * (row / 8192) + row / 4 % 2)

/-- A constants record at p (R257). -/
def constAt (x p : Nat) : Checked Const := do
  let kind := fb x p 1
  let tile := fb x (p + 1) 1
  let len := fb x (p + 12) 4
  must (decide (1 ≤ kind) && decide (kind ≤ 4) && fb x (p + 2) 2 == 0 && fb x (p + 9) 3 == 0) 3 p
  let units := len / constUnit kind
  let dest := fb x (p + 4) 4
  let region := fb x (p + 8) 1
  must (decide (p + 16 + (len + 63) / 64 * 64 ≤ secEnd x 1) && len % constUnit kind == 0) 3 (p + 12)
  must (if kind = 4 then tile == 0 else region == 0 && decide (tile < 64) && (imgMask x).getLsbD tile) 3 (p + 1)
  must (match kind with
    | 1 => (List.range units).all (fun k => rowPowered (imgSegments x (BitVec.ofNat 6 tile)) (dest + k))
    | 2 => decide (dest + units ≤ 1024)
    | 3 => decide (dest + units ≤ 64)
    | _ => decide (region < relRegions x) && decide (dest + units ≤ regionLen x region)) 3 (p + 4)
  pure { kind := kind, owner := if kind = 4 then region else tile, dest := dest, units := units, start := p + 16 }

/-- The constants records from p on (R257); fuel is the number of heads that fit. -/
def constList (x : Nat) : Nat → Nat → Checked (List Const)
  | 0, p => do
    must (restZero x 1 p) 3 p
    pure []
  | n + 1, p =>
    if secEnd x 1 < p + 16 ∨ fb x p 16 = 0 then do
      must (restZero x 1 p) 3 p
      pure []
    else do
      let c ← constAt x p
      let rest ← constList x n (p + 16 + (fb x (p + 12) 4 + 63) / 64 * 64)
      must (!rest.any (fun r => r.kind == c.kind && r.owner == c.owner && overlap r.dest r.units c.dest c.units)) 3 (p + 4)
      pure (c :: rest)

def checkConstants (x : Nat) : Checked (List Const) := do
  must (decide (16 ≤ secLen x 1)) 3 (secOff x 1)
  constList x (secLen x 1 / 16) (secOff x 1)

/-- A unit of a constants record as it lies in the image. -/
def Const.unit (c : Const) (x k : Nat) : Nat := fb x (c.start + constUnit c.kind * k) (constUnit c.kind)

/-- Units that constants give a destination: kind, owner, index, value and the byte it lies at. -/
def constUnits (cs : List Const) (x kind : Nat) : List (Nat × Nat × Nat × Nat) :=
  (cs.filter (fun c => c.kind == kind)).flatMap (fun c =>
    (List.range c.units).map (fun k => (c.owner, c.dest + k, c.unit x k, c.start + constUnit kind * k)))

/-- The fields of a relocation or patch entry at p (R259). -/
structure Entry where
  target : Nat
  tile : TileId
  lsb : Nat
  width : Nat
  offset : Nat
  index : Nat
  start : Nat
deriving DecidableEq, Repr

/-- An entry and its target (R259). A patch entry may name the key-set list (R262); R259 gives no code for it, the model takes the next one,
0x5 (DESIGN CHOICE, log 76). -/
def entryAt (x limit p : Nat) (patch : Bool) : Checked Entry := do
  let target := fb x p 1
  let tile := fb x (p + 1) 1
  let lsb := fb x (p + 2) 1
  let width := fb x (p + 3) 1
  let off := fb x (p + 4) 4
  must (decide (target ≤ 4) || (patch && target == 5)) 3 p
  must (if 4 ≤ target then tile == 0 else decide (tile < 64) && (imgMask x).getLsbD tile) 3 (p + 1)
  must (decide (lsb ≤ 63)) 3 (p + 2)
  must (width != 0 && decide (width ≤ 64 - lsb)) 3 (p + 3)
  must (match target with
    | 0 => decide (off + 8 ≤ 262144)
    | 1 => decide (off + 8 ≤ 65536)
    | 2 => decide (off + 8 ≤ 2048)
    | 3 => rowPowered (imgSegments x (BitVec.ofNat 6 tile)) (off / 576) && rowPowered (imgSegments x (BitVec.ofNat 6 tile)) ((off + 7) / 576)
    | 4 => decide (off + 8 ≤ secLen x 7)
    | _ => decide (off + 8 ≤ 256)) 3 (p + 4)
  must (decide (fb x (p + 8) 1 < limit)) 3 (p + 8)
  must (fb x (p + 9) 7 == 0) 3 (p + 9)
  pure { target := target, tile := BitVec.ofNat 6 tile, lsb := lsb, width := width, offset := off, index := fb x (p + 8) 1, start := p }

def entryList (x limit : Nat) (patch : Bool) : Nat → Nat → Checked (List Entry)
  | 0, _ => pure []
  | n + 1, p => do
    let e ← entryAt x limit p patch
    let rest ← entryList x limit patch n (p + 16)
    pure (e :: rest)

/-- The relocation table (R258, R259). -/
def checkRelocs (x : Nat) : Checked (List Entry) := do
  if secLen x 2 = 0 then pure []
  else
    let p := secOff x 2
    let n := relRegions x
    must (decide (16 + 8 * n + 16 * relEntries x ≤ secLen x 2) && decide (n ≤ 64) && fb x (p + 2) 2 == 0 && fb x (p + 8) 8 == 0) 3 p
    mustAll (List.range n) (fun r =>
      let q := regionAt x r
      must ((fb x q 1 == 2 || fb x q 1 == 3) && fb x (q + 1) 3 == 0 && regionLen x r != 0) 3 q)
    must (restZero x 2 (p + 16 + 8 * n + 16 * relEntries x)) 3 p
    entryList x n false (relEntries x) (p + 16 + 8 * n)

/-- The patch table (R258, R259). -/
def checkPatches (x : Nat) : Checked (List Entry) := do
  if secLen x 3 = 0 then pure []
  else
    let p := secOff x 3
    must (decide (16 + 16 * patchEntries x ≤ secLen x 3) && decide (patchParams x ≤ 256) && fb x (p + 2) 2 == 0 && fb x (p + 8) 8 == 0) 3 p
    must (restZero x 3 (p + 16 + 16 * patchEntries x)) 3 p
    entryList x (patchParams x) true (patchEntries x) (p + 16)

/-- Rows of a ring at S = 32, the smallest (R182, R184). -/
def ringRows (d : BitVec 256) : Nat := stSlots d * 72

/-- Ranges and reserved fields of a stream descriptor, and one quarter for its ring (R183, R184). -/
def streamOk (d : BitVec 256) : Bool :=
  decide (1 ≤ stKind d) && decide (stKind d ≤ 3) && field d.toNat 19 5 == 0 && field d.toNat 50 14 == 0 && decide (stEntryCount d ≤ 64) &&
  decide (stEntryFirst d ≤ 63) && decide (stEntryFirst d + stEntryCount d ≤ 64) && decide (3 ≤ stSlots d) && decide (stSlots d ≤ 8) &&
  field d.toNat 76 4 == 0 && field d.toNat 86 2 == 0 && decide (stSpecialFirst d ≤ 31) && stBase d % 8 == 0 && field d.toNat 111 1 == 0 &&
  decide (stSpecialFirst d + stSpecialCount d ≤ 32) && field d.toNat 120 8 == 0 && field d.toNat 152 8 == 0 && stPeriod d != 0 &&
  field d.toNat 184 72 == 0 &&
  (if stSpecial d then true else stSpecialFirst d == 0 && stSpecialCount d == 0 && stEntryCount d != 0) &&
  quarterOf (stBase d) == quarterOf (stBase d + ringRows d - 1)

/-- Check 3 (R256 to R259, R184). -/
def check3 (x : Nat) : Checked (List TileProg × List Const × List Entry × List Entry) := do
  let progs ← tileProgs x (imgTiles x) (secOff x 0)
  mustAll allTiles (fun t => must ((imgMask x).getLsbD t.toNat || imgSegments x t == 0) 3 (secOff x 8 + t.toNat))
  let relocs ← checkRelocs x
  let patches ← checkPatches x
  let consts ← checkConstants x
  mustAll (constUnits consts x 3) (fun u =>
    let d := BitVec.ofNat 256 u.2.2.1
    must ((List.range (ringRows d)).all (fun k => rowPowered (imgSegments x (BitVec.ofNat 6 u.1)) (stBase d + k))) 3 u.2.2.2)
  pure (progs, consts, relocs, patches)

/-- Check 4 (R160, R182 to R184). -/
def check4 (x : Nat) (consts : List Const) : Checked Unit := do
  mustAll (constUnits consts x 2) (fun u =>
    let d := BitVec.ofNat 512 u.2.2.1
    must (descCodesOk d && descCountsOk d && descScatterOk d) 4 u.2.2.2)
  mustAll (constUnits consts x 3) (fun u => must (streamOk (BitVec.ofNat 256 u.2.2.1)) 4 u.2.2.2)

/-- An owner table of the image (R261). -/
structure OwnerDecl where
  table : OwnerTable
  mask : BitVec 64
deriving DecidableEq, Repr

/-- The owner tables from p on (R158, R261). -/
def ownerList (x : Nat) : Nat → Nat → Checked (List OwnerDecl)
  | 0, p => do
    must (restZero x 4 p) 5 p
    pure []
  | n + 1, p => do
    let blocks := fb x (p + 2) 2
    must (decide (p + 16 + 4 * blocks ≤ secEnd x 4) && decide (fb x p 1 < 64) && decide (fb x (p + 1) 1 ≤ 10) && fb x (p + 12) 4 == 0) 5 p
    must (fb x (p + 4) 8 &&& fb x 16 8 == fb x (p + 4) 8) 5 (p + 4)
    let entries := (List.range blocks).map (fun k => fb x (p + 16 + 4 * k) 4)
    mustAll (entries.zipIdx) (fun e => must (decide (e.1 < 2 ^ 22)) 5 (p + 16 + 4 * e.2))
    let rest ← ownerList x n (p + 16 + (4 * blocks + 15) / 16 * 16)
    must (!rest.any (fun r => r.table.id.toNat == fb x p 1)) 5 p
    pure ({ table := { id := BitVec.ofNat 8 (fb x p 1), log2Blk := BitVec.ofNat 8 (fb x (p + 1) 1), entries := entries.map (BitVec.ofNat 32) }
            mask := BitVec.ofNat 64 (fb x (p + 4) 8) } :: rest)

/-- Owner tables of a tile. -/
def ownersOf (os : List OwnerDecl) (t : TileId) : List OwnerTable := (os.filter (fun o => o.mask.getLsbD t.toNat)).map (·.table)

/-- Check 5 (R158, R261). -/
def check5 (x : Nat) : Checked (List OwnerDecl) := do
  if secLen x 4 = 0 then pure []
  else
    let p := secOff x 4
    must (decide (16 ≤ secLen x 4) && decide (fb x p 2 ≤ 64) && fb x (p + 2) 14 == 0) 5 p
    let os ← ownerList x (fb x p 2) (p + 16)
    must (allTiles.all (fun t => decide (((ownersOf os t).map (·.entries.length)).sum ≤ 4096))) 5 p
    pure os

/-- The key-set list's 256 bytes as stored, and the KEYSET_IDs of such a list (R262). -/
def keysetBytes (x : Nat) : Nat := fb x (secOff x 5) 256
def keysetIds (list : Nat) : List Word := (List.range 64).map (fun k => BitVec.ofNat 32 (fb list (4 * k) 4))

/-- Stage entries of stage s (R262). -/
def mapEntries (x s : Nat) : List StageEntry :=
  ((mapStageMembers x s).zipIdx).map (fun m =>
    let p := mapStageAt x s + 16 + 8 * m.2
    { tile := m.1, entry := fb x p 2, refs := (List.range 4).map (fun k => BitVec.ofNat 8 (fb x (p + 2 + k) 1)) })

/-- A key-set reference: none, or an entry of the list that is not 0 (R262, R264). -/
def refNames (x r : Nat) : Bool := r == 0xFF || (decide (r < 64) && fb x (secOff x 5 + 4 * r) 4 != 0)

/-- Check 6 (R27, R234, R262). -/
def check6 (x : Nat) : Checked Unit := do
  let p := secOff x 5
  must (decide (320 ≤ secLen x 5)) 6 p
  mustAll allTiles (fun t =>
    let g := mapGroup x t
    must (g == 0xFF || (decide (g < 16) && (imgMask x).getLsbD t.toNat && (mapMembers x g).all (fun u => dieOf u == dieOf t)))
      6 (p + 256 + t.toNat))
  mustAll (List.range (imgStages x)) (fun s => do
    let q := mapStageAt x s
    let ms := mapStageMembers x s
    must (decide (q + 16 + 8 * ms.length ≤ secEnd x 5) && fb x q 1 == s && !ms.isEmpty && fb x (q + 2) 14 == 0) 6 q
    mustAll (List.range ms.length) (fun k =>
      let e := q + 16 + 8 * k
      must (decide (fb x e 2 < 16384) && (List.range 4).all (fun j => refNames x (fb x (e + 2 + j) 1)) && fb x (e + 6) 2 == 0) 6 e))
  must (restZero x 5 (mapStageAt x (imgStages x))) 6 (mapStageAt x (imgStages x))

/- The halo declaration, as a byte string of its own (R263). -/

def haloPeriod (h : Nat) : Nat := fb h 0 4
def haloSkip (h : Nat) : Bool := fb h 4 1 == 1
def haloGroups (h : Nat) : Nat := fb h 5 1

/-- Group record k. -/
def haloGroup (h k : Nat) : GroupRec :=
  let p := 16 + 80 * k
  { group := BitVec.ofNat 4 (fb h p 1), priority := BitVec.ofNat 4 (fb h (p + 1) 1), waitLimit := fb h (p + 2) 3
    rota := (List.range (fb h (p + 5) 1)).map (fun j => BitVec.ofNat 8 (fb h (p + 16 + j) 1)) }

/-- Where stage record s begins. -/
def haloStageAt (h : Nat) : Nat → Nat
  | 0 => 16 + 80 * haloGroups h
  | s + 1 => let p := haloStageAt h s; p + 16 + 8 * fb h (p + 8) 1

def haloOutputs (h s : Nat) : List (BitVec 64) :=
  let p := haloStageAt h s
  (List.range (fb h (p + 8) 1)).map (fun j => BitVec.ofNat 64 (fb h (p + 16 + 8 * j) 8))

/-- Position of the latest earlier stage of a rota, cyclically, IDLE entries passed over (R232). -/
def earlierStage (rota : List Byte) (t : Nat) : Nat :=
  let n := rota.length
  match (List.range n).find? (fun k => rota.getD ((t + n - 1 - k) % n) 0xFF != 0xFF) with
  | some k => (rota.getD ((t + n - 1 - k) % n) 0xFF).toNat
  | none => 0xFF

/-- Context installs of a group in the drain of rota position t, under key sets `ks` (R232). -/
def installsAt (x : Nat) (ks : List Word) (g : GroupRec) (t : Nat) : Nat :=
  let now := (g.rota.getD t 0xFF).toNat
  if now = 0xFF then 0
  else
    let before := earlierStage g.rota t
    let old := mapEntries x before
    ((mapEntries x now).map (fun e =>
      let was := match old.find? (fun o => o.tile == e.tile) with | some o => o.refs | none => []
      (List.range 4).countP (fun m =>
        let r := (e.refs.getD m 0xFF).toNat
        let b := (was.getD m 0xFF).toNat
        r != 0xFF && (b == 0xFF || ks.getD r 0 != ks.getD b 0)))).sum

/-- At most 16 context installs on one compute die in any drain but the first (R232). -/
def installsOk (x : Nat) (ks : List Word) (gs : List GroupRec) : Bool :=
  (List.range 4).all (fun die =>
    let mine := gs.filter (fun g => (mapMembers x g.group.toNat).any (fun t => (dieOf t).toNat == die))
    let table := mine.map (fun g => (List.range g.rota.length).map (installsAt x ks g))
    let L := lcmAll (table.map (·.length))
    if L ≤ 4096 then (List.range L).all (fun t => decide ((table.map (fun v => v.getD (t % max v.length 1) 0)).sum ≤ 16))
    else decide ((table.map (fun v => v.foldl max 0)).sum ≤ 16))

/-- Check 7 on a halo declaration `h` of `len` bytes under key sets `ks` (R224, R227, R232, R236, R263, R46). `check` is 7, or 8 for the
declaration as relocated and patched (R260); `at_` is where the section lies. -/
def checkHalo (x : Nat) (ks : List Word) (h len check at_ : Nat) : Checked Unit := do
  let bad := fun (ok : Bool) (p : Nat) => must ok check (at_ + p)
  bad (decide (16 ≤ len)) 0
  let P := haloPeriod h
  bad (decide (40000 ≤ P) && decide (P ≤ 40000000) && P % 8000 == 0) 0
  bad (decide (fb h 4 1 ≤ 1) && !(haloSkip h && imgPoisonHalt x)) 4
  let gs := (List.range 16).filter (fun g => !(mapMembers x g).isEmpty)
  bad (haloGroups h == gs.length && haloGroups h != 0) 5
  bad (fb h 6 1 == imgStages x) 6
  bad (fb h 7 9 == 0) 7
  mustAll (gs.zipIdx) (fun g => do
    let p := 16 + 80 * g.2
    let n := fb h (p + 5) 1
    bad (decide (p + 80 ≤ len) && fb h p 1 == g.1) p
    bad (decide (fb h (p + 1) 1 ≤ 15)) (p + 1)
    bad (n != 0 && decide (n ≤ 64)) (p + 5)
    bad (fb h (p + 6) 10 == 0) (p + 6)
    bad ((List.range 64).all (fun j =>
      let s := fb h (p + 16 + j) 1
      if n ≤ j then s == 0 else s == 0xFF || (decide (s < imgStages x) && mapStageGroup x s == g.1))) (p + 16))
  mustAll (List.range (imgStages x)) (fun s => do
    let p := haloStageAt h s
    let plan := fb h p 4
    let n := fb h (p + 8) 1
    bad (decide (p + 16 + 8 * n ≤ len) && decide (1 ≤ plan) && plan + fb h (p + 4) 4 == P - 2048) p
    bad (decide (n ≤ 64)) (p + 8)
    bad (fb h (p + 9) 1 == s && fb h (p + 10) 6 == 0) (p + 9)
    bad ((haloOutputs h s).all (fun r => refOk r && (refSpace r == 1 || refSpace r == 2))) (p + 16))
  let last := haloStageAt h (imgStages x)
  bad (decide (last ≤ len) && fb h last (len - last) == 0) last
  bad (installsOk x ks ((List.range (haloGroups h)).map (haloGroup h))) 16

end Sys2Proof.Machine
end

