-- ==== Sys2Proof/Machine/Vector.lean ====
section
/-! DEFINITION. The V slot: the Modular Vector Engine (03 R57 to R72, 12 R278 to R285). -/

namespace Sys2Proof.Machine

/- Bits of MVE_FLAGS (R71). -/
def mveEmpty : Word := 0x01
def mveInvalid : Word := 0x02
def mveOverflow : Word := 0x04
def mveUnderflow : Word := 0x08
def mveCvtSat : Word := 0x10
def mveEmptyGroup (g : Nat) : Word := BitVec.ofNat 32 (2 ^ (8 + g))

/-- The flags of an FP32 result (R62). -/
def mveFp (o : FpOut) : Word :=
  flagIf o.invalid mveInvalid ||| flagIf o.overflow mveOverflow ||| flagIf o.underflow mveUnderflow

/-- The lanes a result writes: all under MASK 0 or Z = 1, else those of the mask register (R59). -/
def writeMask (t : Tile) (mask : BitVec 3) (z : Bool) : BitVec 1024 :=
  if z || mask == 0 then BitVec.allOnes 1024 else t.kreg mask

/-- The vector whose active lane j is `f j` and whose inactive lanes are 0. -/
def maskedVec (t : Tile) (mask : BitVec 3) (f : Nat → Residue) : Vec :=
  mkVec (fun j => if active t.k mask j then f j else 0)

def maskedBits (t : Tile) (mask : BitVec 3) (f : Nat → Bool) : BitVec 1024 :=
  mkMask (fun j => active t.k mask j && f j)

/-- The checks before an entry's own: reserved bits, then the hazard detector (R274, R308). -/
def openSlot (ctx : IssueCtx) (t : Tile) (w unused : BitVec 26) (srcs : List RegName) : Except IssueStop Unit := do
  reservedZero w unused
  hazardFree ctx t srcs

/-- A modular lane operation: reserved bits, the prime selector, then the lanes (R58, R61). `f q j` is lane j under prime q. -/
def issueMod (ctx : IssueCtx) (w unused : BitVec 26) (srcs : List RegName) (latency : Nat) (f : Nat → Nat → Nat) (t : Tile) : Issue := do
  openSlot ctx t w unused (srcs ++ [.s (vSE w)] ++ maskSrc (vMask w))
  need (selOk t (vMctx w) (vSE w) (vGS w) (vMask w)) .operandRange
  pure (t.launch ctx latency
    [.v (vD w) (maskedVec t (vMask w) (fun j => res (f (selPrime t (vMctx w) (vSE w) (vGS w) (j / 128)) j))) (writeMask t (vMask w) (vZ w))])

/-- An FP32 lane operation (R62). The bits of MVE_FLAGS rise with the write of the result: R71 does not say when (DESIGN CHOICE, log 88). -/
def issueFp (ctx : IssueCtx) (w : BitVec 26) (srcs : List RegName) (f : Nat → FpOut) (t : Tile) : Issue := do
  openSlot ctx t w 0x7F (srcs ++ maskSrc (vMask w))
  pure (t.launch ctx 5
    [.v (vD w) (maskedVec t (vMask w) (fun j => res (f j).bits)) (writeMask t (vMask w) (vZ w)),
     .mve ((List.range 1024).foldl (fun fl j => if active t.k (vMask w) j then fl ||| mveFp (f j) else fl) 0)])

def abRegs (w : BitVec 26) : List RegName := [.v (vA w), .v (vB w)]
def laneA (t : Tile) (w : BitVec 26) (j : Nat) : Nat := (lane (t.vreg (vA w)) j).toNat
def laneB (t : Tile) (w : BitVec 26) (j : Nat) : Nat := (lane (t.vreg (vB w)) j).toNat
def laneD (t : Tile) (w : BitVec 26) (j : Nat) : Nat := (lane (t.vreg (vD w)) j).toNat
/-- Bits [31:0] of a lane (R62). -/
def fpA (t : Tile) (w : BitVec 26) (j : Nat) : Nat := laneA t w j % 2 ^ 32
def fpB (t : Tile) (w : BitVec 26) (j : Nat) : Nat := laneB t w j % 2 ^ 32
def fpD (t : Tile) (w : BitVec 26) (j : Nat) : Nat := laneD t w j % 2 ^ 32
/-- Bits [35:0] of S[SS] (R61). -/
def scalar36 (t : Tile) (w : BitVec 26) : Nat := field (t.sreg (vSS w)).toNat 0 36

def issueVadd (ctx : IssueCtx) (w : BitVec 26) (t : Tile) : Issue :=
  issueMod ctx w 0 (abRegs w) 8 (fun q j => (laneA t w j + laneB t w j) % q) t
def issueVsub (ctx : IssueCtx) (w : BitVec 26) (t : Tile) : Issue :=
  issueMod ctx w 0 (abRegs w) 8 (fun q j => (laneA t w j + q * 2 ^ 36 - laneB t w j) % q) t
def issueVneg (ctx : IssueCtx) (w : BitVec 26) (t : Tile) : Issue :=
  issueMod ctx w 0xF800 [.v (vA w)] 8 (fun q j => (q * 2 ^ 36 - laneA t w j) % q) t
def issueVmul (ctx : IssueCtx) (w : BitVec 26) (t : Tile) : Issue :=
  issueMod ctx w 0 (abRegs w) 8 (fun q j => laneA t w j * laneB t w j % q) t
def issueVmuls (ctx : IssueCtx) (w : BitVec 26) (t : Tile) : Issue :=
  issueMod ctx w 0x800 [.v (vA w), .s (vSS w)] 8 (fun q j => laneA t w j * scalar36 t w % q) t
def issueVmad (ctx : IssueCtx) (w : BitVec 26) (t : Tile) : Issue :=
  issueMod ctx w 0 (abRegs w ++ [.v (vD w)]) 8 (fun q j => (laneA t w j * laneB t w j + laneD t w j) % q) t
def issueVmsb (ctx : IssueCtx) (w : BitVec 26) (t : Tile) : Issue :=
  issueMod ctx w 0 (abRegs w ++ [.v (vD w)]) 8 (fun q j => (laneA t w j * laneB t w j + q * 2 ^ 36 - laneD t w j) % q) t
def issueVmod (ctx : IssueCtx) (w : BitVec 26) (t : Tile) : Issue :=
  issueMod ctx w 0xF800 [.v (vA w)] 8 (fun q j => laneA t w j % q) t
def issueVmin (ctx : IssueCtx) (w : BitVec 26) (t : Tile) : Issue :=
  issueMod ctx w 0 (abRegs w) 9 (fun q j => min (laneA t w j % q) (laneB t w j % q)) t
def issueVmax (ctx : IssueCtx) (w : BitVec 26) (t : Tile) : Issue :=
  issueMod ctx w 0 (abRegs w) 9 (fun q j => max (laneA t w j % q) (laneB t w j % q)) t

/-- COND of R278 on two naturals. -/
def condNat (c : BitVec 2) (x y : Nat) : Bool :=
  if c = 0 then x == y else if c = 1 then x != y else if c = 2 then decide (x < y) else decide (y ≤ x)

/-- COND on FP32 values: with a NaN, NE holds and nothing else (R279). -/
def condFp (c : BitVec 2) (x y : Fp) : Bool :=
  if c = 0 then x.eq y else if c = 1 then !x.eq y else if c = 2 then x.lt y
  else !x.isNan && !y.isNan && !x.lt y

/-- VCMP: canonical values compared into a mask register (R61, R279). -/
def issueVcmp (ctx : IssueCtx) (w : BitVec 26) (t : Tile) : Issue := do
  openSlot ctx t w 0 (abRegs w ++ [.s (vSE w)] ++ maskSrc (vMask w))
  need (selOk t (vMctx w) (vSE w) (vGS w) (vMask w)) .operandRange
  pure (t.launch ctx 9 [.k (vKD w) (maskedBits t (vMask w) (fun j =>
    let q := selPrime t (vMctx w) (vSE w) (vGS w) (j / 128)
    condNat (vCond w) (laneA t w j % q) (laneB t w j % q))) (writeMask t (vMask w) (vZ w))])

/-- FCMP (R279). -/
def issueFcmp (ctx : IssueCtx) (w : BitVec 26) (t : Tile) : Issue := do
  openSlot ctx t w 0x7F (abRegs w ++ maskSrc (vMask w))
  pure (t.launch ctx 9 [.k (vKD w) (maskedBits t (vMask w) (fun j =>
    condFp (vCond w) (fp32.decode (fpA t w j)) (fp32.decode (fpB t w j)))) (writeMask t (vMask w) (vZ w))])

/-- VSEL (R281). -/
def issueVsel (ctx : IssueCtx) (w : BitVec 26) (t : Tile) : Issue := do
  openSlot ctx t w 0xFF (abRegs w ++ maskSrc (vMask w))
  pure (t.launch ctx 2 [.v (vD w) (mkVec (fun j => if active t.k (vMask w) j then lane (t.vreg (vA w)) j else lane (t.vreg (vB w)) j))
    (BitVec.allOnes 1024)])

/-- A copy of bits, without reduction (R61). -/
def issueCopy (ctx : IssueCtx) (w unused : BitVec 26) (srcs : List RegName) (f : Nat → Residue) (t : Tile) : Issue := do
  openSlot ctx t w unused (srcs ++ maskSrc (vMask w))
  pure (t.launch ctx 2 [.v (vD w) (maskedVec t (vMask w) f) (writeMask t (vMask w) (vZ w))])

def issueVmov (ctx : IssueCtx) (w : BitVec 26) (t : Tile) : Issue :=
  issueCopy ctx w 0xF87F [.v (vA w)] (fun j => lane (t.vreg (vA w)) j) t
def issueVbcast (ctx : IssueCtx) (w : BitVec 26) (t : Tile) : Issue :=
  issueCopy ctx w 0x1F087F [.s (vSS w)] (fun _ => res (scalar36 t w)) t

/-- VPERM: an index above 1,023 on an active lane halts in the next cycle, and VD is not written (R282). -/
def issueVperm (ctx : IssueCtx) (w : BitVec 26) (t : Tile) : Issue := do
  openSlot ctx t w 0x7F (abRegs w ++ maskSrc (vMask w))
  if (List.range 1024).any (fun j => active t.k (vMask w) j && decide (laneB t w j > 1023)) then
    pure { t with dueHalts := t.dueHalts ++ [{ due := ctx.pipe + 1, seq := t.seq, reason := .operandRange, bundle := ctx.bundle, slot := .v }] }
  else
    pure (t.launch ctx 2 [.v (vD w) (maskedVec t (vMask w) (fun j => lane (t.vreg (vA w)) (laneB t w j)))
      (writeMask t (vMask w) (vZ w))])

/-- Mask logic under MASK and Z (R279, R283). -/
def issueMask (ctx : IssueCtx) (w unused : BitVec 26) (srcs : List RegName) (f : Nat → Bool) (t : Tile) : Issue := do
  openSlot ctx t w unused (srcs ++ maskSrc (vMask w))
  pure (t.launch ctx 1 [.k (vKD w) (maskedBits t (vMask w) f) (writeMask t (vMask w) (vZ w))])

def kaBit (t : Tile) (w : BitVec 26) (j : Nat) : Bool := (t.kreg (vKA w)).getLsbD j
def kbBit (t : Tile) (w : BitVec 26) (j : Nat) : Bool := (t.kreg (vKB w)).getLsbD j

def issueKand (ctx : IssueCtx) (w : BitVec 26) (t : Tile) : Issue :=
  issueMask ctx w 0x318C07F [.k (vKA w), .k (vKB w)] (fun j => kaBit t w j && kbBit t w j) t
def issueKor (ctx : IssueCtx) (w : BitVec 26) (t : Tile) : Issue :=
  issueMask ctx w 0x318C07F [.k (vKA w), .k (vKB w)] (fun j => kaBit t w j || kbBit t w j) t
def issueKxor (ctx : IssueCtx) (w : BitVec 26) (t : Tile) : Issue :=
  issueMask ctx w 0x318C07F [.k (vKA w), .k (vKB w)] (fun j => kaBit t w j != kbBit t w j) t
def issueKnot (ctx : IssueCtx) (w : BitVec 26) (t : Tile) : Issue :=
  issueMask ctx w 0x318F87F [.k (vKA w)] (fun j => !kaBit t w j) t
def issueKset (ctx : IssueCtx) (w : BitVec 26) (t : Tile) : Issue :=
  issueMask ctx w 0x31F087F [.s (vSS w)] (fun j => (t.sreg (vSS w)).getLsbD (j % 64)) t

/-- KTAIL: n above 1,024 halts (R283). -/
def issueKtail (ctx : IssueCtx) (w : BitVec 26) (t : Tile) : Issue := do
  openSlot ctx t w 0x31F087F (.s (vSS w) :: maskSrc (vMask w))
  need (decide (field (t.sreg (vSS w)).toNat 0 11 ≤ 1024)) .operandRange
  pure (t.launch ctx 1 [.k (vKD w) (maskedBits t (vMask w) (fun j => decide (j < field (t.sreg (vSS w)).toNat 0 11)))
    (writeMask t (vMask w) (vZ w))])

def issueFadd (ctx : IssueCtx) (w : BitVec 26) (t : Tile) : Issue :=
  issueFp ctx w (abRegs w) (fun j => fAdd (fpA t w j) (fpB t w j)) t
def issueFsub (ctx : IssueCtx) (w : BitVec 26) (t : Tile) : Issue :=
  issueFp ctx w (abRegs w) (fun j => fSub (fpA t w j) (fpB t w j)) t
def issueFmul (ctx : IssueCtx) (w : BitVec 26) (t : Tile) : Issue :=
  issueFp ctx w (abRegs w) (fun j => fMul (fpA t w j) (fpB t w j)) t
def issueFma (ctx : IssueCtx) (w : BitVec 26) (t : Tile) : Issue :=
  issueFp ctx w (abRegs w ++ [.v (vD w)]) (fun j => fFma (fpA t w j) (fpB t w j) (fpD t w j)) t
def issueFmin (ctx : IssueCtx) (w : BitVec 26) (t : Tile) : Issue :=
  issueFp ctx w (abRegs w) (fun j => fMin (fpA t w j) (fpB t w j)) t
def issueFmax (ctx : IssueCtx) (w : BitVec 26) (t : Tile) : Issue :=
  issueFp ctx w (abRegs w) (fun j => fMax (fpA t w j) (fpB t w j)) t

/-- The FP32 of the centred value of a residue (R63). -/
def centredFp (q x : Nat) : FpOut :=
  let r := x % q
  if r ≤ (q - 1) / 2 then fp32.round false r 0 else fp32.round true (q - r) 0

/-- The residue of an FP32 value, with the flags it raises (R63). -/
def residueOfFp (q : Nat) (x : Fp) : Nat × Word :=
  let lim : Int := ((q - 1) / 2 : Nat)
  match x with
  | .nan => (0, mveInvalid)
  | .inf neg => (((if neg then -lim else lim) % (q : Int)).toNat, mveCvtSat)
  | .num neg m e =>
    let v := nearestInt neg m e
    let c := if v > lim then lim else if v < -lim then -lim else v
    ((c % (q : Int)).toNat, flagIf (c ≠ v) mveCvtSat)

def issueCvtrf (ctx : IssueCtx) (w : BitVec 26) (t : Tile) : Issue :=
  issueMod ctx w 0xF800 [.v (vA w)] 10 (fun q j => (centredFp q (laneA t w j)).bits) t

/-- CVTFR (R63). -/
def issueCvtfr (ctx : IssueCtx) (w : BitVec 26) (t : Tile) : Issue := do
  openSlot ctx t w 0xF800 ([.v (vA w), .s (vSE w)] ++ maskSrc (vMask w))
  need (selOk t (vMctx w) (vSE w) (vGS w) (vMask w)) .operandRange
  let f := fun j => residueOfFp (selPrime t (vMctx w) (vSE w) (vGS w) (j / 128)) (fp32.decode (fpA t w j))
  pure (t.launch ctx 10
    [.v (vD w) (maskedVec t (vMask w) (fun j => res (f j).1)) (writeMask t (vMask w) (vZ w)),
     .mve ((List.range 1024).foldl (fun fl j => if active t.k (vMask w) j then fl ||| (f j).2 else fl) 0)])

/-- The eight rows of a vector load or store (R284). -/
def vmRows (t : Tile) (w : BitVec 26) : List Nat :=
  (List.range 8).map (fun k => (t.areg (vAR w)).toNat + k * (vStride w).toNat)

/-- VLD (R284). -/
def issueVld (ctx : IssueCtx) (w : BitVec 26) (t : Tile) : Issue := do
  openSlot ctx t w (if vPwen w then 0x7F else 0x307F) (.a (vAR w) :: maskSrc (vMask w))
  need ((vStride w).getLsbD 0) .operandRange
  need (eightRowGroup (vmRows t w)) .operandRange
  let row := fun g => (t.areg (vAR w)).toNat + g * (vStride w).toNat
  let win := t.pads[(vPW w).toNat]
  let padded := fun g => vPwen w && win.pads (row g)
  let rows := (List.range 8).filterMap (fun g => if groupActive t.k (vMask w) g && !padded g then some (row g) else none)
  needRows t rows
  need (slotsFree t ctx.pipe rows []) .operandRange
  needFull t rows
  let t1 ← claim ctx rows [] t
  let data := (List.range 8).map (fun g =>
    if padded g then none else if groupActive t.k (vMask w) g then some (t.fetchRow (row g)).seen else some 0)
  let padVal := if win.scalar then win.value else 0
  let x := maskedVec t (vMask w) (fun j => match data.getD (j / 128) none with | some d => lane128 d (j % 128) | none => padVal)
  pure ((t1.request ctx .v .vector rows).launch ctx 8 [.v (vD w) x (writeMask t (vMask w) (vZ w))])

/-- VST (R284): the rows are written in the banks in cycle i + 1 (R132). -/
def issueVst (ctx : IssueCtx) (w : BitVec 26) (t : Tile) : Issue := do
  openSlot ctx t w 0x38FF ([.a (vAR w), .v (vD w)] ++ maskSrc (vMask w))
  need ((vStride w).getLsbD 0) .operandRange
  need (eightRowGroup (vmRows t w)) .operandRange
  let row := fun g => (t.areg (vAR w)).toNat + g * (vStride w).toNat
  let groups := (List.range 8).filter (fun g => groupActive t.k (vMask w) g)
  let rows := groups.map row
  needRows t rows
  need (slotsFree t ctx.pipe [] rows) .operandRange
  needNoRing t rows
  let t1 ← claim ctx [] rows t
  pure (t1.launch ctx 2 (groups.map (fun g =>
    .row (row g) { data := sectorOf (fun i => lane (t.vreg (vD w)) (128 * g + i)) })))

/- Scans and trees (R64 to R68). A node is invalid, or holds a value and the flags its tree has raised. -/
abbrev Node := Option (Nat × Word)

/-- The combining operations (R64, R66). -/
inductive Combine
  | msum | mprod | mmin | mmax | fsum | fmin | fmax
deriving DecidableEq, Repr

def Combine.isFp : Combine → Bool
  | .fsum | .fmin | .fmax => true
  | _ => false

def Combine.apply (c : Combine) (q x y : Nat) : Nat × Word :=
  match c with
  | .msum => ((x + y) % q, 0)
  | .mprod => (x * y % q, 0)
  | .mmin => (min x y, 0)
  | .mmax => (max x y, 0)
  | .fsum => ((fAdd x y).bits, mveFp (fAdd x y))
  | .fmin => ((fMin x y).bits, mveFp (fMin x y))
  | .fmax => ((fMax x y).bits, mveFp (fMax x y))

def Combine.node (c : Combine) (q : Nat) : Node → Node → Node
  | none, b => b
  | a, none => a
  | some (x, f), some (y, g) => let r := c.apply q x y; some (r.1, f ||| g ||| r.2)

/-- The value of an active lane as it enters: reduced, or read under R62 (log 8). -/
def Combine.input (c : Combine) (q : Nat) (x : Residue) : Nat × Word :=
  if c.isFp then let o := fp32.encode (fp32.decode (x.toNat % 2 ^ 32)); (o.bits, mveFp o) else (x.toNat % q, 0)

/-- R68. -/
def Combine.identity (c : Combine) (q : Nat) : Nat :=
  match c with
  | .msum => 0
  | .mprod => 1
  | .mmin => q - 1
  | .mmax => 0
  | .fsum => 0
  | .fmax => 0xFF7FFFFF
  | .fmin => 0x7F7FFFFF

/-- For each lane, the nearest segment start at or below it (R65). -/
def segStarts (start : Nat → Bool) : List Nat :=
  ((List.range 1024).foldl (fun (acc : List Nat × Nat) i =>
    let s := if i = 0 || start i then i else acc.2
    (s :: acc.1, s)) ([], 0)).1.reverse

/-- One level of R64. -/
def scanLevel (c : Combine) (prime : Nat → Nat) (starts : List Nat) (k : Nat) (p : List Node) : List Node :=
  p.mapIdx (fun i x =>
    if i / 2 ^ k % 2 = 1 then
      let j := i / 2 ^ k * 2 ^ k - 1
      if starts.getD i 0 ≤ j then c.node (prime (i / 128)) (p.getD j none) x else x
    else x)

def scanAll (c : Combine) (prime : Nat → Nat) (starts : List Nat) (p : List Node) : List Node :=
  (List.range 10).foldl (fun acc k => scanLevel c prime starts k acc) p

/-- The nearest active lane below i that is not below s. -/
def prevActive (act : Nat → Bool) (s i : Nat) : Option Nat :=
  ((List.range (i - s)).map (fun d => i - 1 - d)).find? act

/-- A scan (R64, R65, R285). -/
def issueScan (ctx : IssueCtx) (w : BitVec 26) (c : Combine) (latency : Nat) (t : Tile) : Issue := do
  let segUnused : BitVec 26 := if vSegen w then 0 else 0x3800
  openSlot ctx t w (segUnused ||| if c.isFp then 0x3F else 0)
    ([.v (vA w)] ++ (if c.isFp then [] else [.s (vSE w)]) ++ (if vSegen w then [.k (vSegk w)] else []) ++ maskSrc (vMask w))
  need (c.isFp || selOk t (vMctx w) (vSE w) (vGS w) (vMask w)) .operandRange
  let prime := fun g => if c.isFp then 1 else selPrime t (vMctx w) (vSE w) (vGS w) g
  let act := active t.k (vMask w)
  let starts := segStarts (fun i => (vSegen w && (t.kreg (vSegk w)).getLsbD i) || (vGS w && i % 128 == 0))
  let p := scanAll c prime starts ((List.range 1024).map (fun j =>
    if act j then some (c.input (prime (j / 128)) (lane (t.vreg (vA w)) j)) else none))
  let value := fun j => match p.getD j none with | some x => x.1 | none => 0
  let out := fun j =>
    if vExcl w then (match prevActive act (starts.getD j 0) j with | some i => value i | none => c.identity (prime (j / 128)))
    else value j
  pure (t.launch ctx latency
    [.v (vD w) (maskedVec t (vMask w) (fun j => res (out j))) (writeMask t (vMask w) (vZ w)),
     .mve (p.foldl (fun fl n => match n with | some x => fl ||| x.2 | none => fl) 0)])

/-- One level of the tree: node 2n with node 2n + 1 (R66). -/
def treeLevel (c : Combine) (q : Nat) : List Node → List Node
  | a :: b :: r => c.node q a b :: treeLevel c q r
  | r => r

def treeAll (c : Combine) (q : Nat) : Nat → List Node → Node
  | 0, p => p.headD none
  | n + 1, p => treeAll c q n (treeLevel c q p)

/-- A reduction tree (R66 to R68, R285). -/
def issueTree (ctx : IssueCtx) (w : BitVec 26) (c : Combine) (latency : Nat) (t : Tile) : Issue := do
  let sdUnused : BitVec 26 := if vScp w then 0 else 0x7800
  openSlot ctx t w (sdUnused ||| 0x80 ||| if c.isFp then 0x3F else 0)
    ([.v (vA w)] ++ (if c.isFp then [] else [.s (vSE w)]) ++ maskSrc (vMask w))
  need (c.isFp || selOk t (vMctx w) (vSE w) (vGS w) (vMask w)) .operandRange
  let prime := fun g => if c.isFp then 1 else selPrime t (vMctx w) (vSE w) (vGS w) g
  let nodes := (List.range 1024).map (fun j =>
    if active t.k (vMask w) j then some (c.input (prime (j / 128)) (lane (t.vreg (vA w)) j)) else none)
  let groups := if vGS w then 8 else 1
  let results := (List.range groups).map (fun g =>
    if vGS w then treeAll c (prime g) 7 ((nodes.drop (128 * g)).take 128) else treeAll c (prime 0) 10 nodes)
  let value := fun g => match results.getD g none with
    | some x => x.1
    | none => if !c.isFp && prime g == 0 then 0 else c.identity (prime g)
  let flags := (results.mapIdx (fun g n => match n with
    | some x => x.2
    | none => mveEmpty ||| if vGS w then mveEmptyGroup g else 0)).foldl (· ||| ·) 0
  let out := mkVec (fun j => if j < groups then res (value j) else 0)
  pure (t.launch ctx latency
    ([.v (vD w) out (BitVec.allOnes 1024), .mve flags] ++
      if vScp w then [.s (vSD w) (BitVec.ofNat 64 (res (value 0)).toNat)] else []))

def issueVscanMsum (ctx : IssueCtx) (w : BitVec 26) (t : Tile) : Issue := issueScan ctx w .msum 16 t
def issueVscanMmin (ctx : IssueCtx) (w : BitVec 26) (t : Tile) : Issue := issueScan ctx w .mmin 16 t
def issueVscanMmax (ctx : IssueCtx) (w : BitVec 26) (t : Tile) : Issue := issueScan ctx w .mmax 16 t
def issueVscanFsum (ctx : IssueCtx) (w : BitVec 26) (t : Tile) : Issue := issueScan ctx w .fsum 26 t
def issueVscanFmin (ctx : IssueCtx) (w : BitVec 26) (t : Tile) : Issue := issueScan ctx w .fmin 16 t
def issueVscanFmax (ctx : IssueCtx) (w : BitVec 26) (t : Tile) : Issue := issueScan ctx w .fmax 16 t
def issueVtreeMsum (ctx : IssueCtx) (w : BitVec 26) (t : Tile) : Issue := issueTree ctx w .msum 14 t
def issueVtreeMprod (ctx : IssueCtx) (w : BitVec 26) (t : Tile) : Issue := issueTree ctx w .mprod 44 t
def issueVtreeMmin (ctx : IssueCtx) (w : BitVec 26) (t : Tile) : Issue := issueTree ctx w .mmin 14 t
def issueVtreeMmax (ctx : IssueCtx) (w : BitVec 26) (t : Tile) : Issue := issueTree ctx w .mmax 14 t
def issueVtreeFsum (ctx : IssueCtx) (w : BitVec 26) (t : Tile) : Issue := issueTree ctx w .fsum 22 t
def issueVtreeFmin (ctx : IssueCtx) (w : BitVec 26) (t : Tile) : Issue := issueTree ctx w .fmin 14 t
def issueVtreeFmax (ctx : IssueCtx) (w : BitVec 26) (t : Tile) : Issue := issueTree ctx w .fmax 14 t

end Sys2Proof.Machine
end

