-- ==== Sys2Proof/Machine/Bundle.lean ====
section
/-! DEFINITION. A bundle at issue (11 R266 to R268, 12 R273, R274): the opcode tables of the four slots, the slots in the order S, V, T, M, and the next address. -/

namespace Sys2Proof.Machine

/-- An issue function of a slot whose operands are bits [25:0]. -/
abbrev SlotIssue := IssueCtx → BitVec 26 → Tile → Issue

/-- NOP: every other bit of the slot is 0 (R273). -/
def issueNop (_ctx : IssueCtx) (w : BitVec 26) (t : Tile) : Issue := do
  reservedZero w 0x3FFFFFF
  pure t

/-- The V-slot opcodes (R279). -/
def vIssue (opc : Nat) : Option SlotIssue :=
  match opc with
  | 0x00 => some issueNop
  | 0x01 => some issueVadd
  | 0x02 => some issueVsub
  | 0x03 => some issueVneg
  | 0x04 => some issueVmul
  | 0x05 => some issueVmuls
  | 0x06 => some issueVmad
  | 0x07 => some issueVmsb
  | 0x08 => some issueVmod
  | 0x09 => some issueVcmp
  | 0x0A => some issueVmin
  | 0x0B => some issueVmax
  | 0x0C => some issueVsel
  | 0x0D => some issueVmov
  | 0x0E => some issueVbcast
  | 0x0F => some issueVperm
  | 0x10 => some issueKand
  | 0x11 => some issueKor
  | 0x12 => some issueKxor
  | 0x13 => some issueKnot
  | 0x14 => some issueKset
  | 0x15 => some issueKtail
  | 0x18 => some issueFadd
  | 0x19 => some issueFsub
  | 0x1A => some issueFmul
  | 0x1B => some issueFma
  | 0x1C => some issueFmin
  | 0x1D => some issueFmax
  | 0x1E => some issueFcmp
  | 0x20 => some issueCvtrf
  | 0x21 => some issueCvtfr
  | 0x24 => some issueVld
  | 0x25 => some issueVst
  | 0x28 => some issueVscanMsum
  | 0x29 => some issueVscanMmin
  | 0x2A => some issueVscanMmax
  | 0x2C => some issueVscanFsum
  | 0x2D => some issueVscanFmin
  | 0x2E => some issueVscanFmax
  | 0x30 => some issueVtreeMsum
  | 0x31 => some issueVtreeMprod
  | 0x32 => some issueVtreeMmin
  | 0x33 => some issueVtreeMmax
  | 0x34 => some issueVtreeFsum
  | 0x35 => some issueVtreeFmin
  | 0x36 => some issueVtreeFmax
  | _ => none

/-- HOP by its class (R292); class 0xF is reserved. -/
def hopClass (c : Nat) : Option HopClass :=
  match c with
  | 0x0 => some .addsub
  | 0x1 => some .mulcc
  | 0x2 => some .mulpt
  | 0x3 => some .relin
  | 0x4 => some .rotate
  | 0x5 => some .fntt
  | 0x6 => some .intt
  | 0x7 => some .transpose
  | 0x8 => some .rescale
  | 0x9 => some .mulrescale
  | 0xA => some .modswitch
  | 0xB => some .drop
  | 0xC => some .modraise
  | 0xD => some .ksext
  | 0xE => some .invalidate
  | _ => none

def issueHopAny (ctx : IssueCtx) (w : BitVec 26) (t : Tile) : Issue :=
  match hopClass (f4 w 22).toNat with
  | none => .error ⟨.reservedField, none⟩
  | some .invalidate => issueInvalidate ctx (w.extractLsb' 0 22) t
  | some c => issueHop c ctx (w.extractLsb' 0 22) t

/-- The S-slot opcodes but LOOP (R287). -/
def sIssue (opc : Nat) : Option SlotIssue :=
  match opc with
  | 0x00 => some issueNop
  | 0x01 => some issueWait
  | 0x02 => some issueDmaiss
  | 0x03 => some issuePwld
  | 0x04 => some issueFlagclr
  | 0x05 => some issueEndst
  | 0x08 => some issueSli
  | 0x09 => some issueSlis
  | 0x0A => some issueSaddi
  | 0x0B => some issueSalu
  | 0x0C => some issueCcld
  | 0x10 => some issueHld
  | 0x11 => some issueHst
  | 0x12 => some issueHopAny
  | 0x14 => some issueKarm
  | 0x15 => some issueKrel
  | 0x16 => some issueExpand
  | _ => none

/-- The T-slot opcodes (R297). -/
def tIssue (opc : Nat) : Option SlotIssue :=
  match opc with
  | 0x00 => some issueNop
  | 0x01 => some issueNtt
  | 0x02 => some issueIntt
  | 0x03 => some issueAuto
  | 0x04 => some issuePerm
  | 0x05 => some issueTxp
  | _ => none

/-- The M-slot opcodes (R300). -/
def mIssue (opc : Nat) : Option SlotIssue :=
  match opc with
  | 0x00 => some issueNop
  | 0x01 => some issueMma
  | 0x02 => some issueDsm
  | 0x03 => some issueMspill
  | 0x04 => some issueMresume
  | 0x05 => some issueMepi
  | 0x06 => some issueMchs
  | 0x07 => some issueMchr
  | _ => none

def slotOpc (w : Word) : Nat := (w.extractLsb' 26 6).toNat

/-- One slot of a bundle: opcode, then the instruction's checks and effect (R273, R274). -/
def issueSlot (sl : Slot) (ctx : IssueCtx) (w : Word) (t : Tile) : Issue :=
  if sl = .s ∧ w.extractLsb' 30 2 = 2 then issueLoop ctx (w.extractLsb' 0 30) t
  else
    match (match sl with
      | .s => sIssue (slotOpc w)
      | .v => vIssue (slotOpc w)
      | .t => tIssue (slotOpc w)
      | .m => mIssue (slotOpc w)) with
    | some f => f ctx (w.extractLsb' 0 26) t
    | none => .error ⟨.illegalOpcode, none⟩

/-- The slot of a bundle (R266). -/
def bundleSlot (b : BitVec 128) : Slot → Word
  | .s => b.extractLsb' 0 32
  | .v => b.extractLsb' 32 32
  | .t => b.extractLsb' 64 32
  | .m => b.extractLsb' 96 32

/-- A bundle memory word that no image wrote (R265). -/
def bundleDefault : Nat → BitVec 128 := fun _ => BitVec.allOnes 128

/-- An issue check that failed: its slot, the stop, and whether another condition arose in the same bundle (R269). -/
abbrev BundleStop := Slot × IssueStop × Bool

/-- The row requests that operations issued in this cycle make in it (R133, R187). -/
def firstFetch (ctx : IssueCtx) (t : Tile) : Except BundleStop Tile :=
  let t' := (t.fetchTu ctx).fetchNma ctx
  if t'.halted && !t.halted then .error (if t'.haltSlot = 2 then .t else .m, ⟨t'.haltReason, none⟩, t'.haltMore && !t.haltMore) else .ok t'

def issueFails (r : Issue) : Bool := match r with | .ok _ => false | .error _ => true

/-- Slots in order; a failure in any leaves none in effect, and MORE is due when a slot after it fails as well (R269, R274). -/
def issueSlots (ctx : IssueCtx) (b : BitVec 128) : List Slot → Tile → Except BundleStop Tile
  | [], t => firstFetch ctx t
  | sl :: rest, t =>
    match issueSlot sl ctx (bundleSlot b sl) t with
    | .ok t' => issueSlots ctx b rest t'
    | .error e => .error (sl, e, rest.any (fun s => issueFails (issueSlot s ctx (bundleSlot b s) t)))

/-- The loop levels that end at bundle a, from level n − 1 outward (R268). -/
def loopBack (a : Nat) : Nat → Tile → Tile × Nat
  | 0, t => (t, a + 1)
  | n + 1, t =>
    let lv := t.loops.toList.getD n {}
    if lv.active && lv.stop == a then
      let c := t.l.toList.getD n 0
      if 1 < c.toNat then ({ t with l := t.l.setIfInBounds n (c - 1) }, lv.start)
      else loopBack a n { t with l := t.l.setIfInBounds n 0, loops := t.loops.setIfInBounds n {} }
    else loopBack a n t

/-- After a bundle issues: the next address; 16,384 halts the tile in the next cycle (R267). -/
def Tile.advancePc (t : Tile) (ctx : IssueCtx) : Tile :=
  let r := loopBack t.pc 4 t
  let t1 := { r.1 with lastIssued := ctx.bundle }
  if r.2 = 16384 then { t1 with dueHalts := t1.dueHalts ++ [{ due := ctx.pipe + 1, seq := t1.seq, reason := .operandRange, bundle := ctx.bundle, slot := .s }] }
  else { t1 with pc := r.2 }

/-- The halt of an issue check (R269): nothing of the bundle takes effect; SCR_ERR records a row out of bounds. -/
def Tile.issueHalt (t : Tile) (ctx : IssueCtx) (e : BundleStop) : Tile :=
  let t := match e.2.1.row with | some r => t.scrErr r 0 3 | none => t
  let t := t.halt ctx.sched { reason := e.2.1.reason, bundle := ctx.bundle, slot := e.1.code, rank := 4 }
  if e.2.2 then { t with haltMore := true } else t

/-- One bundle of a tile that may issue. A marker or wait that can complete at once costs nothing (R240). -/
def Tile.issueBundle (t : Tile) (ctx : IssueCtx) : Tile :=
  match issueSlots ctx (Store.read bundleDefault t.imem t.pc) [.s, .v, .t, .m] t with
  | .error e => t.issueHalt ctx e
  | .ok t' => (t'.advancePc ctx).tryPend ctx.wall

/-- One slot instruction issued by itself in the tile's current cycle. -/
def Tile.issueOne (t : Tile) (ctx : IssueCtx) (sl : Slot) (f : IssueCtx → Tile → Issue) : Tile :=
  match f ctx t with
  | .error e => t.issueHalt ctx (sl, e, false)
  | .ok t' => match firstFetch ctx t' with
    | .error e => t.issueHalt ctx e
    | .ok t'' => t''.tryPend ctx.wall

end Sys2Proof.Machine
end

