-- ==== Sys2Proof/Machine/Schedule.lean ====
section
/-! DEFINITION. Lock groups in a tick (10 R237 to R247): freezing, the schedule cycle, halo accounting, and the events of waits and stages. -/

namespace Sys2Proof.Machine

/-- Whether the group is frozen in the present wall cycle (R239). -/
def Dev.frozen (d : Dev) (g : Group) : Bool := d.unitsHeld g || d.marks g

/-- Whether the group runs a stage now: active, past stage start, before stage end, in a run (R235, R238). -/
def Dev.staged (d : Dev) (g : Group) : Bool := d.running && g.active && g.started && !g.ended

/-- Whether the present wall cycle is still to be run for the units of the group. -/
def Dev.cycleOpen (d : Dev) (g : Group) : Bool := d.staged g && !d.unitsHeld g && g.issuedAt != some d.tick.wall

/-- Whether a row that the ECC corrects is due in the group's present pipeline cycle (R141). -/
def Dev.correctionDue (d : Dev) (g : Group) : Bool :=
  g.members.any (fun t => (d.tile t).reads.any (fun r => r.corrected && decide (r.due ≤ g.pipe)))

/-- The two frozen cycles before a schedule cycle in which corrected rows are due, once for each (R141, R241). -/
def Dev.insertEcc (d : Dev) (g : GroupId) : Dev :=
  let y := d.group g
  if d.cycleOpen y && d.correctionDue y && y.eccFor != some y.pipe then d.setGroup g { y with eccLeft := y.eccLeft + 2, eccFor := some y.pipe }
  else d

/-- Everything due in a member before the group's schedule cycle issues. -/
def Dev.settleTile (d : Dev) (g : GroupId) (t : TileId) : Dev := d.onTile t (fun x => x.settle (d.issueCtx t g))

/-- The end of the pipeline cycle in a member (R52, R74, R95). -/
def Dev.endTile (d : Dev) (g : GroupId) (t : TileId) : Dev := d.onTile t (fun x => x.endCycle (d.issueCtx t g))

/-- One member in a schedule cycle (R237): it issues its bundle unless it has halted or stopped. -/
def Dev.issueTile (d : Dev) (g : GroupId) (t : TileId) : Dev :=
  let x := d.tile t
  if x.halted || x.done then d
  else ((d.onTile t (fun x => x.issueBundle (d.issueCtx t g))).extentCheck g t x (BitVec.ofNat 14 x.pc)).coverTaken t

/-- The tile that reaches its RUN_TO_COUNT count in this schedule cycle, unless a tile has halted in a cycle before it (R310, R311). -/
def Dev.countTile (d : Dev) (g : GroupId) : Option TileId :=
  match d.run.target with
  | some (t, n, c) =>
    if d.tick.runTick = n ∧ (d.group g).counter = c ∧ (d.group g).members.contains t ∧ (d.tile t).halted = false ∧
      (d.run.haltOrder.1 = 0 ∨ d.run.haltOrder = (1, d.tick.wall)) then some t else none
  | none => none

/-- COUNT_REACHED: the tile halts, and every other group is held within 64 cycles (R246; log 24). Its place among the conditions of one cycle is the
model's (log 77). -/
def Dev.reachCount (d : Dev) (g : GroupId) (t : TileId) : Dev :=
  let d := d.onTile t (fun x => x.halt (d.group g).counter { reason := .countReached, bundle := BitVec.ofNat 14 x.pc, rank := 0 })
  let w := d.tick.wall
  let k := d.freeValue
  let d := d.drew.mapGroups (fun n x =>
    if n = g ∨ x.members = [] then x
    else
      let h := w + 1 + (k / 64 ^ n.toNat) % 64
      { x with heldFrom := match x.heldFrom with | some y => some (min y h) | none => some h })
  { d with run := { d.run with countReached := true } }

/-- The pipelines of a group's members take one cycle, in which `issue` acts; the schedule counter advances by n (R237). -/
def Dev.pipeCycle (d : Dev) (g : GroupId) (n : Nat) (issue : Dev → Dev) : Dev :=
  let ms := (d.group g).members
  let d := issue (ms.foldl (fun d t => d.settleTile g t) d)
  let d := ms.foldl (fun d t => d.endTile g t) d
  let y := d.group g
  d.setGroup g { y with counter := y.counter + n, pipe := y.pipe + 1, issuedAt := some d.tick.wall }

/-- One wall cycle of a group in its stage, at most once (R237): it issues its bundles; while only markers freeze it, its units go on (R240); else
it stands still. -/
def Dev.scheduleCycle (d : Dev) (g : GroupId) : Dev :=
  if !d.staged (d.group g) || (d.group g).issuedAt == some d.tick.wall then d
  else
    let d := d.insertEcc g
    let x := d.group g
    if d.unitsHeld x then d.setGroup g { x with stopped := some d.tick.wall }
    else if d.marks x then d.pipeCycle g 0 id
    else d.pipeCycle g 1 (fun d =>
      let d := match d.countTile g with | some t => d.reachCount g t | none => d
      x.members.foldl (fun d t => d.issueTile g t) d)

/-- Whether a member may issue a slot now. -/
def Dev.mayIssue (d : Dev) (g : GroupId) (t : TileId) : Bool :=
  d.cycleOpen (d.group g) && !d.marks (d.group g) && !(d.tile t).halted && !(d.tile t).done

/-- One slot instruction of a tile, issued by itself in its group's present cycle (log 6). -/
def Dev.issueSlotOf (d : Dev) (t : TileId) (sl : Slot) (f : IssueCtx → Tile → Issue) : Dev :=
  match d.groupOf t with
  | some g =>
    let d := d.insertEcc g
    if d.mayIssue g t then
      ((d.onTile t (fun x =>
        let x := x.settle (d.issueCtx t g)
        if x.halted then x else x.issueOne (d.issueCtx t g) sl f)).extentCheck g t (d.tile t) (BitVec.ofNat 14 (d.tile t).pc)).coverTaken t
    else d
  | none => d

/-- A change of a tile that belongs to a group, with what it sees at issue. -/
def Dev.onMember (d : Dev) (t : TileId) (f : IssueCtx → Tile → Tile) : Dev :=
  match d.groupOf t with
  | some g => d.onTile t (f (d.issueCtx t g))
  | none => d

/-- The same, in a cycle that is still to be run for the units of the tile's group. -/
def Dev.onOpen (d : Dev) (t : TileId) (f : IssueCtx → Tile → Tile) : Dev :=
  match d.groupOf t with
  | some g => let d := d.insertEcc g; if d.cycleOpen (d.group g) then d.onTile t (f (d.issueCtx t g)) else d
  | none => d

/-- Charges a frozen cycle to the halo (R247). -/
def Group.charge (g : Group) : Group :=
  { g with haloLeft := g.haloLeft - 1, haloExhausted := g.haloExhausted || decide (g.haloLeft = 0) }

/-- Halo accounting of one group at the end of a wall cycle (R241, R244, R247). -/
def Dev.account (d : Dev) (g : Group) : Group :=
  if !(d.running && g.active) || decide (d.tick.cycle < 2048) || d.tick.deadlineDone then g
  else if !g.started then { g.charge with ecDrain := satInc g.ecDrain }
  else if g.ended && g.endWall != d.tick.wall then g
  else if g.held d.tick.wall then g
  else if g.throttled d.tick.wall then { g.charge with ecPwr := satInc g.ecPwr }
  else if d.waits g then { g.charge with ecWait := satInc g.ecWait }
  else if 0 < g.eccLeft then { g.charge with ecEcc := satInc g.ecEcc, eccLeft := g.eccLeft - 1 }
  else if d.marks g then { g.charge with ecWait := satInc g.ecWait }
  else g

/-- SCHEDULE_CYCLE (R237). -/
def execScheduleCycle (g : GroupId) (s : State) : Host.Outcome State Fault Refusal := s.act (fun d => d.scheduleCycle g)

/-- ENGINE_WRITEBACK: what is due before the present pipeline cycle lands (R52). SCHEDULE_CYCLE lands what is due at the end of its own. -/
def execEngineWriteback (t : TileId) (s : State) : Host.Outcome State Fault Refusal :=
  s.act (fun d => d.onMember t (fun ctx x => x.landDue ctx.pipe))

/-- The oldest row of a tile that is due for delivery and whose finding has not been told (R143). -/
def Tile.nextRead (t : Tile) (pipe : Nat) : Option RowRead := t.reads.find? (fun r => decide (r.due ≤ pipe) && !r.judged)

/-- The ECC's finding on a read has been told: the row stays held back. -/
def Tile.judge (t : Tile) (r : RowRead) : Tile := { t with reads := t.reads.map (fun x => if x = r then { x with judged := true } else x) }

/-- A row found correctable: it is held back, to be delivered corrected, with every read in flight of the same contents (R141). -/
def Tile.correct (t : Tile) (r : RowRead) : Tile := (t.judge r).findError r.row r.writes

/-- The oldest due row meets what the row ECC finds: a corrected row is delivered after two frozen cycles, and so is one whose contents stood corrected
before (R132, R141, R143, R241). -/
def Tile.rowMeets (t : Tile) (ctx : IssueCtx) (ecc : EccOutcome) (r : RowRead) : Tile :=
  match ecc with
  | .uncorrectable => t.deliver ctx r ecc
  | .corrected => t.correct r
  | .clean => if r.corrected then t.judge r else t.deliver ctx r ecc

/-- ENGINE_ROW_DELIVERY: the finding of the row ECC on the oldest due row that has none yet. -/
def execEngineRowDelivery (t : TileId) (ecc : EccOutcome) (s : State) : Host.Outcome State Fault Refusal :=
  s.act (fun d => (d.onOpen t (fun ctx x => match x.nextRead ctx.pipe with
    | some r => x.rowMeets ctx ecc r
    | none => x)))

/-- One pending instruction tested in a cycle after its issue (R240). -/
def Dev.tryOne (d : Dev) (t : TileId) (p : Pending) : Dev :=
  if (d.tile t).pendMet p then d.onTile t (fun x => x.completePend d.tick.wall p) else d

/-- PENDING_WAIT_COMPLETE: the tile tests its pending instructions in a cycle after their issue; all whose condition holds complete (R240). -/
def execPendingWaitComplete (t : TileId) (s : State) : Host.Outcome State Fault Refusal :=
  s.act (fun d =>
    if (d.tile t).halted || !d.running then d
    else (((d.tile t).pend.filter (fun p => decide (p.wall < d.tick.wall))).foldl (fun d p => d.tryOne t p) d).coverTaken t)

/-- The pending instruction of a tile that has reached its WAIT_LIMIT (R242). -/
def Dev.timedOut (d : Dev) (t : TileId) : Option (Pending × Group) :=
  match d.groupOf t with
  | some g =>
    let y := d.group g
    if y.waitLimit = 0 ∨ (d.tile t).halted ∨ !d.running then none
    else ((d.tile t).pend.find? (fun p => decide (p.wall + 3 + y.waitLimit ≤ d.tick.wall))).map (fun p => (p, y))
  | none => none

/-- ARRIVAL_TIMEOUT (R138, R242). Its place among the conditions of one cycle is the model's (log 77). -/
def execArrivalTimeout (t : TileId) (s : State) : Host.Outcome State Fault Refusal :=
  s.act (fun d => match d.timedOut t with
    | some (p, y) => d.onTile t (fun x => x.halt y.counter { reason := .arrivalTimeout, bundle := p.bundle })
    | none => d)

/-- Whether the last member's marker has completed (R238). -/
def Dev.stageOver (d : Dev) (g : Group) : Bool := d.staged g && g.members.all (fun t => (d.tile t).done)

/-- STAGE_END (R238, R247). -/
def execStageEnd (g : GroupId) (s : State) : Host.Outcome State Fault Refusal :=
  s.act (fun d =>
    if d.stageOver (d.group g) then
      { d.setGroup g { d.group g with ended := true, endWall := d.tick.wall } with tick := { d.tick with lastEnd := some d.tick.cycle } }
    else d)

/-- THROTTLE_EXPIRY: throttles whose last frozen cycle has passed are gone (R243). -/
def execThrottleExpiry (g : GroupId) (s : State) : Host.Outcome State Fault Refusal :=
  s.act (fun d => d.setGroup g { d.group g with throttles := (d.group g).throttles.filter (fun p => decide (d.tick.wall ≤ p.2)) })

/-- TRANSFORM_INVARIANT_CLOSE, with or without a fault in the data path (R82). Before the close's cycle it tells the fault (log 10). -/
def execTransformInvariantClose (t : TileId) (upset : Option Upset) (s : State) : Host.Outcome State Fault Refusal :=
  s.act (fun d => d.onOpen t (fun ctx x => if (x.transformDue ctx.pipe).isSome then x.closeDue ctx upset else x.tellUpset upset))

/-- PERM_INDEX_CHECK (R88). -/
def execPermIndexCheck (t : TileId) (s : State) : Host.Outcome State Fault Refusal :=
  s.act (fun d => d.onOpen t (fun ctx x => x.permCheck ctx))

/-- DSM_CLOSE: close stages whose last cycle lies before the present pipeline cycle end (R121). SCHEDULE_CYCLE ends them in their last cycle. -/
def execDsmClose (t : TileId) (s : State) : Host.Outcome State Fault Refusal :=
  s.act (fun d => d.onMember t (fun ctx x => x.closeOverdue ctx))

end Sys2Proof.Machine
end

