-- ==== Sys2Proof/Machine/Sentinel.lean ====
section
/-! DEFINITION. The sentinel (05 R112 to R115, R127): recomputing a sampled block, and adapting its rate and threshold. -/

namespace Sys2Proof.Machine

/-- 2^−n in FP32. -/
def pow2Neg (n : Nat) : Word := BitVec.ofNat 32 ((127 - n) * 2 ^ 23)

def Sentinel.pinned (s : Sentinel) : Bool := s.ctrl.getLsbD 2
def Sentinel.kNow (s : Sentinel) : Nat := field s.ctrl.toNat 20 4
def Sentinel.withK (s : Sentinel) (k : Nat) : Sentinel :=
  { s with ctrl := (s.ctrl &&& ~~~0x00F00000) ||| BitVec.ofNat 32 (k * 2 ^ 20) }

/-- The fields of SENT_CTRL and SENT_THRESH that a host write changes; a K_MIN or K_MAX above 12, or a K_MAX below K_MIN, leaves its field
(R8, R127; log 25). -/
def Sentinel.applyWrites (s : Sentinel) : Sentinel :=
  let keep := fun (lo : Nat) (w : Word) (ok : Bool) => if ok then field w.toNat lo 4 else field s.ctrl.toNat lo 4
  let c := match s.ctrlNext with
    | some w =>
      let kmin := keep 8 w (field w.toNat 8 4 ≤ 12)
      let kmax := keep 12 w (decide (field w.toNat 12 4 ≤ 12) && decide (kmin ≤ field w.toNat 12 4))
      wordOf [(0, w.toNat % 8), (8, kmin), (12, kmax), (16, field w.toNat 16 4), (20, s.kNow)]
    | none => s.ctrl
  { s with ctrl := c, ctrlNext := none, thresh := match s.threshNext with | some w => w &&& 0x00FFFFFF | none => s.thresh, threshNext := none }

/-- The rule of every tick boundary (R114). -/
def Sentinel.atBoundary (s : Sentinel) : Sentinel :=
  let s := s.applyWrites
  let s :=
    if s.pinned then { s.withK (field s.ctrl.toNat 16 4) with t := pow2Neg (field s.thresh.toNat 16 8) }
    else if 0 < s.exceedThisTick then { s.withK (max (field s.ctrl.toNat 8 4) (s.kNow - 1)) with quiet := 0 }
    else if s.quiet + 1 = 64 then { s.withK (min (field s.ctrl.toNat 12 4) (s.kNow + 1)) with quiet := 0 }
    else { s with quiet := s.quiet + 1 }
  { s with exceedThisTick := 0 }

/-- A shadow block (R113): block (u, b) of an A panel of 288 rows in an eight-bit format. -/
def shadowBlock (f : Fmt) (row : Nat → SectorBits) (first u b : Nat) : Block :=
  let n := b * 288 + u
  let bits := (row (first + n / 16)).toNat
  { elems := (List.range 32).map (fun m => f.elem (field bits ((n % 16) * 256 + m * 8) 8)), scale := field bits (8 * (512 + n % 16)) 8 }

/-- The value of a pair of blocks as an exact number, or NaN (R96 to R98). -/
def blockFp (a b : Block) (e : Int) : Fp := if a.nan || b.nan then .nan else .num (decide (blockP a b < 0)) (blockP a b).natAbs e

def Fp.abs : Fp → Fp
  | .num _ m e => .num false m e
  | .inf _ => .inf false
  | .nan => .nan

/-- The deviation of R113 in FP32: the difference and the sum are rounded once each, and their quotient once. -/
def deviation (v v8 : Fp) (e : Int) : FpOut := fDiv (fp32.encode (v.add v8.neg).abs).bits (fp32.encode (v8.abs.add (.num false 1 e))).bits

/-- The array's V that a sample holds (R113). -/
def SentSample.array (x : SentSample) : Fp := match x.v with | some (some (n, m, e)) => .num n m e | _ => .nan

/-- After a SHADOW sample (R113, R114). The spec states no T for a mean that is NaN: it is then `unstated` (log 14). Of PIN = 1 it gives k and T alone: the
mean goes on then with each sample, and the quiet count stands (DESIGN CHOICE, log 89). -/
def Sentinel.learn (s : Sentinel) (delta : Nat) (unstated : Word) : Sentinel :=
  let above := (fp32.decode s.t.toNat).lt (fp32.decode delta)
  let m := (fAdd s.mean.toNat (fMul (fSub delta s.mean.toNat).bits (pow2Neg 8).toNat).bits).bits
  let t4 := (fMul m 0x40800000).bits
  let lo := (pow2Neg (field s.thresh.toNat 0 8)).toNat
  let hi := (pow2Neg (field s.thresh.toNat 8 8)).toNat
  let t := if (fp32.decode t4).isNan then unstated.toNat
    else if (fp32.decode t4).lt (fp32.decode lo) then lo else if (fp32.decode hi).lt (fp32.decode t4) then hi else t4
  { s with exceed := if above then satInc s.exceed else s.exceed, exceedThisTick := s.exceedThisTick + above.toNat
           mean := BitVec.ofNat 32 m, t := if s.pinned then s.t else BitVec.ofNat 32 t }

/-- The deviation of a SHADOW sample of the rows `a` and `b` (R113): a free value where one of them is poisoned or uncorrectable, of which the spec
states none. The array's V is the one that the array formed. -/
def SentSample.deviates (x : SentSample) (free : Nat) (a b : Payload) : Nat :=
  if a.poison != 0 || b.poison != 0 then free % 2 ^ 32
  else
    let f8 : Fmt := if Config.shadowIsFp8 x.fmt.bits then .mxfp8 else .mxint8
    let rowB := (x.rows true).2
    let y := panelBlock x.fmt { got := [(rowB, { data := b.data })] } none x.b x.j x.step
    let a8 := shadowBlock f8 (fun _ => a.data) x.shadow x.i x.step
    (deviation x.array (blockFp a8 y ((a8.scale : Int) + y.scale - 254 - x.fmt.frac - f8.frac)) ((a8.scale : Int) + y.scale - 254)).bits

/-- A sampled block recomputed from the rows read (R113): the tile after it, and in EXACT the block-row of a value at fault. Its free values are numbers
of the sentinel's own, beside the tile's (log 7). -/
def Tile.sentinelSample (t : Tile) (self : TileId) (x : SentSample) (faulty : Bool) (a b : Payload) : Tile × Option Nat :=
  let s := { t.sent with sample := none }
  let free := fun k => Config.freeNat (128 + self.toNat) (s.free + k)
  if s.ctrl.getLsbD 1 then
    ({ t with sent := { s.learn (x.deviates (free 0) a b) (BitVec.ofNat 32 (free 1)) with free := s.free + 2 } }, none)
  else if faulty then ({ t with sent := { s with fault := satInc s.fault } }, some (x.i / 32))
  else ({ t with sent := s }, none)

/-- Whether the sentinel of a tile works on its sample now: its group's units move, and the sample's rows may be read (R113, R115, R126, R136). -/
def Dev.sampleOpen (d : Dev) (t : TileId) (x : SentSample) : Bool := !d.arrayHeld t && x.mayRead d.tick.wall

/-- One row of a sample is read when the DMA port grants it a slot of the row's bank (R113, R131). It is there in this cycle, or two cycles later where
the ECC has corrected it (R142). -/
def Dev.sampleRow (d : Dev) (t : TileId) (shadow second : Bool) (x : SentSample) (seen : RowEcc) : Dev × SentSample :=
  let row := if second then (x.rows shadow).2 else (x.rows shadow).1
  if (if second then x.gotB else x.gotA).isSome || !d.portGrants (x.req t shadow second) then (d, x)
  else
    let late := d.readLate t row seen.corrected
    let r := (d.onTile t (fun y => y.takeSlot d.tick.wall (bankOf row) false)).portRead t row 2 seen.corrected seen.uncorrectable
    let got := some (d.tick.wall + late, r.2)
    (r.1, if second then { x with gotB := got } else { x with gotA := got })

/-- The two rows of a sample, once both are there. -/
def SentSample.operands (x : SentSample) (wall : Nat) : Option (Payload × Payload) :=
  match x.gotA, x.gotB with
  | some a, some b => if max a.1 b.1 ≤ wall then some (a.2, b.2) else none
  | _, _ => none

/-- SENTINEL_SAMPLE, with what the reads of its two rows meet, the A or shadow row first: those rows are read that have a slot, and the block is
recomputed once both are there (R113, R115, R131, R142, R143). An EXACT sample of a block whose row is padded reads that row as any other: R169 does not
say that it leaves it out (DESIGN CHOICE, log 14). -/
def execSentinelSample (t : TileId) (faulty : SampleSeen) (s : State) : Host.Outcome State Fault Refusal :=
  s.act (fun d => match (d.tile t).sent.sample with
    | none => d
    | some x =>
      if !d.sampleOpen t x then d
      else
        let shadow := (d.tile t).sent.ctrl.getLsbD 1
        let a := d.sampleRow t shadow false x faulty.a
        let b := a.1.sampleRow t shadow true a.2 faulty.b
        match b.2.operands d.tick.wall with
        | none => b.1.onTile t (fun y => { y with sent := { y.sent with sample := some b.2 } })
        | some p =>
          let r := (b.1.tile t).sentinelSample t b.2 faulty.faulty p.1 p.2
          let d := b.1.setTile t r.1
          match r.2 with
          | some k => d.event t.toNat evSentinelFault [(16, k), (20, d.tick.runTick % 2 ^ 32)]
          | none => d)

end Sys2Proof.Machine
end

