-- ==== Sys2Proof/Machine/TickOps.lean ====
section
/-! DEFINITION. The tick (10): boundary, drain, stage start, stage deadline and overrun, the external tick; stopping the tiles and entering HALTED. -/

namespace Sys2Proof.Machine

/-- POISON set in a header register as it stands, which is written to its home address (R47). -/
def Tile.poisonHeader (t : Tile) (n : Nat) : Tile :=
  let r := t.h.toList.getD n {}
  let h : Header := { r.hdr with poison := true }
  let t := { t with h := t.h.setIfInBounds n { r with hdr := h } }
  if t.powered r.home.toNat then t.setRow r.home.toNat { data := BitVec.ofNat 4608 h.bits } else t

/-- Every header register that a bundle of this tick named as destination is poisoned (R47, R250). -/
def Tile.poisonNamed (t : Tile) : Tile :=
  { (List.range 8).foldl (fun t n => if t.named.getLsbD n then t.poisonHeader n else t) t with named := 0 }

/-- A ring flushed: slots EMPTY, indices 0, disarmed (R193). -/
def Ring.flush (r : Ring) : Ring :=
  { r with armed := false, slots := r.slots.map (fun _ => SlotState.empty), fill := 0, done := 0, release := 0 }

/-- A tile stopped by ABORT or SKIP: nothing issues, what is in flight in its units is discarded, queues and rings are flushed, expansions dropped, and
the headers named are poisoned; what has been accepted has still to land (R47, R167, R193, R232, R250). -/
def Tile.skip (t : Tile) (self : TileId) : Tile :=
  { t.dropFlights.stopQueues self with rings := t.rings.map Ring.flush, expands := [] }.poisonNamed

/-- The tiles of the image (R255). -/
def Dev.imageTiles (d : Dev) : List TileId := allTiles.filter d.inImage

/-- Arrival counters set to 0 (R139). -/
def Tile.clearArrivals (t : Tile) : Tile := { t with arrival := Vector.replicate 64 0, arriving := [] }

/-- The run tick that a tick of the run belongs to: the drain of a STOP is that of the tick that never runs (R346). -/
def Dev.drainTick (d : Dev) : Nat := if d.run.stopDrain then d.tick.runTick + 1 else d.tick.runTick

/-- Stage record of a group's present stage. -/
def Dev.stageOf (d : Dev) (g : Group) : Option Stage := d.run.image.bind (fun im => im.stages[g.stage]?)

/-- POISON set in a header location of OUTPUTS: a tile row or a near-tier sector (R236, R250). -/
def Dev.poisonOutput (d : Dev) (r : BitVec 64) : Dev :=
  if refSpace r = 1 then
    let t := BitVec.ofNat 6 (refTile r)
    if (d.tile t).powered (refAddr r) then
      let x := (d.tile t).rowAt (refAddr r)
      d.setTile t ((d.tile t).setRow (refAddr r) { x with data := x.data ||| poisonBit })
    else d
  else if d.mem.nearValid (refAddr r) then d.receiveMem (.mark (refAddr r) {} none)
  else d

/-- The outputs of a stage poisoned (R250). -/
def Dev.poisonStage (d : Dev) (stage : Option Nat) : Dev :=
  match stage.bind (fun n => d.run.image.bind (fun im => im.stages[n]?)) with
  | some st => st.outputs.foldl (fun d r => d.poisonOutput r) d
  | none => d

/-- Firmware's part of SKIP, once the accepted requests of the skipped groups have landed (R250; log 46). -/
def Dev.poisonOutputs (d : Dev) : Dev :=
  let d := allGroups.foldl (fun d g => d.poisonStage (d.group g).skipped) d
  d.mapGroups (fun _ g => { g with skipped := none })

/-- Whether a tile has requests that have still to land: accepted ones of its queues, its chain packets, its fills (R116, R167, R193). -/
def Dev.tileLands (d : Dev) (t : TileId) : Bool :=
  !(d.tile t).dma.queues.all (·.isEmpty) || !(d.tile t).nma.outbox.isEmpty || (d.ksu (dieOf t)).fills.any (fun f => f.tile == t)

/-- The tiles of a run stop as at ABORT, their samples discarded (R47, R115, R167, R193), and the run ends as `e` says once what has been accepted has
landed. -/
def Dev.stopTiles (d : Dev) (e : Ending) : Dev :=
  let d := d.mapTiles d.inImage (fun t x => { x.skip t with sent := { x.sent with sample := none } })
  { d with run := { d.run with ending := some e } }

/-- Whether accepted requests of the run have still to land. -/
def Dev.stillLands (d : Dev) : Bool := d.imageTiles.any d.tileLands

/-- All has landed: queues are empty, arrival counters 0, and the outputs of skipped stages poisoned (R139, R167, R250). -/
def Dev.settled (d : Dev) : Dev :=
  let d := d.mapTiles d.inImage (fun _ x => { x.clearArrivals with dma := { x.dma with queues := Vector.replicate 4 [] } })
  { d.poisonOutputs with run := { d.run with ending := none } }

/-- What a tile that has not halted of itself records when the run ends, and MORE in one that had (R270; log 42). Its sentinel's
sample is discarded (R115). -/
def Tile.recordStop (t : Tile) (aborted : Bool) : Tile :=
  let t := { t with sent := { t.sent with sample := none } }
  if t.halted then { t with haltMore := t.haltMore || aborted }
  else { t with haltReason := if aborted then .aborted else .none, haltAddr := BitVec.ofNat 14 t.pc, haltSlot := 0, haltAsync := false }

/-- Reduction instances in progress are abandoned: their sums, folds and poisonings stop, and of their packets those not begun are not sent (R373; log 35). -/
def Dev.abandonReductions (d : Dev) : Dev :=
  let open_ := (d.peer.plans.toList.zipIdx).flatMap (fun p => match p.1 with
    | some x => x.instances.map (fun i => (p.2, i.e))
    | none => [])
  let drops := fun (x : PeerPacket) => x.cameBy.isNone && open_.any (fun i => field x.header.toNat 16 4 == i.1 && field x.header.toNat 32 32 == i.2)
  let d := { d with held := d.held.filter (fun h => h.work.isNone), peer := { d.peer with
    plans := d.peer.plans.map (fun p => p.map (fun x => { x with instances := [] }))
    ports := d.peer.ports.map (fun p => { p with queue := p.queue.filter (fun x => !drops x) }) } }
  open_.foldl (fun d i => d.event srcFirmware evReduceAbandoned [(16, i.1), (20, i.2)]) d

/-- The eclipse counters latched at a halt (R253). -/
def Group.latch (g : Group) : Group := { g with latched := [g.ecWait, g.ecEcc, g.ecPwr, g.ecDrain] }

/-- DETAIL of STOP: the state reached and the last run tick (R346). -/
def Dev.stopDetail (d : Dev) (runTick : Nat) : List Byte := detailOf [(0, d.run.state.code), (4, runTick % 2 ^ 32)]

/-- The tiles of a run record how it ended, eclipse counters are latched, reductions abandoned, and the run is over (R253, R270, R373). -/
def Dev.closeRun (d : Dev) (aborted : Bool) : Dev :=
  let d := d.mapTiles d.inImage (fun _ x => x.recordStop aborted)
  let d := (d.mapGroups (fun _ g => g.latch)).abandonReductions
  { d with run := { d.run with resumable := false, toBegin := none, stopDrain := false, stopDue := false, target := none }
           tick := { d.tick with inRun := false } }

/-- DETAIL of RUN_TO_COUNT (R342). -/
def Dev.countDetail (d : Dev) (t : TileId) : List Byte :=
  detailOf [(0, (haltReasonWord (d.tile t)).toNat), (4, (haltAddrWord (d.tile t)).toNat), (8, d.tick.runTick % 2 ^ 32)]

/-- Pending run commands complete as the device enters HALTED (R342, R348, R349). DETAIL of a STOP names the last run tick whose stages ran, or
0xFFFF_FFFF where none did (R346; DEDUCED, log 42). -/
def Dev.finishRunJobs (d : Dev) (aborted : Bool) : Dev :=
  let st := if aborted then Status.aborted else Status.ok
  let d := d.finishAll (fun k => match k with | .start => aborted | .resume => aborted | _ => false) .aborted (fun _ => noDetail)
  let d := d.finishAll (fun k => match k with | .stop => true | _ => false) st
    (fun _ => d.stopDetail (d.run.lastTick.getD 0xFFFFFFFF))
  d.finishAll (fun k => match k with | .runToCount _ => true | _ => false) st
    (fun j => match j.kind with | .runToCount t => d.countDetail t | _ => noDetail)

/-- Entry to HALTED (R245, R246, R251, R348). -/
def Dev.enterHalted (d : Dev) (opcode : Nat) (aborted : Bool) : Dev :=
  ((d.closeRun aborted).enter .halted opcode).finishRunJobs aborted

/- Stages. -/

/-- Whether an active group has not reached stage end (R248). -/
def Group.overruns? (g : Group) : Bool := g.active && !g.ended

/-- R248 for one group. -/
def Dev.noteOverrun (d : Dev) (skip : Bool) (g : GroupId) : Dev :=
  let x := d.group g
  let d := (d.setGroup g { x with overrun := true, overruns := satInc x.overruns }).mark (0x1400 + 32 * g.toNat) 0x20
  (({ d with tick := { d.tick with overrun := true } }).mark 0x1024 8).event srcTick (evTickOverrun skip)
    [(16, g.toNat), (17, x.stage), (20, d.tick.runTick % 2 ^ 32), (24, x.counter)]

/-- R249 for one group. -/
def Dev.haltOverrun (d : Dev) (g : GroupId) : Dev :=
  (d.group g).members.foldl (fun d t =>
    let x := d.tile t
    let b := match x.pend with | p :: _ => p.bundle | [] => BitVec.ofNat 14 x.pc
    d.onTile t (fun y => y.halt (d.group g).counter { reason := .tickOverrun, bundle := b })) d

/-- R250 for one group, up to the drain. A group that is skipped again before its drain has ended has the outputs of the earlier stage poisoned now. -/
def Dev.skipGroup (d : Dev) (g : GroupId) : Dev :=
  let d := d.poisonStage (d.group g).skipped
  let d := (d.group g).members.foldl (fun d t => d.setTile t ((d.tile t).skip t)) d
  d.setGroup g { d.group g with skipped := some (d.group g).stage, started := false }

/-- Whether requests of a skipped group have still to land (R232). -/
def Dev.skipWaits (d : Dev) : Bool := allGroups.any (fun g => (d.group g).skipped.isSome && (d.group g).members.any d.tileLands)

/-- STAGE_DEADLINE (R248 to R251). -/
def Dev.stageDeadline (d : Dev) : Dev :=
  if !(d.running && d.tick.inRun && !d.run.stopDrain && !d.tick.deadlineDone && decide (d.tick.period ≤ d.tick.cycle)) then d
  else
    let skip := match d.run.image with | some im => im.skip | none => false
    let late := allGroups.filter (fun g => (d.group g).overruns?)
    let halted := d.imageTiles.any (fun t => (d.tile t).halted)
    let d := late.foldl (fun d g => d.noteOverrun skip g) d
    let d := d.mapGroups (fun _ g => { g with throttles := [] })
    let d := { d with tick := { d.tick with deadlineDone := true }, run := { d.run with stopDue := d.run.state == .stopping } }
    if halted then d.enterHalted 0 false
    else if late.isEmpty then d
    else if skip then
      let d := late.foldl (fun d g => d.skipGroup g) d
      { d with run := { d.run with skipTicks := d.run.skipTicks ++ [d.tick.runTick] } }
    else (late.foldl (fun d g => d.haltOverrun g) d).enterHalted 0 false

def execStageDeadline (s : State) : Host.Outcome State Fault Refusal := s.event (fun d => d.stageDeadline)

/-- The leftover checks and clears of a tile in tick cycle 0, which is wall cycle `wall`: what has landed before it counts (R137, R139, R192). -/
def Tile.boundary (t : Tile) (wall : Nat) : Tile :=
  let t := t.arrivals wall
  let t := if t.arrival.any (· != 0) then t.raiseScr 0x10 else t
  let full := BitVec.ofNat 4 (packNat 1 (fun n => ((t.rings.toList.getD n {}).slots.contains .full).toNat) 4)
  { t.clearArrivals with
    named := 0, sent := t.sent.atBoundary, raised := { t.raised with rings := t.raised.rings ||| full }
    rings := t.rings.map (fun r => { r.flush with leftover := r.leftover || r.slots.contains .full }) }

/-- Rota entry of a group record in a run tick (R235): a stage, or none for IDLE. -/
def GroupRec.stageAt (g : GroupRec) (t : Nat) : Option Nat :=
  let b := g.rota.getD (t % max g.rota.length 1) 0xFF
  if b = 0xFF then none else some b.toNat

/-- A group at the beginning of a run tick (R235, R247). -/
def Group.beginTick (g : Group) (rec_ : Option GroupRec) (stages : List Stage) (runTick : Nat) : Group :=
  match rec_ with
  | none => { g with active := false, started := false, ended := false }
  | some r =>
    let pos := runTick % max r.rota.length 1
    match r.stageAt runTick with
    | none => { g with rotaPos := pos, active := false, started := false, ended := false }
    | some n => { g with rotaPos := pos, stage := n, active := true, started := false, ended := false
                         haloLeft := match stages[n]? with | some st => st.halo | none => 0 }

/-- Key-set references of a tile in a stage. -/
def Stage.refsOf (st : Stage) (t : TileId) : List Byte := match st.entries.find? (fun e => e.tile == t) with | some e => e.refs | none => []

/-- The contexts of a tile after the installs of its coming stage (R26, R232): one table per reference but 0xFF. -/
def Tile.installContexts (t : Tile) (keys : Keys) (keysets : List Word) (refs : List Byte) : Tile :=
  { t with mctx := Vector.ofFn (fun m : Fin 4 =>
      let r := refs.getD m.val 0xFF
      if r = 0xFF then t.mctx[m] else (keys.set? (keysets.getD r.toNat 0)).map (·.table)) }

/-- Installs that a tile's coming stage needs (R232). -/
def Tile.installsNeeded (t : Tile) (keysets : List Word) (refs : List Byte) : Nat :=
  (List.range 4).countP (fun m =>
    let r := refs.getD m 0xFF
    r != 0xFF && ((t.mctx.toList.getD m none).map (·.keyset)) != some (keysets.getD r.toNat 0))

/-- The references of every tile that runs a stage in this tick. -/
def Dev.stageRefs (d : Dev) (t : TileId) : List Byte :=
  match d.groupOf t with
  | some g => if (d.group g).active then (match d.stageOf (d.group g) with | some st => st.refsOf t | none => []) else []
  | none => []

/-- More than 16 context installs on some die: the drain may then outlast tick cycle 2,047 (R232; log 22). -/
def Dev.manyInstalls (d : Dev) (keysets : List Word) : Bool :=
  (List.range 4).any (fun i => decide (16 < ((allTiles.filter (fun t => (dieOf t).toNat == i)).map
    (fun t => (d.tile t).installsNeeded keysets (d.stageRefs t))).sum))

/-- Reduction instances whose contribution tick is the present run tick (R369). -/
def Plan.openInstance (p : Plan) (runTick : Nat) : Plan :=
  let phase := leAt p.block 8 4
  let period := leAt p.block 12 2
  let due := if period = 0 then decide (runTick = phase) else decide (phase ≤ runTick) && decide ((runTick - phase) % period = 0)
  let e := if period = 0 then 0 else (runTick - phase) / period
  if due && !p.instances.any (fun i => i.e == e) then { p with instances := p.instances ++ [{ e := e }] } else p

/-- The work of tick cycle 0 in a run (R231). -/
def Dev.beginRunTick (d : Dev) : Dev :=
  let d := d.mapTiles d.inImage (fun _ x => x.boundary d.tick.wall)
  match d.run.image with
  | none => d
  | some im =>
    let d := { d with tick := { d.tick with inRun := true } }
    if d.run.stopDrain then d.mapGroups (fun _ g => { g with active := false, started := false, ended := false })
    else
      let d := d.mapGroups (fun n g => g.beginTick (im.groups.find? (fun r => r.group == n)) im.stages d.tick.runTick)
      let many := d.manyInstalls im.keysets
      let d := d.mapTiles d.inImage (fun t x => x.installContexts d.keys im.keysets (d.stageRefs t))
      let d := { d with keys := { d.keys with installed := d.keys.krt.filterMap (fun e => e.2.bind (fun k => if k.valid then some k else none)) }
                        peer := { d.peer with plans := d.peer.plans.map (fun p => p.map (fun x => x.openInstance d.tick.runTick)) } }
      if many then { d.drew with tick := { d.tick with installEnd := d.freeValue } } else d

/-- A STOP that no stage preceded takes effect (R346), after the work of tick cycle 0 (R139, R231). -/
def Dev.stopUnbegun (d : Dev) (resume : Bool) : Dev :=
  let d := { d with run := { d.run with toBegin := none, stopDue := false, resumable := resume, target := none } }.abandonReductions.enter .loaded 0x21
  let d := d.finishAll (fun k => match k with | .start => true | .resume => true | _ => false) .ok (fun _ => noDetail)
  d.finishAll (fun k => match k with | .stop => true | _ => false) .ok (fun _ => d.stopDetail 0xFFFFFFFF)

/-- What the run does at a boundary (R231, R345 to R347). -/
def Dev.runBoundary (d : Dev) : Dev :=
  if !d.running then
    if d.run.state == .halted || d.run.ending.isSome then d else d.mapGroups (fun _ g => { g with active := false, started := false, ended := false })
  else match d.run.toBegin with
    | some resume =>
      if d.run.state == .stopping then (d.mapTiles d.inImage (fun _ x => x.boundary d.tick.wall)).stopUnbegun resume
      else
        ({ d.mapGroups (fun _ g => { g with heldFrom := none, heldCount := none }) with
                  run := { d.run with toBegin := none, begun := false }
                  tick := { d.tick with runTick := if resume then d.tick.runTick + 1 else 0 } }).beginRunTick
    | none =>
      if d.run.stopDue then ({ d with run := { d.run with stopDrain := true, stopDue := false } }).beginRunTick
      else ({ d with tick := { d.tick with runTick := d.tick.runTick + 1 } }).beginRunTick

/-- A stack's refresh rate from a boundary on (R209, R210; log 26): `anyHot` says that some stack is above 85 °C. -/
def Stack.atBoundary (s : Stack) (pin : BitVec 2) (anyHot : Bool) : Stack :=
  { s with extended := if pin == 2 then true else if pin == 1 then anyHot else s.hot, timer := false }

/-- The counts of a channel at a boundary (R219, R220). -/
def Channel.atBoundary (c : Channel) (extended : Bool) : Channel :=
  { c with lastServed := c.served, served := 0, sampledLast := topSamples c.sampled, samplesLast := (c.sampled.map (·.2)).sum, sampled := []
           transitUsed := 0, extended := extended }

/-- The memory at a boundary: pins take effect, counts close (R209, R210, R219, R391). -/
def Mem.atBoundary (m : Mem) : Mem :=
  let pin := m.refreshPinNext.getD m.refreshPin
  let st := m.stackOf.map (fun s => s.atBoundary pin m.anyHot)
  { m with refreshPin := pin, refreshPinNext := none, transitPin := m.transitPinNext.getD m.transitPin, transitPinNext := none
           hotJudged := false, stackOf := st
           channels := Vector.ofFn (fun n : Fin 256 => m.channels[n].atBoundary (st.toList.getD (n.val / 32) {}).extended) }

/-- Whether a boundary falls in the present tick cycle (R226, R228). -/
def Tick.boundaryDue (t : Tick) : Bool :=
  t.running && (if !t.external || (t.fallback && t.edgeAt.isNone) then decide (t.period ≤ t.cycle)
    else match t.edgeAt with | some b => decide (b ≤ t.cycle) | none => false)

/-- Length of the quiet window of the tick that ends (R233): with a stage that has not ended, or a drain of a run that had not by the stage deadline, the
cycles from P on; with no active group the cycles after the drain. -/
def Tick.quiet (t : Tick) (allEnded : Bool) : Nat :=
  if (t.stageStarted && !allEnded) || ((t.inRun || t.deadlineDone) && t.drainEnd.isNone) then t.cycle - t.period
  else match t.lastEnd with | some e => t.cycle - e - 1 | none => t.cycle - t.drainEnd.getD 2048

/-- TICK_BOUNDARY (R225 to R231): a SET_TICK takes effect before the pulse (R227, R230). -/
def Dev.tickBoundary (d : Dev) : Dev :=
  if !d.tick.boundaryDue then d
  else
    let k := d.tick
    let allEnded := allGroups.all (fun g => !(d.group g).overruns?)
    let (p, ext, out) := k.next.getD (k.period, k.external, k.outEn)
    let k' : Tick := { k with number := k.number + 1, quietLast := k.quiet allEnded, lastLen := k.cycle, period := p, external := ext, outEn := out, next := none
                              fallback := k.fallback && ext, cycle := 0, phase := 0, edgeAt := if k.edgeNext && ext then some p else none
                              edgeNext := false, lastEnd := none, stageStarted := false, deadlineDone := false, installEnd := 0, inRun := false, drainEnd := none }
    let d := { d with tick := k' }
    let d := if !ext && out then d.pulse else d
    let d := d.finishAll (fun j => match j with | .setTick => true | _ => false) .ok (fun _ => noDetail)
    ({ d with held := d.held.filter (fun h => !h.isSwap) }.onMem Mem.atBoundary).noteOverride.finishStages.runBoundary

def execTickBoundary (s : State) : Host.Outcome State Fault Refusal := s.event (fun d => d.tickBoundary)

/-- An edge whose boundary would fall n cycles after the one before it, fewer than P (R228). -/
def Dev.earlyEdge (d : Dev) (n : Nat) : Dev := (({ d with tick := { d.tick with early := true } }).mark 0x1024 1).event srcTick evTickEarly [(16, n)]

/-- TICK_IN_EDGE (R228, R230; log 27). An edge after one whose boundary is set belongs to the next tick, and is early in it. -/
def Dev.tickInEdge (d : Dev) : Dev :=
  if !(d.tick.running && d.tick.external) then d
  else
    let b := d.tick.cycle + 4 + d.freeValue % 2
    let d := d.drew
    let d := if d.tick.outEn then d.pulse else d
    let d := { d with tick := { d.tick with fallback := false } }
    if b < d.tick.period then ({ d with tick := { d.tick with edgeAt := some d.tick.period } }).earlyEdge b
    else match d.tick.edgeAt with
      | none => { d with tick := { d.tick with edgeAt := some b } }
      | some b0 => if b ≤ b0 then d else ({ d with tick := { d.tick with edgeNext := true } }).earlyEdge (b - b0)

def execTickInEdge (s : State) : Host.Outcome State Fault Refusal := s.act (fun d => d.tickInEdge)

/-- TICK_IN_LOST (R228). -/
def Dev.tickInLost (d : Dev) : Dev :=
  let k := d.tick
  if k.running && k.external && !k.fallback && k.edgeAt.isNone && decide (2 * k.period ≤ k.cycle) then
    (({ d with tick := { k with lost := true, fallback := true, edgeAt := some k.cycle } }).mark 0x1024 2).event srcTick evTickInLost []
  else d

def execTickInLost (s : State) : Host.Outcome State Fault Refusal := s.act (fun d => d.tickInLost)

/-- A member at stage start: its sequencer at the entry, loops inactive, counters clear (R139, R231, R267). -/
def Tile.beginStage (t : Tile) (entry : Nat) : Tile :=
  { t.clearArrivals with pc := entry, loops := Vector.replicate 4 {}, done := false, pend := [], holds := [], dueHalts := [], taken := []
                         busCycle := 0, busReads := [], busWrites := [] }

/-- A group at stage start: its eclipse counters clear, active or not (R231, R237, R253). -/
def Group.beginStage (g : Group) (extension : Nat) : Group :=
  let g := { g with ecWait := 0, ecEcc := 0, ecPwr := 0, ecDrain := 0 }
  if g.active then
    { g with counter := 0, pipe := 0, issuedAt := none, stopped := none, eccLeft := 0, eccFor := none, throttles := []
             started := true, ended := false, ecDrain := BitVec.ofNat 32 extension }
  else g

/-- The end of the drain that carries out a STOP (R346), with the second clear of the arrival counters (R139, R231). -/
def Dev.stopDone (d : Dev) : Dev :=
  let d := d.mapTiles d.inImage (fun _ x => x.clearArrivals)
  let d := { d with run := { d.run with stopDrain := false, resumable := true }, tick := { d.tick with inRun := false } }.abandonReductions
  let d := d.enter .loaded 0x21
  d.finishAll (fun k => match k with | .stop => true | _ => false) .ok (fun _ => d.stopDetail d.tick.runTick)

/-- The entry bundle of a tile in the stage that its group starts. -/
def Dev.entryOf (d : Dev) (t : TileId) : Option Nat :=
  match d.groupOf t with
  | some g => if (d.group g).active then (d.stageOf (d.group g)).bind (fun st => (st.entries.find? (fun e => e.tile == t)).map (·.entry)) else none
  | none => none

/-- Stage start after a drain extension of `ext` cycles (R231, R345). -/
def Dev.beginStages (d : Dev) (ext : Nat) : Dev :=
  let d := d.mapTiles d.inImage (fun t x => match d.entryOf t with | some e => x.beginStage e | none => x.clearArrivals)
  let d := d.mapGroups (fun _ g => g.beginStage ext)
  let idle := allGroups.all (fun g => !(d.group g).active)
  let d := { d with
    tick := { d.tick with stageStarted := true, lastEnd := if idle then some (d.tick.cycle - 1) else none }
    run := { d.run with begun := true, lastTick := some d.tick.runTick, extents := [], stageWrites := [], arrivals := [], arrivalCount := 0 } }
  d.finishAll (fun j => match j with | .start => true | .resume => true | _ => false) .ok (fun _ => noDetail)

/-- STAGE_START (R231, R232); none from the stage deadline on (R233). The drain that carries out a STOP ends in LOADED, or in HALTED where a tile has halted
in it: its tick has no stage deadline (R346). -/
def Dev.stageStart (d : Dev) : Dev :=
  let k := d.tick
  if !(d.running && k.inRun && !k.stageStarted && decide (2048 ≤ k.cycle) && decide (k.installEnd ≤ k.cycle)) || k.deadlineDone || d.skipWaits then d
  else
    let ext := k.cycle - 2048
    let d := { d with tick := { k with drainEnd := some k.cycle } }
    let d := if 0 < ext then
        (({ d with tick := { d.tick with drainExtended := true } }).mark 0x1024 0x10).event srcTick evDrainLate [(16, ext)] else d
    let d := d.poisonOutputs
    if d.run.stopDrain && d.run.state == .stopping then
      if d.imageTiles.any (fun t => (d.tile t).halted) then d.enterHalted 0 false else d.stopDone
    else d.beginStages ext

def execStageStart (s : State) : Host.Outcome State Fault Refusal := s.event (fun d => d.stageStart)

/-- Every group is held by a halt or by COUNT_REACHED (R246). -/
def Dev.allHeld (d : Dev) : Bool :=
  allGroups.all (fun g => (d.group g).members.isEmpty || (d.group g).held d.tick.wall)

/-- COUNT_REACHED: the device enters HALTED once every group is frozen after the named tile has reached its count (R246, R310). -/
def execCountReached (t : TileId) (s : State) : Host.Outcome State Fault Refusal :=
  s.event (fun d =>
    if d.running && d.run.countReached && d.allHeld && (d.tile t).haltReason == .countReached then d.enterHalted 0 false else d)

end Sys2Proof.Machine
end

