-- ==== Sys2Proof/Machine/ReadRegs.lean ====
section
/-! DEFINITION. Reading BAR0 (20 R452 to R464): the value every register shows. -/

namespace Sys2Proof.Machine

/-- A word of 32-bit flags as Bool fields. -/
def bit (b : Bool) : Nat := b.toNat

/-- A high word: as a read of its low word latched it, else as it stands (R6). -/
def Dev.latched (d : Dev) (off : Nat) (now : Word) : Word := (Store.read (fun _ => none) d.host.latches off).getD now

/-- Version of the running firmware: 0 in BOOT and under the ROM responder (R395, R453). -/
def Dev.runningVersion (d : Dev) : Word := if d.firmware && d.run.state != .boot then d.sec.fwVersion else 0

/-- The identity and feature region (R453). MODULE_ID reads 0 before boot step 1 of a cold boot has completed. -/
def Dev.readId (d : Dev) (off : Nat) : Word :=
  match off / 4 with
  | 0 => 0x00509640
  | 1 => 0xA1
  | 2 => d.runningVersion
  | 3 => wordOf [(0, if d.pins.idRead then d.pins.moduleId.toNat else 0), (8, d.host.linkWidth.toNat), (16, d.host.linkRate.toNat)]
  | 4 => wordOf [(0, featTiles), (8, featMaxLogN), (16, featLanes)]
  | 5 => wordOf [(0, featRows), (16, featChannels)]
  | 6 => BitVec.ofNat 32 featKrtEntries
  | 7 => BitVec.ofNat 32 d.mem.nearMax
  | 8 => 0x04041004
  | 9 => 0x000C4000
  | _ => 0

/-- DEV_STATUS (R356). -/
def Dev.devStatus (d : Dev) : Word :=
  wordOf [(0, d.run.state.code), (3, bit d.run.resumable), (4, bit d.host.peerHalf), (8, min (d.host.jobs.countP (fun j => j.kind.pends)) 255)]

def tickConfigWord (k : Tick) : Word := wordOf [(0, k.period), (26, bit k.external), (27, bit k.outEn)]

def tickStatusWord (k : Tick) : Word :=
  wordOf [(0, bit k.early), (1, bit k.lost), (2, bit k.fallback), (3, bit k.overrun), (4, bit k.drainExtended)]

/-- ECLIPSED: the group is held, stands frozen in its stage, or waits past its stage start for the drain (R240, R244, R245). -/
def Dev.eclipsed (d : Dev) (g : Group) : Bool :=
  g.held d.tick.wall || (d.staged g && d.frozen g) ||
  (d.running && g.active && !g.started && decide (2048 ≤ d.tick.cycle) && !d.tick.deadlineDone)

/-- LG_STATUSn (R253). -/
def Dev.lgStatus (d : Dev) (g : Group) : Word :=
  wordOf [(0, bit g.active), (1, bit (d.eclipsed g)), (2, bit g.ended),
    (3, bit (g.held d.tick.wall)), (4, bit g.haloExhausted), (5, bit g.overrun), (6, g.die.toNat), (8, g.priority.toNat),
    (12, g.members.length - 1), (16, g.rotaPos), (22, g.overruns.toNat)]

/-- LG_HALOn: HALO_LEFT, signed, in 27 bits. -/
def Group.haloWord (g : Group) : Word := BitVec.ofNat 32 ((g.haloLeft % 2 ^ 27).toNat)

def PortState.code : PortState → Nat
  | .disabled => 0
  | .training => 1
  | .up => 2
  | .down => 3
  | .miswired => 4
  | .conflict => 5

/-- PEER_PORTk and PEER_PORTk_ERR (R374). -/
def Port.word (p : Port) : Word := wordOf [(0, p.state.code), (3, bit p.slow), (4, p.partner.toNat), (8, min p.credits 255)]
def Port.errWord (p : Port) : Word := wordOf [(0, p.replays.toNat), (16, p.retrains.toNat), (24, p.badPkt.toNat)]

/-- REDUCE_STATUSn (R374). -/
def Dev.reduceWord (d : Dev) (n : Nat) : Word :=
  let s := d.peer.status.toList.getD n {}
  wordOf [(0, bit (d.peer.plans.toList.getD n none).isSome), (1, bit s.missing), (2, bit s.late), (3, bit s.digest), (4, bit s.backupUsed),
    (16, s.latePkts.toNat)]

/-- The device control and status region (R454). -/
def Dev.readDev (d : Dev) (off : Nat) : Word :=
  if off = 0x1000 then d.devStatus
  else if off = 0x1004 then d.host.bar4Base
  else if off = 0x1008 then wordOf [(0, bit d.host.windowErr), (1, bit d.host.windowPoison)]
  else if off = 0x100C then wordOf [(0, d.pins.faultCause.toNat), (8, d.pins.faultUnit.toNat), (16, bit d.pins.faultAtBoot)]
  else if off = 0x1010 then
    wordOf [(0, bit (match d.run.image with | some im => im.debug | none => false)), (1, bit d.run.hazard),
      (2, bit (d.run.hazard != d.run.hazardNext))]
  else if off = 0x1014 then BitVec.ofNat 32 d.pins.slew.toNat
  else if off = 0x1020 then tickConfigWord d.tick
  else if off = 0x1024 then tickStatusWord d.tick
  else if off = 0x1028 then d.tick.number.extractLsb' 0 32
  else if off = 0x102C then d.latched off (d.tick.number.extractLsb' 32 32)
  else if off = 0x1030 then BitVec.ofNat 32 d.tick.runTick
  else if off = 0x1034 then BitVec.ofNat 32 (d.tick.cycle % 2 ^ 26)
  else if off = 0x1038 then BitVec.ofNat 32 (d.tick.quietLast % 2 ^ 26)
  else if 0x1100 ≤ off ∧ off < 0x1120 then
    let p := d.peer.ports.toList.getD ((off - 0x1100) / 8) {}
    if off % 8 = 0 then p.word else p.errWord
  else if 0x1200 ≤ off ∧ off < 0x1240 then d.reduceWord ((off - 0x1200) / 4)
  else if 0x1400 ≤ off ∧ off < 0x1600 then
    let g := d.groups.toList.getD ((off - 0x1400) / 32) {}
    match off % 32 / 4 with
    | 0 => d.lgStatus g
    | 1 => BitVec.ofNat 32 g.counter
    | 2 => g.haloWord
    | 3 => g.ecWait
    | 4 => g.ecEcc
    | 5 => g.ecPwr
    | 6 => g.ecDrain
    | _ => 0
  else 0

def RingBlock.sqCtrl (r : RingBlock) : Word := wordOf [(0, bit r.sqEnable), (1, r.sqSize.toNat), (6, r.cqid.toNat)]
def RingBlock.cqCtrl (r : RingBlock) : Word :=
  wordOf [(0, bit r.cqEnable), (1, r.cqSize.toNat), (5, bit r.ie), (6, r.vector.toNat), (17, r.coal.toNat)]

/-- A ring block (R322, R455). The high words of the bases follow R6. -/
def Dev.readRing (d : Dev) (off : Nat) : Word :=
  let r := d.host.rings.toList.getD ((off - 0x10000) / 64) {}
  match off % 64 / 4 with
  | 0 => r.sqBase.extractLsb' 0 32
  | 1 => d.latched off (r.sqBase.extractLsb' 32 32)
  | 2 => r.sqCtrl
  | 3 => BitVec.ofNat 32 r.sqHead.toNat
  | 4 => r.cqBase.extractLsb' 0 32
  | 5 => d.latched off (r.cqBase.extractLsb' 32 32)
  | 6 => r.cqCtrl
  | 7 => wordOf [(0, r.cqTail.toNat), (12, bit r.phase)]
  | 8 => BitVec.ofNat 32 r.status.toNat
  | _ => 0

/-- A stream block (R356). -/
def Dev.readStream (d : Dev) (off : Nat) : Word :=
  let s := d.host.streams.toList.getD ((off - 0x11000) / 32) {}
  match off % 32 / 4 with
  | 0 => wordOf [(0, bit s.isOpen), (1, bit s.output), (2, s.cq.toNat), (8, bit s.dbErr)]
  | 1 => s.hostCount
  | 2 => s.devCount
  | 3 => wordOf [(0, s.starvedCount.toNat), (16, s.lappedCount.toNat)]
  | _ => 0

def Dev.readRings (d : Dev) (off : Nat) : Word :=
  if off < 0x11000 then d.readRing off
  else if off < 0x11800 then d.readStream off
  else if msixTableAt ≤ off ∧ off < msixTableAt + 16 * msixEntries then Store.read msixDefault d.host.msix ((off - msixTableAt) / 4)
  else if msixPbaAt ≤ off ∧ off < msixPbaAt + msixEntries / 8 then Store.read pbaDefault d.host.pba ((off - msixPbaAt) / 4)
  else 0

/-- Bytes of a log entry (R426). -/
def LogEntry.bytes (e : LogEntry) : List Byte :=
  leBytes 8 e.timestamp ++ leBytes 2 e.tick.toNat ++ [e.source, e.code] ++
  leBytes 4 (e.cycle.toNat + e.severity * 2 ^ 26 + e.run.toNat * 2 ^ 29) ++ (e.data ++ List.replicate (16 - e.data.length) 0)

/-- The entry at a log position, if it is retained (R431, R343). -/
def Log.entryAt (l : Log) (pos : Nat) : Option LogEntry := if pos < l.firstPos then none else l.entries[pos - l.firstPos]?

/-- The eight words that LOG_DATA0 to LOG_DATA7 show of a position. -/
def Log.words (l : Log) (pos : Nat) : List Word :=
  match l.entryAt pos with
  | some e => (List.range 8).map (fun k => BitVec.ofNat 32 (leAt e.bytes (4 * k) 4))
  | none => List.replicate 8 0

/-- The log window (R431, R456). LOG_DATA0 shows the entry that LOG_SELECT names; the others show the snapshot (R463). -/
def Dev.readLogRegs (d : Dev) (off : Nat) : Word :=
  let l := d.log
  if off = 0x30000 then wordOf [(0, l.alertSev.toNat), (3, bit l.alertEn), (4, l.msiSev.toNat), (7, bit l.msiEn), (8, l.vector.toNat)]
  else if off = 0x30004 then wordOf [(0, l.entries.length), (13, bit l.wrapped), (14, bit l.alert)]
  else if off = 0x30008 then BitVec.ofNat 32 l.next
  else if off = 0x3000C then BitVec.ofNat 32 l.ack
  else if off = 0x30010 then l.select
  else if off = 0x30020 then (l.words l.select.toNat).getD 0 0
  else if 0x30024 ≤ off ∧ off < 0x30040 then l.snapshot.getD ((off - 0x30020) / 4) 0
  else 0

/-- The power and thermal region (R393, R457). -/
def Dev.readPower (d : Dev) (off : Nat) : Word :=
  let p := d.power
  match (off - 0x40000) / 4 with
  | 0 => BitVec.ofNat 32 p.budget
  | 1 => BitVec.ofNat 32 p.floor
  | 2 => wordOf [(0, p.grant), (16, p.by_.toNat)]
  | 3 => wordOf [(0, p.package.toNat), (16, p.input.toNat)]
  | 4 => BitVec.ofNat 32 (p.planPeak % 65536)
  | 5 => BitVec.ofNat 32 p.events.toNat
  | 6 => p.quanta
  | 7 => BitVec.ofNat 32 p.limit.toNat
  | n =>
    if n < 13 then
      let die := n - 8
      let dram := fun k => (d.mem.stackOf.toList.getD (2 * die + k) {}).temperature.toNat
      wordOf [(0, (p.junction.getD die 0).toNat), (8, if die < 4 then max (dram 0) (dram 1) else 0)]
    else 0


/-- Interface class of an off-package lane: host, far tier, peer (R458). -/
def laneClass (n : Nat) : Nat := if n < 16 then 0 else if n < 32 then 1 else 2

/-- The link of an off-package lane: 0 the host port, 1 to 4 FP0 to FP3, under x16 FP0 for all its lanes, 5 to 8 PP0 to PP3 (R215, R357, R458). -/
def Dev.laneLink (d : Dev) (n : Nat) : Nat :=
  if n < 16 then 0 else if n < 32 then (if d.mem.farWidth then 1 + (n - 16) / 4 else 1) else 5 + (n - 32) / 8

/-- Whether a link of `laneLink` has trained: a peer port that trained to a wrong partner too (R358). -/
def Dev.linkTrained (d : Dev) (l : Nat) : Bool :=
  if l = 0 then d.host.linkWidth != 0 else if l < 5 then d.mem.farUp.getLsbD (l - 1)
  else (fun (p : Port) => p.wasUp || p.state == .conflict || p.state == .miswired) (d.peer.ports.toList.getD (l - 5) {})

/-- Tap changes of a lane since training (R393): those that have come in the time its loop has run since, saturating. -/
def Dev.adapts (d : Dev) (n : Nat) : Nat :=
  let from_ := d.clocks.eqTrained.getD (d.laneLink n) 0
  (List.range 65535).countP (fun k => decide (Config.eqTapTime n from_ k < d.eqRunning (laneClass n) - from_))

/-- EQ_LANEn (R393, R458): 0 before the lane has trained, then what its loop measures (log 81). -/
def Dev.eqLaneWord (d : Dev) (n : Nat) : Word :=
  if d.linkTrained (d.laneLink n) then
    wordOf [(0, Config.eqMeasure 0 n d.log.time % 256), (8, Config.eqMeasure 1 n d.log.time % 256), (16, d.adapts n)]
  else 0

/-- EQ_LINKl (R393): the margin and deskew that its loop measures (log 81), and the link's replays. -/
def Dev.eqLinkWord (d : Dev) (l : Nat) : Word :=
  wordOf [(0, Config.eqMeasure 0 (64 + l) d.log.time % 256), (8, Config.eqMeasure 3 (64 + l) (d.eqRunning 3) % 256)] |||
  Store.read eqDefault d.clocks.eqLink l

/-- The clocks and adaptive loops region (R393, R458). -/
def Dev.readClocks (d : Dev) (off : Nat) : Word :=
  let c := d.clocks
  if off = 0x50000 then BitVec.ofNat 32 (bit c.sscEn)
  else if off = 0x50004 then
    wordOf [(0, bit c.coreLock), (1, bit c.nucLock), (2, bit c.dramLock), (3, bit c.sscOn), (4, bit c.writeIgnored), (5, bit c.refclkLost)]
  else if off = 0x50008 then BitVec.ofNat 32 c.eqCtrl.toNat
  else if 0x50010 ≤ off ∧ off < 0x50030 then
    let i := (off - 0x50010) / 8
    if off % 8 = 0 then wordOf [(0, bit (c.pin.getD i false)), (8, (c.pinCode.getD i 0).toNat)]
    else wordOf [(0, (c.code.getD i 0).toNat), (7, bit (c.overridden.getD i false)), (8, (c.slack.getD i 0).toNat)]
  else if 0x50100 ≤ off ∧ off < 0x50200 then d.eqLaneWord ((off - 0x50100) / 4)
  else if 0x50200 ≤ off ∧ off < 0x50220 then d.eqLinkWord ((off - 0x50200) / 4)
  else 0

/-- PKE_STATUS (R417). -/
def Pke.status (p : Pke) : Word :=
  wordOf [(0, p.owner.code), (2, bit p.session.isSome), (3, (p.session.getD 0).toNat), (6, bit p.idleClosed), (8, p.last.toNat), (16, p.faults.toNat)]

/-- The security status region (R417, R459). -/
def Dev.readSec (d : Dev) (off : Nat) : Word :=
  let x := d.sec
  let policy : Byte := match x.owner with | some o => o.policy | none => 0
  match (off - 0x60000) / 4 with
  | 0 => wordOf [(0, x.bootSlot.toNat), (2, bit x.pufOk), (3, bit x.owner.isSome), (4, policy.toNat % 4), (6, x.drbg.toNat),
      (8, bit d.flash.sanitize.isSome)]
  | 1 => x.fwSvn
  | 2 => match d.run.image with | some im => im.securityVersion | none => 0
  | 3 => d.pke.status
  | 4 => wordOf [(0, x.reseeds.toNat), (16, bit x.rctFail), (17, bit x.aptFail)]
  | _ => 0

/-- A die that a link that is down, or has not trained, cuts off from the Nucleus (R14, R464). -/
def Dev.dieCut (d : Dev) (die : Nat) : Bool := d.run.state == .faulted && d.clocks.linksDown.contains (4 + die)

/-- A channel block (R223, R460). -/
def Dev.readChannel (d : Dev) (off : Nat) : Word :=
  let n := (off - 0x100000) / 1024
  let c := d.mem.channel n
  if d.dieCut (n / 64) then 0
  else match off % 1024 / 4 with
    | 0 => wordOf [(0, c.state.toNat), (2, bit c.extended), (3, bit c.accOvf), (4, bit c.accFp), (16, c.retiredHits.toNat)]
    | 1 => wordOf [(0, c.ce.toNat), (24, c.ue.toNat)]
    | 2 => wordOf [(0, c.errPage.toNat), (16, c.errSector.toNat), (24, c.errKind.toNat)]
    | 3 => wordOf [(0, min c.lastServed 65535), (16, min c.hotTicks 65535)]
    | 4 => wordOf [(0, c.tgPattern.toNat), (4, bit c.tgBusy), (16, c.tgSeed.toNat)]
    | 5 => wordOf [(0, c.tgMismatch.toNat), (24, c.tgPasses.toNat)]
    | _ => 0

/-- FAR_STATUS (R223). -/
def Mem.farStatus (m : Mem) : Word :=
  wordOf [(0, m.farUp.toNat), (4, bit m.farWidth), (5, bit m.farInterleaved), (6, bit m.farSlow), (16, min (m.farUnits.sum) 16384)]

/-- The memory-global registers (R223, R460). -/
def Dev.readMem (d : Dev) (off : Nat) : Word :=
  let m := d.mem
  match (off - 0x140000) / 4 with
  | 8 => BitVec.ofNat 32 (m.refreshPinNext.getD m.refreshPin).toNat
  | 9 => wordOf [(0, packNat 1 (fun s => bit (m.stackOf.toList.getD s {}).extended) 8), (8, bit m.overridden)]
  | 10 => BitVec.ofNat 32 (bit (m.transitPinNext.getD m.transitPin))
  | 11 => wordOf [(0, m.remap.length), (15, bit (decide (16384 ≤ m.remap.length))), (16, m.hot.toNat), (24, bit m.hotValid)]
  | 12 => m.farStatus
  | 13 => BitVec.ofNat 32 m.keyPages
  | n => if n < 8 then wordOf [(0, (m.hashRows.getD n 0).toNat), (16, bit m.hashScopeShown)] else 0

/-- Bits of a KRT entry (R179). -/
def KrtEntry.bits (e : KrtEntry) : Nat :=
  e.keyset.toNat + e.kind.toNat * 2 ^ 32 + e.galois.toNat * 2 ^ 36 + e.digit.toNat * 2 ^ 54 + e.valid.toNat * 2 ^ 58 + e.far.toNat * 2 ^ 59 +
  e.channel.toNat * 2 ^ 64 + e.page.toNat * 2 ^ 72 + e.pages.toNat * 2 ^ 100

def Keys.words (k : Keys) (i : Nat) : List Word :=
  match k.entry i with
  | some e => (List.range 4).map (fun n => BitVec.ofNat 32 (field e.bits (32 * n) 32))
  | none => [0, 0, 0, 0]

/-- KSU_STATUS (R195). TAIL_BUSY is 1 from a fill's passed header to its landing, and while an expansion that has started has not landed (DESIGN CHOICE,
log 89: the spec says only that the tail is generating). -/
def Dev.ksuStatus (d : Dev) (die : DieId) : Word :=
  let ts := (allTiles.filter (fun t => dieOf t == die)).map d.tile
  let xs := ts.flatMap (·.expands)
  let fills := (d.ksu die).fills
  wordOf [(0, fills.length), (8, ((ts.map (fun t => t.rings.toList.countP (·.armed))).sum)),
    (15, bit (fills.any (·.checked.isSome) || xs.any (·.started.isSome))), (16, min xs.length 63)]

def Ksu.flags (k : Ksu) : Word :=
  wordOf [(0, bit k.late), (1, bit k.mismatch), (2, bit k.ueHeader), (3, bit k.ueData), (4, bit k.farFetch)]

/-- The KSU and KRT window (R195, R461). KRT_DATA0 shows the entry that KRT_SELECT names; the others show the snapshot (R463). -/
def Dev.readKeyRegs (d : Dev) (off : Nat) : Word :=
  if off < 0x200400 then
    let die := (off - 0x200000) / 256
    let k := d.ksu (BitVec.ofNat 2 die)
    if d.dieCut die then 0
    else match off % 256 / 4 with
      | 0 => d.ksuStatus (BitVec.ofNat 2 die)
      | 1 => k.flags
      | 2 => k.lateCount
      | _ => 0
  else if off = 0x201000 then BitVec.ofNat 32 d.keys.select.toNat
  else if off = 0x201010 then (d.keys.words d.keys.select.toNat).getD 0 0
  else if 0x201014 ≤ off ∧ off < 0x201020 then d.keys.snapshot.getD ((off - 0x201010) / 4) 0
  else if off = 0x201020 then BitVec.ofNat 32 d.keys.used
  else 0

/-- Word k of the register region of a tile (R462), at pipeline cycle `pipe`. -/
def Tile.word (t : Tile) (pipe k : Nat) : Word :=
  match k with
  | 0 => haltAddrWord t
  | 1 => haltReasonWord t
  | 2 => t.haltSched
  | 4 => t.mveFlags
  | 5 => tuStatusWord t pipe
  | 6 => t.tu.count
  | 8 => nmaStatusWord t pipe
  | 9 => t.nma.flags
  | 10 => t.sent.applyWrites.ctrl
  | 11 => t.sent.applyWrites.thresh
  | 12 => t.sent.t
  | 13 => t.sent.seed
  | 14 => sentEventsWord t
  | 32 => scrFlagsWord t
  | 33 => scrEccWord t
  | 34 => scrErrWord t
  | 35 => BitVec.ofNat 32 t.segments.toNat
  | 36 => dmaStatusWord t
  | 37 => dmaErrWord t
  | 38 => t.dma.count
  | _ =>
    if 16 ≤ k ∧ k < 25 then nmaBlkWord t (k - 16)
    else if 40 ≤ k ∧ k < 44 then ringStatusWord (t.rings.toList.getD (k - 40) {})
    else if 64 ≤ k ∧ k < 128 then BitVec.ofNat 32 (t.arrival.toList.getD (k - 64) 0).toNat
    else 0

/-- Pipeline cycle of a tile's group. -/
def Dev.pipeOf (d : Dev) (t : TileId) : Nat := match d.groupOf t with | some g => (d.group g).pipe | none => 0

/-- A tile as its registers show it: a tile outside the TILE_MASK of a loaded image shows reset values (R464). -/
def Dev.shownTile (d : Dev) (t : TileId) : Tile := if d.run.image.isSome && !d.inImage t then {} else d.tile t

/-- The tile regions (R462). -/
def Dev.readTile (d : Dev) (off : Nat) : Word :=
  let t := BitVec.ofNat 6 ((off - 0x1000000) / 0x40000)
  let k := off % 0x40000 / 4
  if 128 ≤ k ∨ d.dieCut (dieOf t).toNat then 0 else (d.shownTile t).word (d.pipeOf t) k

/-- The regions that answer only after channel initialisation: once boot step 6 has completed (R464). -/
def Dev.regionsUp (d : Dev) : Bool := d.run.state != .boot || d.booting.any (fun b => decide (6 < b.step))

/-- The value a 32-bit read of BAR0 returns (R452 to R464). -/
def Dev.readReg (d : Dev) (off : Nat) : Word :=
  if off < 0x1000 then d.readId off
  else if off < 0x10000 then d.readDev off
  else if 0x60000 ≤ off ∧ off < 0x100000 then d.readSec off
  else if !d.regionsUp then 0
  else if off < 0x30000 then d.readRings off
  else if off < 0x40000 then d.readLogRegs off
  else if off < 0x50000 then d.readPower off
  else if off < 0x60000 then d.readClocks off
  else if off < 0x140000 then d.readChannel off
  else if off < 0x200000 then d.readMem off
  else if off < 0x1000000 then d.readKeyRegs off
  else if off < 0x2000000 then d.readTile off
  else 0

/-- Offsets whose register holds the low word of a wider value (R6): TICK_NUMBER_LO, and SQ_BASE_LO and CQ_BASE_LO of every ring block. -/
def lowWord (off : Nat) : Bool :=
  off == 0x1028 || (decide (0x10000 ≤ off) && decide (off < 0x11000) && (off % 64 == 0 || off % 64 == 0x10))

/-- The high word beside a low one, as it stands. -/
def Dev.highWord (d : Dev) (off : Nat) : Word := ({ d with host := { d.host with latches := [] } } : Dev).readReg (off + 4)

/-- A read of KRT_DATA0 or LOG_DATA0 takes a snapshot of the entry selected (R463, R431). -/
def Dev.snap (d : Dev) (off : Nat) : Dev :=
  if !d.regionsUp then d
  else if off = 0x201010 then { d with keys := { d.keys with snapshot := d.keys.words d.keys.select.toNat } }
  else if off = 0x30020 then { d with log := { d.log with snapshot := d.log.words d.log.select.toNat } }
  else d

/-- A 32-bit read of BAR0: the value is returned, beside a low word the high word latched (R6), and of an entry's first word the entry kept
(R463). A read at another offset changes nothing (R355). -/
def Dev.readWord (d : Dev) (off : Nat) : Dev :=
  let r := d.emit (.read off (d.readReg off))
  if lowWord off then
    { r with host := { r.host with latches := Store.write (fun _ => none) d.host.latches (off + 4) (some (d.highWord off)) } }
  else r.snap off

/-- LOW_WORD_READ and the other reads of BAR0 and BAR2 (R6, R319, R324). A read of the BAR4 size control is configuration space: it drives nothing
(log 82). -/
def execLowWordRead (a : Access) (s : State) : Host.Outcome State Fault Refusal :=
  s.act (fun d => d.unlessTripped fun d =>
    match a.bar with
    | .bar4Size => d
    | .bar0 => if a.ok then d.readWord a.offset.toNat else d.emit .unsupported
    | .bar2 => if a.ok then d.emit (.doorbellRead a.offset.toNat 0) else d.emit .unsupported)

/-- KRT_DATA0_READ (R463). -/
def execKrtData0Read (s : State) : Host.Outcome State Fault Refusal :=
  s.act (fun d => d.unlessTripped fun d => d.readWord 0x201010)

/-- LOG_DATA0_READ (R463, R431). -/
def execLogData0Read (s : State) : Host.Outcome State Fault Refusal :=
  s.act (fun d => d.unlessTripped fun d => d.readWord 0x30020)

end Sys2Proof.Machine
end

