-- ==== Sys2Proof/Machine/HostCmds.lean ====
section
/-! DEFINITION. Commands on the device as a whole (14 R335, R341, R343; 09 R203, R213, R214; 10 R227): IDENTIFY, GET_FEATURES, SET_TICK,
READ_LOG, CLEAR_LOG, CHANNEL_TEST and its end, SET_HASH. -/

namespace Sys2Proof.Machine

/-- Text in ASCII, zero-padded to n bytes. -/
def asciiField (n : Nat) (text : List Byte) : List Byte := (text ++ List.replicate n 0).take n

/-- "HX-9640-M50". -/
def partNumber : List Byte := [0x48, 0x58, 0x2D, 0x39, 0x36, 0x34, 0x30, 0x2D, 0x4D, 0x35, 0x30]

/-- The reply of IDENTIFY (R335). -/
def Dev.identity (d : Dev) : List Byte :=
  asciiField 16 partNumber ++ [0xA1, d.pins.moduleId.setWidth 8, d.host.linkWidth.setWidth 8, d.host.linkRate.setWidth 8] ++
  leBytes 4 d.runningVersion.toNat ++ leBytes 4 d.sec.fwSvn.toNat ++ asciiField 36 Config.serialNumber ++ List.replicate 64 0

/-- IDENTIFY (R335). -/
def execIdentify (c : Packet) (s : State) : Host.Outcome State Fault Refusal :=
  s.act (fun d => d.command c 0x01 { valid := c.fieldsOk none (some 128) 0 }
    (fun d f => (d.emit (.reply c.replyPtr d.identity)).complete f false .ok noDetail))

/-- The 256 bytes of the identity and feature region (R335, R453). -/
def Dev.features (d : Dev) : List Byte := (List.range 64).flatMap (fun k => leBytes 4 (d.readReg (4 * k)).toNat)

/-- GET_FEATURES (R335). -/
def execGetFeatures (c : Packet) (s : State) : Host.Outcome State Fault Refusal :=
  s.act (fun d => d.command c 0x02 { valid := c.fieldsOk none (some 256) 0 }
    (fun d f => (d.emit (.reply c.replyPtr d.features)).complete f false .ok noDetail))

/-- A tick period of R224. -/
def periodOk (p : Nat) : Bool := decide (40000 ≤ p) && decide (p ≤ 40000000) && p % 8000 == 0

/-- SET_TICK (R227, R341). -/
def execSetTick (c : Packet) (s : State) : Host.Outcome State Fault Refusal :=
  s.act (fun d => d.command c 0x24
    { valid := c.fieldsOk none none (3 + inlBytes 4 4) && periodOk (c.inl 4 4)
      busy := d.hasJob (fun k => match k with | .setTick => true | _ => false) }
    (fun d f =>
      let declared := match d.run.image with | some im => c.inl 4 4 == im.period | none => true
      if !declared then d.complete f false .badParam noDetail
      else ({ d with tick := { d.tick with next := some (c.inl 4 4, (c.inl 0 1).testBit 0, (c.inl 0 1).testBit 1) } }).becomePending f .setTick))

/-- READ_LOG (R343). -/
def execReadLog (c : Packet) (s : State) : Host.Outcome State Fault Refusal :=
  s.act (fun d => d.command c 0x50
    { valid := c.fieldsOk none (some (32 * c.inl 4 2)) (inlBytes 0 6) && decide (1 ≤ c.inl 4 2) && decide (c.inl 4 2 ≤ 4096) }
    (fun d f =>
      let l := d.log
      let start := max (c.inl 0 4) l.firstPos
      let n := min (c.inl 4 2) (l.next - start)
      let entries := (l.entries.drop (start - l.firstPos)).take n
      (d.emit (.reply c.replyPtr (entries.flatMap LogEntry.bytes))).complete f false .ok (detailOf [(0, n), (4, start), (8, start + n)])))

/-- CLEAR_LOG (R343): positions go on; nothing is left to acknowledge. -/
def execClearLog (c : Packet) (s : State) : Host.Outcome State Fault Refusal :=
  s.act (fun d => d.command c 0x51 { valid := c.fieldsOk none none 0 }
    (fun d f => ({ d with log := { d.log with entries := [], ack := d.log.next, lost := [] } }).complete f false .ok noDetail))

/- CHANNEL_TEST (R213, R214, R341). -/

def testMask (b : List Byte) : BitVec 256 := BitVec.ofNat 256 (leAt b 0 32)
def testPattern (b : List Byte) : Nat := byteAt b 32
def testFirst (b : List Byte) : Nat := leAt b 36 4
def testPages (b : List Byte) : Nat := leAt b 40 4

/-- Patterns 2 to 6 write (R213). -/
def destructive (pattern : Nat) : Bool := decide (2 ≤ pattern) && decide (pattern ≤ 6)

/-- Ranges of the parameter block (R341). -/
def testBlockOk (b : List Byte) : Bool :=
  let seed := leAt b 44 4
  let count := leAt b 48 4
  b.length == 64 && testMask b != 0 && decide (1 ≤ testPattern b) && decide (testPattern b ≤ 7) && leAt b 33 3 == 0 && leAt b 52 12 == 0 &&
  decide (testFirst b < 40960) && decide (1 ≤ testPages b) && decide (testPages b ≤ 40960 - testFirst b) && decide (seed < 2 ^ 31) &&
  (seed != 0 || !(testPattern b == 5 || testPattern b == 6)) &&
  (if testPattern b = 7 then decide (1 ≤ count) && decide (count ≤ 65535) else count == 0)

/-- A VALID near-tier run has a page in the range (R213). -/
def Keys.runInRange (k : Keys) (mask : BitVec 256) (first pages : Nat) : Bool :=
  k.valid.any (fun e => !e.far && (List.range e.pages.toNat).any (fun i =>
    let x := e.linear + i
    mask.getLsbD (x % 256) && decide (first ≤ x / 256) && decide (x / 256 < first + pages)))

/-- A channel as its test begins: TEST, the pattern, and the seed in use. -/
def Channel.beginTest (c : Channel) (pattern seed : Nat) : Channel :=
  { c with state := 3, tgBusy := true, tgPattern := BitVec.ofNat 4 pattern, tgMismatch := 0, tgPasses := 0
           tgSeed := if pattern = 5 ∨ pattern = 6 then BitVec.ofNat 16 seed else c.tgSeed }

/-- A change of the channels that a mask names. -/
def Mem.onMask (m : Mem) (mask : BitVec 256) (f : Nat → Channel → Channel) : Mem :=
  { m with channels := Vector.ofFn (fun n : Fin 256 => if mask.getLsbD n.val then f n.val m.channels[n] else m.channels[n]) }

/-- CHANNEL_TEST (R213, R341). -/
def execChannelTest (c : Packet) (block : HostRead) (s : State) : Host.Outcome State Fault Refusal :=
  s.act (fun d => d.command c 0x60
    { valid := c.fieldsOk (some 64) none 0 && (match block with | some b => testBlockOk b | none => false), busy := d.testing }
    (fun d f => match block with
      | none => d
      | some b =>
        if destructive (testPattern b) && d.keys.runInRange (testMask b) (testFirst b) (testPages b) then d.complete f false .badParam noDetail
        else
          (d.onMem (fun m => m.onMask (testMask b) (fun _ x => x.beginTest (testPattern b) (leAt b 44 4)))).becomePending f
            (.channelTest (testMask b) (BitVec.ofNat 8 (testPattern b)) (testFirst b) (testPages b) (leAt b 48 4))))

/-- Requests that a test makes of each sector, reads and writes together (R213). -/
def testRequests (pattern count : Nat) : Nat :=
  match pattern with
  | 1 => 1
  | 3 => 4
  | 7 => count
  | _ => 2

/-- Requests of a test to retired pages of channel n (R207). -/
def Mem.testHits (m : Mem) (n pattern first pages count : Nat) : Nat :=
  113 * testRequests pattern count *
    (m.retiredNear.eraseDups.filter (fun p => pageChannel p == n && decide (first ≤ pageLocal p) && decide (pageLocal p < first + pages))).length

/-- What uncorrectable codewords a channel's test has met: each poisoned in place, counted, recorded and logged (R206, R432). What its writes
leave is undefined anyway. -/
def Dev.testUe (d : Dev) (r : TestResult) (first pages : Nat) : Dev :=
  r.ue.foldl (fun d e =>
    let p := physPage r.channel.toNat e.1
    if first ≤ e.1 ∧ e.1 < first + pages ∧ e.2.1 < 113 ∧ !d.mem.retiredNear.contains p then d.memUe p e.2.1 e.2.2 else d) d

/-- What one channel's test leaves (R214, R205). Its own traffic does not count among the sectors served of R219 (DESIGN CHOICE, log 89). Where it has met uncorrectable codewords too, CH_ERR shows the mismatch (DESIGN CHOICE, log 3). -/
def Channel.endTest (c : Channel) (sec : Nat) (r : Option TestResult) : Channel :=
  let c : Channel := { c with state := 2, tgBusy := false }
  match r with
  | none => c
  | some r =>
    let c : Channel := if c.ceSec = sec then c else { c with ceSec := sec, ceSecond := 0, ceLogged := false }
    let c : Channel := { c with ce := satAdd c.ce r.ce.toNat, ceSecond := c.ceSecond + r.ce.toNat
                                tgMismatch := r.mismatches, tgPasses := r.passes }
    if r.mismatches = 0 then c else { c with errPage := r.firstPage, errSector := r.firstSector, errKind := 3 }

/-- What channel n's test has found, of what the sender names: a pattern that compares nothing finds no mismatch, and the passes are the pattern's (R213);
of BANDWIDTH's, what the 8 bits of PASSES hold. -/
def testResult (pattern count n : Nat) (results : List TestResult) : TestResult :=
  let r : TestResult := (results.find? (fun r => r.channel.toNat == n)).getD ⟨0, 0, 0, [], 0, 0, 0⟩
  { r with channel := BitVec.ofNat 8 n, mismatches := if destructive pattern then r.mismatches else 0
           passes := BitVec.ofNat 8 (min 255 (testRequests pattern count)) }

/-- The end of the last channel's test (R213, R214, R341). -/
def Dev.testDone (d : Dev) (sent : List TestResult) (micros : Word) : Dev :=
  match d.host.jobs.find? (fun j => match j.kind with | .channelTest .. => true | _ => false) with
  | none => d
  | some j => match j.kind with
    | .channelTest mask pattern first pages count =>
      let results := ((List.range 256).filter (fun n => mask.getLsbD n)).map (fun n => testResult pattern.toNat count n sent)
      let found := results.filter (fun r => r.mismatches != 0)
      let sec := d.log.time / 80000000000000
      let d := results.foldl (fun d r => d.testUe r first pages) d
      let d := d.onMem (fun m => m.onMask mask (fun n x => ({ x with retiredHits := satAdd x.retiredHits (m.testHits n pattern.toNat first pages count) }).endTest
        sec (some (testResult pattern.toNat count n sent))))
      let d := if destructive pattern.toNat then d.onMem (fun m => m.forgetTested mask first pages false) else d
      d.finish j .ok (detailOf [(0, found.length), (4, min ((found.map (fun r => r.mismatches.toNat)).sum) (2 ^ 32 - 1)),
        (8, micros.toNat)])
    | _ => d

/-- CHANNEL_TEST_COMPLETE (R341). -/
def execChannelTestComplete (results : List TestResult) (micros : Word) (s : State) : Host.Outcome State Fault Refusal :=
  s.event (fun d => d.testDone results micros)

/- SET_HASH (R203, R341). -/

/-- A bind or a stage into the near tier is pending (R203). -/
def Dev.nearCopies (d : Dev) : Bool :=
  d.hasJob (fun k => match k with | .bind _ far _ _ _ _ => !far | .stage _ far _ _ => !far | _ => false)

/-- SET_HASH: KEY_PAGES at once, seed and scope at the next load (R203). What the data region held is undefined wherever it lies now (log 3). -/
def execSetHash (c : Packet) (s : State) : Host.Outcome State Fault Refusal :=
  s.act (fun d =>
    let pages := c.inl 12 4
    let changed := pages != d.mem.keyPages
    d.command c 0x61
      { valid := c.fieldsOk none none (inlBytes 0 8 + 2 ^ 64 + inlBytes 12 4) && pages % 1024 == 0 && decide (pages ≤ 32768)
        condition := !(changed && d.keys.valid.any (fun e => !e.far))
        busy := d.testing || (changed && d.nearCopies) }
      (fun d f =>
        let m := if changed then ({ d.mem with keyPages := pages }).forgetData (40960 - min pages d.mem.keyPages) else d.mem
        ({ d with mem := { m with hashNext := some (BitVec.ofNat 64 (c.inl 0 8), (c.inl 8 1).testBit 0) } }).complete f false .ok noDetail))

end Sys2Proof.Machine
end

