-- ==== Sys2Proof/Machine/Identity.lean ====
section
/-! DEFINITION. The identity of the module (17 R397 to R399): the secrets of the boot ROM, the keys derived from them, the alias certificate, and
the erasure before firmware starts. -/

namespace Sys2Proof.Machine

/-- The bytes of a slot that its signature covers (R394). -/
def FwSlot.signed (f : FwSlot) : List Byte := Config.fwSlotBytes f.image f.version.toNat f.key

/-- The test of R394: the key hashes to a digest of the boot ROM, and the signature over every earlier byte of the slot verifies. -/
def FwSlot.verifies (f : FwSlot) : Bool :=
  (Config.fwKeyDigests.take 4).contains (sha384 (Config.fwKeyBytes f.key)) && p384.on f.key.1 f.key.2 &&
  p384.verifies (beNat (sha384 f.signed)) f.key f.r f.s

/-- The measurement of a firmware slot: SHA-384 of it (R398, R401). The bytes of the signature are PRESUMED r, then s (log 12). -/
def FwSlot.measurement (f : FwSlot) : List Byte := sha384 (f.signed ++ beBytes 48 f.r ++ beBytes 48 f.s)

/-- Step 2 of R397: the fuzzy extractor gives a UDS from the PUF's response and the helper data. -/
def Flash.extract (f : Flash) (response : List Byte) : List Byte := Config.fuzzyExtract response f.pufHelper

/-- Step 3 of R397: the UDS is checked against the digest stored with the helper data. -/
def Flash.pufOk (f : Flash) (response : List Byte) : Bool := sha384 (f.extract response) == f.pufDigest

/-- The UDS that has passed the check (R397). -/
def Sec.reconstruct (x : Sec) (uds : List Byte) : Sec := { x with pufOk := true, uds := some uds }

/-- DeviceID: the key pair from the UDS and the measurement of the boot ROM (R398). -/
def Sec.deriveDevice (x : Sec) : Sec :=
  match x.uds with
  | some u =>
    { x with devicePrivate := some (deviceKey u), devicePublic := some (publicKey (deviceKey u)) }
  | none => x

/-- Alias: the CDI from the UDS and the measurement of the chosen slot, then the alias key from the CDI (R398). -/
def Sec.deriveAlias (x : Sec) (slot : FwSlot) : Sec :=
  match x.uds with
  | some u =>
    let c := kdf u (Config.kdfLabel 1) slot.measurement 48
    { x with cdi := some c, aliasPrivate := some (kdfScalar c (Config.kdfLabel 2) []) }
  | none => x

/-- A signature of SHA-384 of a message, with the per-message number of FIPS 186-5. -/
def signed384 (d : Nat) (message : List Byte) (k : Nat) : Nat × Nat := p384.sign (beNat (sha384 message)) d (k % (p384.n - 1) + 1)

/-- The alias certificate: signed with the DeviceID private key, with measurement, slot and SECURITY_VERSION in its TcbInfo (R398). -/
def Sec.issueAlias (x : Sec) (n : Nat) (slot : FwSlot) : Sec :=
  match x.devicePrivate, x.devicePublic, x.aliasPrivate with
  | some d, some issuer, some a =>
    let tbs := Config.aliasTbs issuer (publicKey a) slot.measurement n slot.version.toNat
    let g := signed384 d tbs (Config.romNonce d tbs)
    { x with aliasCert := Config.certificate tbs g.1 g.2 }
  | _, _, _ => x

/-- Erasure: the UDS, the CDI and the DeviceID private key are zeroized before firmware starts (R398). -/
def Sec.erase (x : Sec) : Sec := { x with uds := none, cdi := none, devicePrivate := none }

/-- The boot ROM's layers for the chosen slot (R397, R398). -/
def Sec.layers (x : Sec) (uds : List Byte) (n : Nat) (slot : FwSlot) : Sec := ((((x.reconstruct uds).deriveDevice).deriveAlias slot).issueAlias n slot).erase

/-- The ROM's work when no slot is accepted: the DeviceID layer alone, and nothing secret is left (R395; log 83). -/
def Sec.noLayers (x : Sec) (uds : List Byte) : Sec := (x.reconstruct uds).deriveDevice.erase

/-- SPDM certificate slot 0: the certificates of module flash in their order, with the alias certificate appended (R399). -/
def Sec.chain (x : Sec) (f : Flash) : List Byte := f.rootCert ++ f.intermediateCert ++ f.deviceCert ++ x.aliasCert

/-- A signature with the alias key over a message: r, then s (R400; log 15). -/
def Sec.aliasSign (x : Sec) (message : List Byte) (k : Nat) : List Byte :=
  let g := signed384 (x.aliasPrivate.getD 0) message k
  beBytes 48 g.1 ++ beBytes 48 g.2

end Sys2Proof.Machine
end

