-- ==== Sys2Proof/Machine/Image.lean ====
section
/-! DEFINITION. LOAD_IMAGE (11 R260, R264, R265, 14 R336): relocation, the image as it will stand, its application. -/

namespace Sys2Proof.Machine

/-- The registers, accumulators and scratchpad of a tile at 0, with segments `m` powered (R56, R106, R147, R168, R265). What a run left in
flight is gone. -/
def Tile.zeroed (t : Tile) (m : BitVec 8) : Tile :=
  let fresh : Tile := {}
  let nma : Nma := { t.nma with op := none, tails := [], dsm := none, closes := [], acc := [], accInt := false, accSmall := false, xr := Vector.replicate 9 0, outbox := [] }
  { t with
    v := fresh.v, k := fresh.k, s := fresh.s, a := fresh.a, l := fresh.l, loops := fresh.loops, h := fresh.h, scratch := [], segments := m
    arrival := fresh.arrival, nma := nma, tu := { t.tu with op := none }, pads := fresh.pads, rings := t.rings.map Ring.flush, expands := []
    dma := { t.dma with queues := fresh.dma.queues, descriptors := [] }, scrCe := false, ueForwarded := false, poisonLatch := false, arrivalSat := false
    arrivalLeftover := false, ceEngine := 0, ceOther := 0, pend := [], holds := [], flights := [], reads := [], dueHalts := [], named := 0
    done := false, arriving := [], taken := [], ceRows := [] }

/-- The halt registers cleared (R272). -/
def Tile.clearHalt (t : Tile) : Tile :=
  { t with halted := false, haltReason := .none, haltMore := false, haltSeq := 0, haltAddr := 0, haltSlot := 0, haltAsync := false, haltSched := 0
           haltRank := 0, haltIssue := 0, haltFresh := false }

/-- Sentinel registers as the image gives them (R127). -/
def Tile.loadSentinel (t : Tile) (ctrl thresh seed : Word) : Tile :=
  { t with sent := { ({ t.sent with ctrlNext := some ctrl, threshNext := some thresh } : Sentinel).applyWrites with seed := seed, sample := none } }

/- Targets of relocations and patches (R259): units of a tile's memories. -/

def targetBytes (target : Nat) : Nat := ([16, 64, 32, 576] : List Nat).getD target 1

def Tile.targetUnit (t : Tile) (target u : Nat) : Nat :=
  match target with
  | 0 => (Store.read bundleDefault t.imem u).toNat
  | 1 => (Store.read (fun _ => 0) t.dma.descriptors u).toNat
  | 2 => (Store.read (fun _ => 0) t.streams u).toNat
  | _ => (t.rowAt u).data.toNat

def Tile.setTargetUnit (t : Tile) (target u x : Nat) : Tile :=
  match target with
  | 0 => { t with imem := Store.write bundleDefault t.imem u (BitVec.ofNat 128 x) }
  | 1 => { t with dma := { t.dma with descriptors := Store.write (fun _ => 0) t.dma.descriptors u (BitVec.ofNat 512 x) } }
  | 2 => { t with streams := Store.write (fun _ => 0) t.streams u (BitVec.ofNat 256 x) }
  | _ => t.setRow u { data := BitVec.ofNat 4608 x }

/-- The image as it stands while relocations and patches are applied. -/
structure Work where
  tiles : Vector Tile 64
  halo : Nat
  keysets : Nat

/-- x with its 64 bits from byte `off` on replaced by v. -/
def splice (x off v : Nat) : Nat := x - fb x off 8 * 2 ^ (8 * off) + v * 2 ^ (8 * off)

/-- The 64-bit value that an entry's field lies in, and its replacement (R259). A field may straddle two units. -/
def Work.get (w : Work) (e : Entry) : Nat :=
  if e.target = 4 then fb w.halo e.offset 8
  else if e.target = 5 then fb w.keysets e.offset 8
  else
    let n := targetBytes e.target
    let t := w.tiles[e.tile.toNat]
    fb (t.targetUnit e.target (e.offset / n) + t.targetUnit e.target (e.offset / n + 1) * 2 ^ (8 * n)) (e.offset % n) 8

def Work.set (w : Work) (e : Entry) (v : Nat) : Work :=
  if e.target = 4 then { w with halo := splice w.halo e.offset v }
  else if e.target = 5 then { w with keysets := splice w.keysets e.offset v }
  else
    let n := targetBytes e.target
    let u := e.offset / n
    let t := w.tiles[e.tile.toNat]
    let y := splice (t.targetUnit e.target u + t.targetUnit e.target (u + 1) * 2 ^ (8 * n)) (e.offset % n) v
    let t := t.setTargetUnit e.target u (y % 2 ^ (8 * n))
    { w with tiles := w.tiles.set e.tile.toNat (if n < e.offset % n + 8 then t.setTargetUnit e.target (u + 1) (y / 2 ^ (8 * n)) else t) }

/-- Entries applied in order: the field becomes `f` of the entry's index and its old value, which must stay below 2^WIDTH (R260). -/
def Work.applyAll (f : Nat → Nat → Nat) : List Entry → Work → Checked Work
  | [], w => .ok w
  | e :: es, w =>
    let v := w.get e
    let old := field v e.lsb e.width
    let new := f e.index old
    if new < 2 ^ e.width then (w.set e (v - old * 2 ^ e.lsb + new * 2 ^ e.lsb)).applyAll f es else .error (8, e.start)

/- The parameter block (R336). -/
def loadLen (b : Nat) : Nat := fb b 8 4
def loadRegions (b : Nat) : Nat := fb b 12 2
def loadParams (b : Nat) : Nat := fb b 14 2
def loadBase (b r : Nat) : Nat := fb b (16 + 8 * r) 8
def loadValue (b k : Nat) : Nat := fb b (16 + 8 * (loadRegions b + k)) 8

def loadBlockOk (block : HostRead) (paramLen : Nat) : Bool :=
  match block with
  | some bs =>
    let b := leNat bs
    bs.length == paramLen && decide (16 ≤ paramLen) && decide (loadRegions b ≤ 64) && decide (loadParams b ≤ 256) &&
    paramLen == 16 + 8 * (loadRegions b + loadParams b) && fb b 0 8 % 64 == 0 &&
    (List.range (loadRegions b)).all (fun r => decide (loadBase b r < 2 ^ 40))
  | none => false

/-- Tiles with an image's programs, constants and owner tables placed, before relocation (R265 steps 1 to 5). -/
def placeTile (x : Nat) (progs : List TileProg) (consts : List Const) (owners : List OwnerDecl) (t : TileId) (old : Tile) : Tile :=
  let mine := fun kind => (constUnits consts x kind).filter (fun u => u.1 == t.toNat)
  let base := (if (imgMask x).getLsbD t.toNat then old.zeroed (BitVec.ofNat 8 (imgSegments x t)) else { old with scratch := [], segments := 0 }).clearHalt
  let base : Tile := match progs.find? (fun p => p.tile == t) with
    | some p =>
      { base with imem := Store.ofFn bundleDefault p.bundles (fun k => BitVec.ofNat 128 (fb x (p.start + 16 + 16 * k) 16)) }.loadSentinel
        (BitVec.ofNat 32 (fb x (p.start + 4) 4)) (BitVec.ofNat 32 (fb x (p.start + 8) 4)) (BitVec.ofNat 32 (fb x (p.start + 12) 4))
    | none => { base with imem := [] }
  { base with
    scratch := (mine 1).foldl (fun m u => Store.write rowDefault m u.2.1 { data := BitVec.ofNat 4608 u.2.2.1 }) []
    dma := { base.dma with
      descriptors := (mine 2).foldl (fun m u => Store.write (fun _ => 0) m u.2.1 (BitVec.ofNat 512 u.2.2.1)) []
      owners := ownersOf owners t }
    streams := (mine 3).foldl (fun m u => Store.write (fun _ => 0) m u.2.1 (BitVec.ofNat 256 u.2.2.1)) [] }

/-- A region's base leaves it within its space (R260). -/
def regionFits (m : Mem) (x b r : Nat) : Bool :=
  if regionFar x r then decide (loadBase b r + regionLen x r ≤ 113 * m.farPages) else decide (loadBase b r + regionLen x r ≤ m.nearMax + 1)

/-- What stays of the image, with halo declaration `h` and key-set list `ks` as they stand (R262, R265). -/
def imageOf (x h ks b : Nat) (measurement : List Byte) : Image :=
  let im : Image :=
    { tileMask := imgMask x, debug := (fb x 6 2).testBit 0, poisonHalt := imgPoisonHalt x, overflowHalt := (fb x 6 2).testBit 2
      skip := haloSkip h, period := haloPeriod h, securityVersion := BitVec.ofNat 32 (fb x 12 4), measurement := measurement
      keysets := keysetIds ks, membership := allTiles.map (fun t => BitVec.ofNat 8 (mapGroup x t))
      groups := (List.range (haloGroups h)).map (haloGroup h)
      stages := (List.range (imgStages x)).map (fun s =>
        let p := planStageAt x s
        { group := BitVec.ofNat 4 (mapStageGroup x s), entries := mapEntries x s, planLen := fb h (haloStageAt h s) 4
          halo := fb h (haloStageAt h s + 4) 4, outputs := haloOutputs h s, uncore := (List.range 4).map (fun q => fb x (p + 8 + 2 * q) 2)
          classes := ((mapStageMembers x s).zipIdx).map (fun m =>
            (m.1, (List.range 4).map (fun q => BitVec.ofNat 8 (fb x (p + 16 + 4 * m.2 + q) 1)))) })
      regions := (List.range (relRegions x)).map (fun r => { far := regionFar x r, length := regionLen x r, base := loadBase b r })
      segments := allTiles.map (fun t => BitVec.ofNat 8 (imgSegments x t)), baseUncore := fb x (secOff x 6 + 2) 2, planPeak := 0 }
  { im with planPeak := im.peak }

/-- An image that has passed checks 2 to 8: what applying it needs. -/
structure Loaded where
  image : Image
  tiles : Vector Tile 64
  consts : List Const

/-- Checks 2 to 8 of R264 on the image `x` of `len` bytes under parameter block `b`. -/
def Dev.checkImage (d : Dev) (x len b : Nat) (measurement : List Byte) : Checked Loaded := do
  checkHeader x len
  checkPlan x
  let (progs, consts, relocs, patches) ← check3 x
  check4 x consts
  let owners ← check5 x
  check6 x
  let halo := fb x (secOff x 7) (secLen x 7)
  checkHalo x (keysetIds (keysetBytes x)) halo (secLen x 7) 7 (secOff x 7)
  must (loadRegions b == relRegions x) 8 (secOff x 2)
  must (loadParams b == patchParams x) 8 (secOff x 3)
  mustAll (List.range (relRegions x)) (fun r => must (regionFits d.mem x b r) 8 (regionAt x r))
  let w : Work :=
    { tiles := Vector.ofFn (fun i : Fin 64 => placeTile x progs consts owners (BitVec.ofNat 6 i.val) d.tiles[i]), halo := halo
      keysets := keysetBytes x }
  let w ← w.applyAll (fun i old => old + loadBase b i) relocs
  let w ← w.applyAll (fun i _ => loadValue b i) patches
  checkHalo x (keysetIds w.keysets) w.halo (secLen x 7) 8 (secOff x 7)
  pure { image := imageOf x w.halo w.keysets b measurement, tiles := w.tiles, consts := consts }

/-- The signature check (R264, R403). -/
def Dev.imageSignature (d : Dev) (img : List Byte) (x : Nat) : Bool :=
  let required := match d.sec.owner with | some o => o.policy.getLsbD 0 | none => false
  if secLen x 10 = 0 then !required
  else secLen x 10 == 104 && decide (secEnd x 10 ≤ img.length) &&
    sectionVerifies d.sec.owner ((img.drop (secOff x 10)).take 104) (img.take (secOff x 10))

/-- DETAIL of LOAD_IMAGE (R336). -/
def loadDetail (check off peak : Nat) : List Byte := detailOf [(0, check), (4, off), (8, peak)]

/-- The eight rows that a seed and a scope give (R202). -/
def hashRowsOf (seed : BitVec 64) (die : Bool) : List (BitVec 16) :=
  let x := sha384 (leBytes 8 seed.toNat)
  (List.range 8).map (fun i => if seed = 0 ∨ (die ∧ 6 ≤ i) then 0 else BitVec.ofNat 16 (leAt x (2 * i) 2))

/-- A pending hash comes in force (R203). -/
def Mem.adoptHash (m : Mem) : Mem :=
  match m.hashNext with
  | none => m
  | some (seed, die) =>
    let changed := seed != m.hashSeed || die != m.hashDie
    let m := { m with hashSeed := seed, hashDie := die, hashNext := none, hashScopeShown := die, hashRows := hashRowsOf seed die }
    if changed then m.forgetData m.dataPages else m

/-- REGION constants written (R257, R265). -/
def Mem.placeRegions (m : Mem) (x : Nat) (im : Image) (consts : List Const) : Mem :=
  (constUnits consts x 4).foldl (fun m u => match im.regions[u.1]? with
    | some r =>
      let s := r.base + u.2.1
      if r.far then m.writeFar s { data := BitVec.ofNat 4608 u.2.2.1 }
      else m.writeNear (m.nearKey s).1 (m.nearKey s).2 { data := BitVec.ofNat 4608 u.2.2.1 }
    | none => m) m

/-- A lock group as the image declares it (R234 to R236). -/
def Group.install (g : Group) (im : Image) (n : GroupId) : Group :=
  let ms := im.members n
  let r := im.groups.find? (fun r => r.group == n)
  { g with members := ms, die := match ms with | t :: _ => dieOf t | [] => 0
           priority := match r with | some r => r.priority | none => 0
           waitLimit := match r with | some r => r.waitLimit | none => 0
           rota := match r with | some r => r.rota | none => []
           rotaPos := 0, stage := 0, active := false, started := false, ended := false, heldFrom := none, heldCount := none, throttles := []
           skipped := none }

/-- The image applied (R265, R227). -/
def Dev.applyImage (d : Dev) (x : Nat) (l : Loaded) : Dev :=
  let d := d.onMem (fun m => m.adoptHash)
  let d : Dev := { d with tiles := l.tiles }
  let d := d.onMem (fun m => m.placeRegions x l.image l.consts)
  let d := d.mapGroups (fun n g => g.install l.image n)
  { d with
    tick := { d.tick with next := some (l.image.period, (d.tick.next.getD (0, d.tick.external, d.tick.outEn)).2) }
    power := { d.power with planPeak := l.image.planPeak }
    run := { d.run with image := some l.image, resumable := false, hazardNext := false, hazard := false } }

/-- LOAD_IMAGE once its tests have passed (R264, R336). -/
def Dev.loadImage (d : Dev) (f : Fetched) (b : Nat) (image : HostRead) : Dev :=
  if d.freeKeyPages < (loadLen b + 65087) / 65088 then d.complete f false .noResource (loadDetail 0 0xFFFFFFFF 0)
  else match image with
    | none => d.complete f false .badParam (loadDetail 0 0xFFFFFFFF 0)
    | some img =>
      if img.length ≠ loadLen b then d.complete f false .badParam (loadDetail 0 0xFFFFFFFF 0)
      else
        let x := leNat img
        let ok := d.imageSignature img x
        let d := if secLen x 10 = 0 then d else d.firmwarePke
        if !ok then d.complete f false .authFail (loadDetail 1 0xFFFFFFFF 0)
        else match d.checkImage x img.length b (sha384 img) with
          | .error (check, off) => d.complete f false (if check = 8 then .badParam else .imageFormat) (loadDetail check off 0)
          | .ok l =>
            if d.power.budget < l.image.planPeak then d.complete f false .powerPlan (loadDetail 9 0xFFFFFFFF l.image.planPeak)
            else ((d.applyImage x l).enter .loaded 0x10).complete f false .ok (loadDetail 0 0xFFFFFFFF 0)

/-- LOAD_IMAGE (R264). -/
def execLoadImage (c : Packet) (block image : HostRead) (s : State) : Host.Outcome State Fault Refusal :=
  s.act (fun d => d.command c 0x10
    { valid := c.fieldsOk (some c.paramLen) none 0 && loadBlockOk block c.paramLen
      busy := d.hasJob (fun k => match k with | .channelTest .. => true | .setTick => true | _ => false)
      signature := match image with | some img => secLen (leNat img) 10 != 0 | none => false }
    (fun d f => match block with
      | some bs => d.loadImage f (leNat bs) image
      | none => d))

end Sys2Proof.Machine
end

