-- ==== Sys2Proof/Machine/Streams.lean ====
section
/-! DEFINITION. Streams (14 R350 to R354): admission, consumption, lap checks, batch records and their backlog, opening and closing. -/

namespace Sys2Proof.Machine

/-- a > b as 32-bit serial numbers (R350). -/
def serialAfter (a b : Word) : Bool := a != b && decide ((a - b).toNat < 2 ^ 31)

/-- Admission tick of batch b (R350). -/
def Stream.admits (s : Stream) (b : Nat) : Nat := s.phase + b * s.period

/-- The batch with admission tick `t`, if there is one. -/
def Stream.batchAt (s : Stream) (t : Nat) : Option Nat :=
  if s.isOpen ∧ s.phase ≤ t ∧ s.period ≠ 0 ∧ (t - s.phase) % s.period = 0 then some ((t - s.phase) / s.period) else none

/-- Tick cycle 0 of a run tick whose stages will run (R346, R351). -/
def Dev.atCycleZero (d : Dev) : Bool := d.running && d.tick.inRun && !d.run.stopDrain && d.tick.cycle == 0

/-- The drain of a tick of the run (R231). -/
def Dev.inDrain (d : Dev) : Bool := d.running && d.tick.inRun && !d.tick.stageStarted

/-- The batch number as 32 bits. -/
def batchWord (b : Nat) : Word := BitVec.ofNat 32 b

/-- STREAM_ADMISSION (R351). -/
def Dev.admission (d : Dev) (n : BitVec 6) : Dev :=
  let s := d.stream n
  match (if d.atCycleZero && !s.output then s.batchAt d.tick.runTick else none) with
  | none => d
  | some b =>
    if serialAfter s.hostCount (batchWord b) || s.starved.contains b then d
    else (d.setStream n { s with starved := s.starved ++ [b], starvedCount := satInc s.starvedCount }).event srcFirmware evStreamStarved
      [(16, n.toNat), (20, b % 2 ^ 32)]

def execStreamAdmission (stream : BitVec 6) (s : State) : Host.Outcome State Fault Refusal := s.act (fun d => d.admission stream)

/-- STREAM_LAP_CHECK (R352). -/
def Dev.lapCheck (d : Dev) (n : BitVec 6) : Dev :=
  let s := d.stream n
  match (if d.atCycleZero && s.output then s.batchAt (d.tick.runTick + s.hold) else none) with
  | none => d
  | some b =>
    if b < s.slots ∨ serialAfter s.hostCount (batchWord (b - s.slots)) ∨ s.lapped.contains b then d
    else (d.setStream n { s with lapped := s.lapped ++ [b], lappedCount := satInc s.lappedCount }).event srcFirmware evStreamLapped
      [(16, n.toNat), (20, b % 2 ^ 32)]

def execStreamLapCheck (stream : BitVec 6) (s : State) : Host.Outcome State Fault Refusal := s.act (fun d => d.lapCheck stream)

/-- A record falls due: posted, or kept in a backlog of at most SLOTS records whose oldest one gives way (R352). -/
def Dev.dueRecord (d : Dev) (n : BitVec 6) (r : BatchRec) : Dev :=
  let d := d.flushStream n
  let s := d.stream n
  if s.backlog.isEmpty && decide (0 < (d.ring s.cq).room) then d.postBatch n r
  else d.setStream n { s with backlog := (if s.slots ≤ s.backlog.length then s.backlog.drop 1 else s.backlog) ++ [r] }

/-- Whether a record of batch b of this run waits. -/
def Stream.holds (s : Stream) (b : Nat) : Bool := s.backlog.any (fun r => r.current && r.batch == batchWord b)

/-- STREAM_CONSUME (R351, R353). -/
def Dev.consume (d : Dev) (n : BitVec 6) : Dev :=
  let s := d.stream n
  let t := d.drainTick
  match (if d.inDrain && !s.output && decide (s.hold + 1 ≤ t) then s.batchAt (t - s.hold - 1) else none) with
  | none => d
  | some b =>
    if serialAfter (batchWord b + 1) s.devCount then
      let d := d.setStream n { s with devCount := batchWord b + 1 }
      if s.notify then
        d.dueRecord n { batch := batchWord b, flags := if s.starved.contains b then 1 else 0, slot := b % s.slots, tick := s.admits b, current := true }
      else d
    else d

def execStreamConsume (stream : BitVec 6) (s : State) : Host.Outcome State Fault Refusal := s.act (fun d => d.consume stream)

/-- Flags of an output record (R353). -/
def Dev.batchFlags (d : Dev) (s : Stream) (b : Nat) : Word :=
  let starved := decide (s.source.toNat < 64) && ((d.stream (s.source.setWidth 6)).starved.contains b)
  let skipped := d.run.skipTicks.any (fun t => decide (s.admits b - s.hold ≤ t) && decide (t ≤ s.admits b))
  wordOf [(0, starved.toNat), (1, (s.lapped.contains b).toNat), (2, skipped.toNat)]

/-- BATCH_RECORD_POST (R352, R353). -/
def Dev.batchPost (d : Dev) (n : BitVec 6) : Dev :=
  let s := d.stream n
  let t := d.drainTick
  match (if d.inDrain && s.output && decide (1 ≤ t) then s.batchAt (t - 1) else none) with
  | none => d
  | some b =>
    if serialAfter (batchWord b + 1) s.devCount && !s.holds b then
      d.dueRecord n { batch := batchWord b, flags := d.batchFlags s b, slot := b % s.slots, tick := s.admits b, current := true }
    else d

def execBatchRecordPost (stream : BitVec 6) (s : State) : Host.Outcome State Fault Refusal := s.act (fun d => d.batchPost stream)

/-- STREAM_DOORBELL (R351, R352): a value that moves the count backwards, or beyond its limit, is ignored. -/
def Dev.streamDoorbell (d : Dev) (n : BitVec 6) (v : Word) : Dev :=
  let s := d.stream n
  if !s.isOpen then d
  else
    let limit := if s.output then s.devCount else s.devCount + BitVec.ofNat 32 s.slots
    if serialAfter s.hostCount v || serialAfter v limit then (d.setStream n { s with dbErr := true }).mark (0x11000 + 32 * n.toNat) 0x100
    else d.setStream n { s with hostCount := v }

/-- A stream doorbell arrives: it takes effect once every BAR4 write before it has been accepted (R351). -/
def Dev.doorbellIn (d : Dev) (n : BitVec 6) (v : Word) : Dev :=
  if d.mustWait d.held (.doorbell n v) then d.hold (.doorbell n v) else d.streamDoorbell n v

def execStreamDoorbell (stream : BitVec 6) (value : Word) (s : State) : Host.Outcome State Fault Refusal :=
  s.act (fun d => d.doorbellIn stream value)

/- OPEN_STREAM and CLOSE_STREAM. -/

def openSlots (c : Packet) : Nat := c.inl 12 2

/-- Slots of an open stream overlap n near-tier sectors from `first` on, whatever their regions (R350). -/
def Dev.overlapsSlots (d : Dev) (s : Stream) (first n : Nat) : Bool :=
  let own := d.regionSector s.region s.first
  s.isOpen && decide (own < first + n) && decide (first < own + s.slots * s.sectors)

/-- R350's conditions that need the device's state. -/
def Dev.openOk (d : Dev) (c : Packet) : Bool :=
  let first := c.inl 4 4
  let n := openSlots c * c.inl 8 4
  let source := c.inl 22 1
  (match d.run.image with
    | some im => match im.regions[c.inl 2 1]? with
      | some r => !r.far && decide (first + n ≤ r.length)
      | none => false
    | none => false) &&
  !allStreams.any (fun m => d.overlapsSlots (d.stream m) (d.regionSector (c.inl 2 1) first) n) && (d.ring (BitVec.ofNat 6 (c.inl 3 1))).cqEnable &&
  (source == 0xFF || (decide (source < 64) && (let x := d.stream (BitVec.ofNat 6 source); x.isOpen && !x.output)))

/-- Ranges of the inline parameters (R350). -/
def openRanges (c : Packet) : Bool :=
  decide (c.inl 0 1 < 64) && decide (c.inl 1 1 < 4) && decide (c.inl 2 1 < 64) && decide (c.inl 3 1 < 64) && c.inl 8 4 != 0 &&
  decide (2 ≤ openSlots c) && decide (openSlots c ≤ 256) && c.inl 14 2 != 0 && ((c.inl 1 1).testBit 0 == false || decide (c.inl 20 2 ≤ c.inl 16 4))

def Dev.closing (d : Dev) (n : BitVec 6) : Bool := d.hasJob (fun k => match k with | .closeStream m => m == n | _ => false)

/-- OPEN_STREAM (R350). -/
def execOpenStream (c : Packet) (s : State) : Host.Outcome State Fault Refusal :=
  s.act (fun d =>
    let n := BitVec.ofNat 6 (c.inl 0 1)
    d.command c 0x30 { valid := c.fieldsOk none none (inlBytes 0 23) && openRanges c, busy := (d.stream n).isOpen || d.closing n }
      (fun d f =>
        if !d.openOk c then d.complete f false .badParam noDetail
        else (d.setStream n
          { d.stream n with
            isOpen := true, output := (c.inl 1 1).testBit 0, notify := (c.inl 1 1).testBit 1, region := c.inl 2 1, cq := BitVec.ofNat 6 (c.inl 3 1)
            first := c.inl 4 4, sectors := c.inl 8 4, slots := openSlots c, period := c.inl 14 2, phase := c.inl 16 4, hold := c.inl 20 2
            source := BitVec.ofNat 8 (c.inl 22 1), hostCount := 0, devCount := 0, starved := [], lapped := [], backlog := [] }).complete f false .ok noDetail))

/-- CLOSE_STREAM (R354). -/
def execCloseStream (c : Packet) (s : State) : Host.Outcome State Fault Refusal :=
  s.act (fun d =>
    let n := BitVec.ofNat 6 (c.inl 0 1)
    d.command c 0x31 { valid := c.fieldsOk none none (inlBytes 0 1) && decide (c.inl 0 1 < 64), busy := d.closing n }
      (fun d f =>
        if !(d.stream n).isOpen then d.complete f false .badParam noDetail
        else
          let d := d.flushStream n
          if (d.stream n).backlog.isEmpty then (d.shut n).complete f false .ok (d.closeDetail n)
          else d.becomePending f (.closeStream n)))

/-- Every open stream closed without waiting, as UNLOAD_IMAGE does (R337). -/
def Dev.closeAll (d : Dev) : Dev :=
  (allStreams.filter (fun n => (d.stream n).isOpen)).foldl (fun d n =>
    let d := (d.flushStream n).shut n
    match d.host.jobs.find? (fun j => match j.kind with | .closeStream m => m == n | _ => false) with
    | some j => d.finish j .ok (d.closeDetail n)
    | none => d) d

/-- A stream at START (R345): an open one alone changes. -/
def Stream.atStart (s : Stream) : Stream :=
  let s := { s with starvedCount := 0, lappedCount := 0, starved := [], lapped := [] }
  if !s.isOpen then s
  else { s with devCount := 0, hostCount := if s.devCount = 0 then s.hostCount else 0
                backlog := s.backlog.map (fun r => { r with current := false }) }

end Sys2Proof.Machine
end

