-- ==== Sys2Proof/Machine/RunCmds.lean ====
section
/-! DEFINITION. The run (14 R337, R342, R345 to R348, 13 R307, R310, R311): START, STOP, ABORT, RESUME, RUN_TO_COUNT, SET_DEBUG, DUMP_STATE, UNLOAD_IMAGE. -/

namespace Sys2Proof.Machine

/- The checks of START (R27, R180, R183, R345). -/

/-- A stream's ranges lie within a key set's modulus table, and it delivers a page: R183 asks for one, and does not say when that is judged or what
follows. START judges it here, with KEY_NOT_RESIDENT (DESIGN CHOICE, log 89). -/
def streamRangesOk (d : BitVec 256) (m : ModTable) : Bool :=
  decide (stEntryFirst d + stEntryCount d ≤ m.limbs.length || stEntryCount d = 0) &&
  (!stSpecial d || decide (stSpecialFirst d + stSpecialCount d ≤ m.specials.length)) &&
  !(streamEntries d m.specials.length).isEmpty

/-- The key of a stream is resident under a key set (R180). -/
def Keys.streamResident (k : Keys) (keyset : Word) (d : BitVec 256) : Bool :=
  k.valid.any (fun e => e.keyset == keyset && e.kind.toNat == stKind d && e.galois.toNat == stGalois d && e.digit.toNat == stDigit d) &&
  (match k.set? keyset with | some b => streamRangesOk d b.table | none => false)

/-- Whether every key of a bound key set is resident: each run that its binds have brought has a VALID entry still (R27, R180; DEDUCED, log 55). -/
def Keys.allResident (k : Keys) (b : BoundSet) : Bool :=
  b.digits.all (fun g => k.valid.any (fun e => e.keyset == b.table.keyset && e.kind == g.1 && e.galois == g.2.1 && e.digit == g.2.2))

/-- Every key set that a stage declares is bound with its keys resident, and every stream of its tiles resolves. -/
def Dev.keysResident (d : Dev) (im : Image) : Bool :=
  im.stages.all (fun st => st.entries.all (fun e => (List.range 4).all (fun m =>
    let r := e.refs.getD m 0xFF
    r == 0xFF ||
      (let K := im.keysets.getD r.toNat 0
       (match d.keys.set? K with | some b => d.keys.allResident b | none => false) &&
         (d.tile e.tile).streams.all (fun s => (stMctx s.2).toNat != m || d.keys.streamResident K s.2)))))

/-- A tile at START (R71, R93, R127, R139, R147, R168, R170, R193, R195, R272), whose free values begin anew, so that two runs take the same (R312). The
count of quiet ticks of R114 begins at 0 with m: DESIGN CHOICE, log 79. -/
def Tile.atStart (t : Tile) : Tile :=
  let x : Tile := { t.clearHalt with
    mveFlags := 0, free := 0
    tu := { t.tu with check1 := false, check2 := false, failTable := false, failInverse := false, failEntry := 0, failMctx := 0, count := 0 }
    nma := { t.nma with flags := 0, sat := Vector.replicate 9 0, lastHeader := none }
    sent := { t.sent with exceed := 0, drop := 0, fault := 0, mean := 0, exceedThisTick := 0, quiet := 0, lfsr := if t.sent.seed = 0 then 1 else t.sent.seed, sample := none }
    arrival := Vector.replicate 64 0, scrCe := false, ueForwarded := false, poisonLatch := false, arrivalSat := false
    arrivalLeftover := false, ceEngine := 0, ceOther := 0, pads := Vector.replicate 4 {} }
  { x with dma := { x.dma with errDesc := 0, errQueue := 0, errKind := 0, errElement := 0, count := 0 }
           rings := x.rings.map (fun r => { r.flush with leftover := false }) }

/-- The state that a run begins with (R345): the registers of every tile, of the image or not, are as START leaves them (R71). -/
def Dev.clearForRun (d : Dev) : Dev :=
  let d := d.mapTiles (fun _ => true) (fun _ x => x.atStart)
  let d := d.mapGroups (fun _ g => { g with overruns := 0 })
  { d with
    keys := { d.keys with ksus := d.keys.ksus.map (fun _ => {}) }
    host := { d.host with streams := d.host.streams.map Stream.atStart }
    power := { d.power with quanta := 0, loweredThisRun := false }
    peer := { d.peer with plans := d.peer.plans.map (fun p => p.map (fun x => { x with digestLogged := [] })) }
    run := { d.run with haltOrder := (0, 0), skipTicks := [], countReached := false, target := none, hazard := d.run.hazardNext, lastTick := none
                        resumed := false } }

/-- A run accepted: RUNNING, to begin at the next boundary (R345, R347). -/
def Dev.acceptRun (d : Dev) (f : Fetched) (k : JobKind) (opcode : Nat) (resume : Bool) (target : Option (TileId × Nat × Nat)) : Dev :=
  let d := d.becomePending f k
  let d := if resume then { d with run := { d.run with resumed := true } } else d.clearForRun
  { d with run := { d.run with resumable := false, toBegin := some resume, begun := false, stopDue := false, stopDrain := false, target := target } }.enter
    .running opcode

/-- The checks of R345, then acceptance. -/
def Dev.beginRun (d : Dev) (f : Fetched) (k : JobKind) (opcode : Nat) (resume : Bool) (target : Option (TileId × Nat × Nat)) : Dev :=
  match d.run.image with
  | none => d.complete f false .state noDetail
  | some im =>
    if !d.keysResident im then d.complete f false .keyNotResident noDetail
    else if d.power.budget < im.peak then d.complete f false .powerPlan noDetail
    else d.acceptRun f k opcode resume target

/-- START (R345). -/
def execStart (c : Packet) (s : State) : Host.Outcome State Fault Refusal :=
  s.act (fun d => d.command c 0x20 { valid := c.fieldsOk none none 0 } (fun d f => d.beginRun f .start 0x20 false none))

/-- RESUME (R347). -/
def execResume (c : Packet) (s : State) : Host.Outcome State Fault Refusal :=
  s.act (fun d => d.command c 0x23 { valid := c.fieldsOk none none 0, condition := d.run.resumable } (fun d f => d.beginRun f .resume 0x23 true none))

/-- R311: the tile is in a group that runs a stage in run tick n, and the count lies within its plan. -/
def Dev.countOk (d : Dev) (t : TileId) (n count : Nat) : Bool :=
  match d.run.image with
  | none => false
  | some im => match d.groupOf t with
    | none => false
    | some g => match im.groups.find? (fun r => r.group == g) with
      | none => false
      | some r => match r.stageAt n with
        | none => false
        | some st => match im.stages[st]? with
          | none => false
          | some x => decide (count < x.planLen)

/-- RUN_TO_COUNT (R310, R311, R342). -/
def execRunToCount (c : Packet) (s : State) : Host.Outcome State Fault Refusal :=
  s.act (fun d => d.command c 0x40 { valid := c.fieldsOk none none (inlBytes 0 1 + inlBytes 4 8) && decide (c.inl 0 1 < 64) }
    (fun d f =>
      let t := BitVec.ofNat 6 (c.inl 0 1)
      if !d.countOk t (c.inl 4 4) (c.inl 8 4) then d.complete f false .badParam noDetail
      else d.beginRun f (.runToCount t) 0x40 false (some (t, c.inl 4 4, c.inl 8 4))))

/-- A STOP accepted while the first tick of a run drains: no stage runs, and the run stands where it stood (R346). -/
def Dev.holdBegin (d : Dev) : Dev :=
  if d.run.toBegin.isNone && !d.run.begun && d.tick.inRun then
    { d.mapGroups (fun _ g => { g with active := false }) with
      run := { d.run with toBegin := some d.run.resumed }
      tick := { d.tick with inRun := false, runTick := if d.run.resumed then d.tick.runTick - 1 else d.tick.runTick } }
  else d

/-- STOP (R346). -/
def execStop (c : Packet) (s : State) : Host.Outcome State Fault Refusal :=
  s.act (fun d => d.command c 0x21 { valid := c.fieldsOk none none 0 }
    (fun d f =>
      let d := d.becomePending f .stop
      if d.run.state = .running ∧ d.run.ending = none then (d.enter .stopping 0x21).holdBegin else d))

/-- DETAIL of ABORT (R348). -/
def Job.abortDetail (j : Job) : List Byte :=
  match j.kind with
  | .abort runTick cycle => detailOf [(0, runTick % 2 ^ 32), (4, cycle)]
  | _ => noDetail

/-- An ABORT whose accepted requests have landed: HALTED is entered, and it completes (R348). -/
def Dev.abortEnd (d : Dev) : Dev :=
  (d.settled.enterHalted 0x22 true).finishAll (fun k => match k with | .abort _ _ => true | _ => false) .aborted Job.abortDetail

/-- ABORT (R348): the tiles stop at once, a command of the queue being a bundle boundary (log 5), and HALTED is entered once what channels and ports had
accepted has landed (R167, R193; log 46). -/
def execAbort (c : Packet) (s : State) : Host.Outcome State Fault Refusal :=
  s.act (fun d => d.command c 0x22 { valid := c.fieldsOk none none 0 }
    (fun d f =>
      let d := d.becomePending f (.abort d.tick.runTick d.tick.cycle)
      if d.run.ending.isSome then d
      else
        let d := d.stopTiles .abort
        if d.stillLands then d else d.abortEnd))

/-- SET_DEBUG (R307, R342). -/
def execSetDebug (c : Packet) (s : State) : Host.Outcome State Fault Refusal :=
  s.act (fun d => d.command c 0x42 { valid := c.fieldsOk none none 1 }
    (fun d f => match d.run.image with
      | some im =>
        if im.debug then ({ d with run := { d.run with hazardNext := (c.inl 0 1).testBit 0 } }).complete f false .ok noDetail
        else d.complete f false .badParam noDetail
      | none => d.complete f false .badParam noDetail))

/- DUMP_STATE (R313, R342). -/

/-- A pad window as 128 bits (R168). -/
def PadWindow.bits (w : PadWindow) : Nat :=
  w.base.toNat + w.lineRows.toNat * 2 ^ 15 + w.lineStride.toNat * 2 ^ 26 + w.lines.toNat * 2 ^ 41 + w.lo.toNat * 2 ^ 57 + w.hi.toNat * 2 ^ 73 +
  w.scalar.toNat * 2 ^ 89 + w.value.toNat * 2 ^ 90

/-- A header register in 80 bytes. -/
def HReg.bytes (r : HReg) : List Byte :=
  leBytes 64 r.hdr.bits ++ leBytes 4 r.home.toNat ++ leBytes 4 r.tag.galois.toNat ++ [r.tag.kind.setWidth 8, r.tag.digit.setWidth 8] ++ List.replicate 6 0

def dumpRegs (t : Tile) : List Byte :=
  t.v.toList.flatMap (fun x => leBytes 4608 (packNat 36 (fun i => (lane x i).toNat) 1024)) ++ t.k.toList.flatMap (fun x => leBytes 128 x.toNat) ++
  t.s.toList.flatMap (fun x => leBytes 8 x.toNat) ++ t.a.toList.flatMap (fun x => leBytes 4 x.toNat) ++
  t.l.toList.flatMap (fun x => leBytes 2 x.toNat) ++ t.h.toList.flatMap HReg.bytes

def dumpWords (t : Tile) (pipe : Nat) : List Byte :=
  (List.range 128).flatMap (fun k => leBytes 4 (t.word pipe k).toNat) ++ t.pads.toList.flatMap (fun w => leBytes 16 w.bits)

def dumpQueues (t : Tile) : List Byte :=
  t.dma.queues.toList.flatMap (fun q => leBytes 4 q.length ++ q.flatMap (fun j => leBytes 64 j.bits.toNat))

def dumpAccs (t : Tile) : List Byte :=
  (List.range (shapeU t.nma.accSmall * shapeU t.nma.accSmall)).flatMap (fun n => leBytes 4 (Store.read (fun _ => 0) t.nma.acc n).toNat) ++
  t.nma.xr.toList.flatMap (fun x => leBytes 2 x.toNat)

def Dev.dumpDevice (d : Dev) : List Byte :=
  ([tickStatusWord d.tick, BitVec.ofNat 32 d.tick.runTick] ++
    d.groups.toList.flatMap (fun g => [d.lgStatus g, BitVec.ofNat 32 g.counter, g.haloWord] ++ g.latched) ++
    ([0, 1, 2, 3] : List (BitVec 2)).flatMap (fun i => [d.ksuStatus i, (d.ksu i).flags, (d.ksu i).lateCount])).flatMap (fun w => leBytes 4 w.toNat)

/-- A range of rows: FIRST and ROWS. -/
abbrev RowRange := Nat × Nat

def dumpRows (t : Tile) (rs : List RowRange) : List Byte :=
  rs.flatMap (fun r => leBytes 4 (r.1 + r.2 * 2 ^ 16) ++ (rowsFrom r.1 r.2).flatMap (fun k => sectorBytes (t.rowAt k).data))

/-- The ranges that a parameter block names. -/
def dumpRanges (bs : List Byte) : List RowRange := (List.range (leAt bs 2 2)).map (fun k => (leAt bs (8 + 4 * k) 2, leAt bs (10 + 4 * k) 2))

def Dev.dumpSection (d : Dev) (n : Nat) (t : TileId) (rs : List RowRange) : List Byte :=
  let x := d.tile t
  match n with
  | 1 => dumpRegs x
  | 2 => dumpWords x (d.pipeOf t)
  | 3 => dumpQueues x
  | 4 => dumpAccs x
  | 5 => d.dumpDevice
  | _ => dumpRows x rs

/-- The reply: the selected sections in ID order, each after a 16-byte head. -/
def Dev.dump (d : Dev) (bs : List Byte) : List Byte :=
  ((List.range 7).filter (fun n => n != 0 && (byteAt bs 1).testBit (n - 1))).flatMap (fun n =>
    let body := d.dumpSection n (BitVec.ofNat 6 (byteAt bs 0)) (dumpRanges bs)
    leBytes 16 (n + byteAt bs 0 * 2 ^ 8 + body.length * 2 ^ 32) ++ body)

/-- Ranges and reserved fields of the parameter block. -/
def dumpBlockOk (block : HostRead) (paramLen : Nat) : Bool :=
  match block with
  | some bs =>
    bs.length == paramLen && decide (8 ≤ paramLen) && decide (leAt bs 2 2 ≤ 64) && paramLen == 8 + 4 * leAt bs 2 2 && decide (byteAt bs 1 < 64) &&
    leAt bs 4 4 == 0 && (decide (byteAt bs 0 < 64) || (byteAt bs 0 == 0xFF && (byteAt bs 1 == 0 || byteAt bs 1 == 16))) &&
    (leAt bs 2 2 == 0 || (byteAt bs 1).testBit 5) && (dumpRanges bs).all (fun r => decide (r.1 < 32768) && r.2 != 0)
  | none => false

/-- DUMP_STATE (R313, R342). -/
def execDumpState (c : Packet) (block : HostRead) (s : State) : Host.Outcome State Fault Refusal :=
  s.act (fun d => d.command c 0x41 { valid := c.fieldsOk (some c.paramLen) (some 0) 0 && dumpBlockOk block c.paramLen }
    (fun d f => match block with
      | none => d
      | some bs =>
        let t := BitVec.ofNat 6 (byteAt bs 0)
        let here := byteAt bs 0 == 0xFF || d.inImage t
        if !(here && (dumpRanges bs).all (fun r => (rowsFrom r.1 r.2).all (d.tile t).powered)) then d.complete f false .badParam noDetail
        else
          let reply := d.dump bs
          if c.replyLen < reply.length then d.complete f false .badParam (detailOf [(0, reply.length)])
          else (d.emit (.reply c.replyPtr reply)).complete f false .ok noDetail))

/- UNLOAD_IMAGE (R337). -/

/-- The steps of R337 but the last. -/
def Dev.unload (d : Dev) : Dev :=
  let d := d.closeAll
  let d := d.mapTiles d.inImage (fun _ x => x.zeroed 0)
  let d := d.mapGroups (fun _ g =>
    { g with members := [], rota := [], active := false, started := false, ended := false, heldFrom := none, heldCount := none, throttles := [] })
  { d with
    power := { d.power with planPeak := 0 }
    keys := { d.keys with ksus := d.keys.ksus.map (fun k => { k with fills := [] }) }
    peer := { d.peer with plans := Vector.replicate 16 none }
    run := { d.run with image := none, resumable := false, hazard := false, hazardNext := false } }

/-- UNLOAD_IMAGE (R337). -/
def execUnloadImage (c : Packet) (s : State) : Host.Outcome State Fault Refusal :=
  s.act (fun d => d.command c 0x11 { valid := c.fieldsOk none none 0 } (fun d f => (d.unload.enter .ready 0x11).complete f false .ok noDetail))

end Sys2Proof.Machine
end

