-- ==== Sys2Proof/Machine/WriteRegs.lean ====
section
/-! DEFINITION. Writing BAR0 (20 R452 to R464), the rings and doorbells (14 R322 to R324), the BAR4 window (R320), and the log's message timer (R430). -/

namespace Sys2Proof.Machine

/-- A Bool cleared by a 1 written at bit n. -/
def w1c (b : Bool) (v : Word) (n : Nat) : Bool := b && !v.getLsbD n

/-- Bits `mask` of a field word cleared by the 1s written. -/
def w1cBits {w : Nat} (x : BitVec w) (v : Word) : BitVec w := x &&& ~~~(v.setWidth w)

/- Rings (R322, R323). -/

/-- A ring size that can be enabled. -/
def sizeOk (x : BitVec 4) : Bool := decide (4 ≤ x.toNat) && decide (x.toNat ≤ 12)


/-- A write of SQ_CTRL (R322, R323). -/
def Dev.writeSqCtrl (d : Dev) (n : BitVec 6) (v : Word) : Dev :=
  let r := d.ring n
  let cq := v.extractLsb' 6 6
  if v.getLsbD 0 then
    if r.sqEnable then d.setRing n { r with cqid := cq }
    else
      let r := { r with sqSize := v.extractLsb' 1 4, cqid := cq }
      if (d.ring cq).cqEnable && sizeOk r.sqSize then d.setRing n { r with sqEnable := true, sqHead := 0, sqTail := 0, sqTaken := r.sqBase }
      else d.flagRing n r 4
  else d.setRing n { r with sqEnable := false, cqid := cq, sqSize := if r.sqEnable then r.sqSize else v.extractLsb' 1 4 }

/-- Whether an enabled SQ or an open stream names a CQ (R323). -/
def Dev.cqNamed (d : Dev) (n : BitVec 6) : Bool :=
  d.host.rings.any (fun r => r.sqEnable && r.cqid == n) || d.host.streams.any (fun s => s.isOpen && s.cq == n)

/-- A write of CQ_CTRL (R322, R323). -/
def Dev.writeCqCtrl (d : Dev) (n : BitVec 6) (v : Word) : Dev :=
  let r := { d.ring n with ie := v.getLsbD 5, vector := v.extractLsb' 6 11, coal := v.extractLsb' 17 8 }
  if v.getLsbD 0 then
    if r.cqEnable then d.setRing n r
    else
      let r := { r with cqSize := v.extractLsb' 1 4 }
      if sizeOk r.cqSize then
        d.setRing n { r with cqEnable := true, cqTail := 0, phase := true, cqHead := 0, used := 0, unsignalled := 0, cqTaken := r.cqBase
                             fails := none }
      else d.flagRing n r 4
  else if !r.cqEnable then d.setRing n { r with cqSize := v.extractLsb' 1 4 }
  else if d.cqNamed n then d.flagRing n r 4
  else d.setRing n { r with cqEnable := false }

/-- A high word latched beside a low one is dropped when either word is written, so that a read then shows the value written: R6 says nothing of
a write between the two reads. DESIGN CHOICE, log 80. -/
def Dev.dropLatch (d : Dev) (off : Nat) : Dev := { d with host := { d.host with latches := Store.write (fun _ => none) d.host.latches off none } }

/-- A write of a ring block (R322, R455). -/
def Dev.writeRing (d : Dev) (off : Nat) (v : Word) : Dev :=
  let n := BitVec.ofNat 6 ((off - 0x10000) / 64)
  let r := d.ring n
  match off % 64 / 4 with
  | 0 => if r.sqEnable then d else (d.setRing n { r with sqBase := r.sqBase.extractLsb' 32 32 ++ (v &&& 0xFFFFF000) }).dropLatch (off + 4)
  | 1 => if r.sqEnable then d else (d.setRing n { r with sqBase := v ++ r.sqBase.extractLsb' 0 32 }).dropLatch off
  | 2 => d.writeSqCtrl n v
  | 4 => if r.cqEnable then d else (d.setRing n { r with cqBase := r.cqBase.extractLsb' 32 32 ++ (v &&& 0xFFFFF000) }).dropLatch (off + 4)
  | 5 => if r.cqEnable then d else (d.setRing n { r with cqBase := v ++ r.cqBase.extractLsb' 0 32 }).dropLatch off
  | 6 => d.writeCqCtrl n v
  | 8 => d.setRing n { r with status := w1cBits r.status v }
  | _ => d

/-- A write of an MSI-X table word: the low address word keeps bits [1:0] at 0, the vector control has its mask bit alone, and an entry
unmasked sends its pending vector (log 23). -/
def Dev.writeMsix (d : Dev) (k : Nat) (v : Word) : Dev :=
  let v := if k % 4 = 0 then v &&& 0xFFFFFFFC else if k % 4 = 3 then v &&& 1 else v
  let d := { d with host := { d.host with msix := Store.write msixDefault d.host.msix k v } }
  let n := k / 4
  let w := Store.read pbaDefault d.host.pba (n / 32)
  if k % 4 = 3 ∧ v = 0 ∧ w.getLsbD (n % 32) then
    ({ d with host := { d.host with pba := Store.write pbaDefault d.host.pba (n / 32) (w &&& ~~~(BitVec.ofNat 32 (2 ^ (n % 32)))) } }).emit
      (.message (BitVec.ofNat 11 n))
  else d

def Dev.writeRings (d : Dev) (off : Nat) (v : Word) : Dev :=
  if off < 0x11000 then d.writeRing off v
  else if off < 0x11800 then
    let n := BitVec.ofNat 6 ((off - 0x11000) / 32)
    if off % 32 = 0 then d.setStream n { d.stream n with dbErr := w1c (d.stream n).dbErr v 8 } else d
  else if msixTableAt ≤ off ∧ off < msixTableAt + 16 * msixEntries then d.writeMsix ((off - msixTableAt) / 4) v
  else d

/- The other regions. -/

/-- A slew field: code 3 leaves it as it is (R442). -/
def slewField (old : BitVec 6) (v : Word) (n : Nat) : Nat :=
  if (v.extractLsb' (2 * n) 2).toNat = 3 then (old.extractLsb' (2 * n) 2).toNat else (v.extractLsb' (2 * n) 2).toNat

/-- Device control and status (R253, R356, R374, R442). -/
def Dev.writeDev (d : Dev) (off : Nat) (v : Word) : Dev :=
  if off = 0x1004 then { d with host := { d.host with bar4Base := v } }
  else if off = 0x1008 then { d with host := { d.host with windowErr := w1c d.host.windowErr v 0, windowPoison := w1c d.host.windowPoison v 1 } }
  else if off = 0x1014 then
    if d.run.state = .boot then d
    else { d with pins := { d.pins with slew := BitVec.ofNat 6 (slewField d.pins.slew v 0 + slewField d.pins.slew v 1 * 4 + slewField d.pins.slew v 2 * 16) } }
  else if off = 0x1024 then
    { d with tick := { d.tick with early := w1c d.tick.early v 0, lost := w1c d.tick.lost v 1, overrun := w1c d.tick.overrun v 3
                                   drainExtended := w1c d.tick.drainExtended v 4 } }
  else if 0x1200 ≤ off ∧ off < 0x1240 then
    let n := (off - 0x1200) / 4
    let s := d.peer.status.toList.getD n {}
    let s' : ReduceStatus := { s with missing := w1c s.missing v 1, late := w1c s.late v 2, digest := w1c s.digest v 3, backupUsed := w1c s.backupUsed v 4 }
    { d with peer := { d.peer with status := d.peer.status.setIfInBounds n s' } }
  else if 0x1400 ≤ off ∧ off < 0x1600 ∧ off % 32 = 0 then
    let g := BitVec.ofNat 4 ((off - 0x1400) / 32)
    d.setGroup g { d.group g with haloExhausted := w1c (d.group g).haloExhausted v 4, overrun := w1c (d.group g).overrun v 5 }
  else d

/-- LOG_ACK (R430, R431). -/
def Log.acknowledge (l : Log) (v : Nat) : Log :=
  let a := min v l.next
  { l with ack := a, lost := l.lost.filter (fun p => decide (a ≤ p.1)) }

/-- The log window (R431). -/
def Dev.writeLog (d : Dev) (off : Nat) (v : Word) : Dev :=
  let l := d.log
  if off = 0x30000 then
    let m : Log := { l with alertSev := v.extractLsb' 0 3, alertEn := v.getLsbD 3, msiSev := v.extractLsb' 4 3, msiEn := v.getLsbD 7, vector := v.extractLsb' 8 11 }
    { d with log := d.alertEdge m }
  else if off = 0x30004 then { d with log := { l with wrapped := w1c l.wrapped v 13 } }
  else if off = 0x3000C then { d with log := d.alertEdge (l.acknowledge v.toNat) }
  else if off = 0x30010 then { d with log := { l with select := v } }
  else d

/-- The nearer bound of a value outside lo to hi. -/
def clamp (lo hi x : Nat) : Nat := max lo (min hi x)

/-- PWR_BUDGET (R386, R393). -/
def Dev.writeBudget (d : Dev) (v : Word) : Dev :=
  let b := clamp d.power.floor 930 (v.toNat % 65536)
  let d := d.onPower (fun p => { p with budget := b })
  if d.run.image.isSome && decide (b < d.power.planPeak) then
    (d.powerEvent 6).event srcArbiter evPwrBelowPlan [(16, b), (18, d.power.planPeak % 65536)]
  else d

/-- The power and thermal region (R393). -/
def Dev.writePower (d : Dev) (off : Nat) (v : Word) : Dev :=
  if off = 0x40000 then d.writeBudget v
  else if off = 0x40004 then d.onPower (fun p => { p with floor := clamp 250 930 (v.toNat % 65536) })
  else if off = 0x40014 then d.onPower (fun p => { p with events := w1cBits p.events v })
  else if off = 0x4001C then d.onPower (fun p => { p with limit := BitVec.ofNat 8 (clamp 90 110 (v.toNat % 256)) })
  else d

/-- CLK_CTRL (R389): outside READY a write is ignored. -/
def Dev.writeClkCtrl (d : Dev) (v : Word) : Dev :=
  if d.run.state = .ready then d.onClocks (fun c => { c with sscEn := v.getLsbD 0, sscOn := v.getLsbD 0 })
  else (d.onClocks (fun c => { c with writeIgnored := true })).mark 0x50004 0x10

/-- EQ_CTRL (R391): a class that becomes pinned keeps its settings of this time, and one that is released goes on from them. -/
def Dev.writeEqCtrl (d : Dev) (v : Word) : Dev :=
  d.onClocks (fun c =>
    let now := d.log.time
    { c with eqCtrl := v.extractLsb' 0 4
             eqPinned := (List.range 4).map (fun i => if v.getLsbD i && !c.eqCtrl.getLsbD i then now else c.eqPinned.getD i 0)
             eqFrozen := (List.range 4).map (fun i =>
               if !v.getLsbD i && c.eqCtrl.getLsbD i then c.eqFrozen.getD i 0 + (now - c.eqPinned.getD i 0) else c.eqFrozen.getD i 0) })

/-- The clocks and adaptive loops region (R393). -/
def Dev.writeClocks (d : Dev) (off : Nat) (v : Word) : Dev :=
  if off = 0x50000 then d.writeClkCtrl v
  else if off = 0x50004 then d.onClocks (fun c => { c with writeIgnored := w1c c.writeIgnored v 4, refclkLost := w1c c.refclkLost v 5 })
  else if off = 0x50008 then d.writeEqCtrl v
  else if 0x50010 ≤ off ∧ off < 0x50030 then
    let i := (off - 0x50010) / 8
    if off % 8 = 0 then
      d.onClocks (fun c => { c with pin := c.pin.set i (v.getLsbD 0), pinCode := c.pinCode.set i (BitVec.ofNat 7 (min 72 (field v.toNat 8 7))) })
    else d.onClocks (fun c => { c with overridden := c.overridden.set i (w1c (c.overridden.getD i false) v 7) })
  else d

/-- Channels (R223). -/
def Dev.writeChannel (d : Dev) (off : Nat) (v : Word) : Dev :=
  let n := (off - 0x100000) / 1024
  if off % 1024 = 0 ∧ !d.dieCut (n / 64) then
    d.onMem (fun m => m.onChannel n (fun c => { c with accOvf := w1c c.accOvf v 3, accFp := w1c c.accFp v 4 }))
  else d

/-- The memory-global registers (R223): the pins take effect at the next boundary (R391). -/
def Dev.writeMem (d : Dev) (off : Nat) (v : Word) : Dev :=
  if off = 0x140020 then if v.extractLsb' 0 2 = 3 then d else d.onMem (fun m => { m with refreshPinNext := some (v.extractLsb' 0 2) })
  else if off = 0x140024 then d.onMem (fun m => { m with overridden := w1c m.overridden v 8 })
  else if off = 0x140028 then d.onMem (fun m => { m with transitPinNext := some (v.getLsbD 0) })
  else d

/-- The KSU and KRT window (R195). -/
def Dev.writeKeys (d : Dev) (off : Nat) (v : Word) : Dev :=
  if off < 0x200400 then
    let die := (off - 0x200000) / 256
    if off % 256 = 4 ∧ !d.dieCut die then
      let k := d.ksu (BitVec.ofNat 2 die)
      d.setKsu (BitVec.ofNat 2 die)
        { k with late := w1c k.late v 0, mismatch := w1c k.mismatch v 1, ueHeader := w1c k.ueHeader v 2, ueData := w1c k.ueData v 3
                 farFetch := w1c k.farFetch v 4 }
    else d
  else if off = 0x201000 then { d with keys := { d.keys with select := v.setWidth 16 } }
  else d

/-- A write of word k of a tile's registers (R71, R93, R127, R148, R170, R195, R462). -/
def Tile.writeWord (t : Tile) (k : Nat) (v : Word) : Tile :=
  match k with
  | 4 => { t with mveFlags := w1cBits t.mveFlags (v &&& 0xFF1F) }
  | 5 => { t with tu := { t.tu with check1 := w1c t.tu.check1 v 1, check2 := w1c t.tu.check2 v 2 } }
  | 9 => { t with nma := { t.nma with flags := t.nma.flags &&& ~~~((v &&& 0xFF).setWidth _) } }
  | 10 =>
    let c := ({ t.sent.applyWrites with ctrlNext := some v } : Sentinel).applyWrites.ctrl
    { t with sent := { t.sent with ctrlNext := some c } }
  | 11 => { t with sent := { t.sent with threshNext := some (v &&& 0x00FFFFFF) } }
  | 13 => { t with sent := { t.sent with seed := v } }
  | 32 => t.clearScr (v &&& 0x1B)
  | 36 => { t with dma := { t.dma with fullHeld := w1c t.dma.fullHeld v 30 } }
  | _ =>
    if 40 ≤ k ∧ k < 44 then
      let r := t.rings.toList.getD (k - 40) {}
      { t with rings := t.rings.setIfInBounds (k - 40) { r with leftover := w1c r.leftover v 7 } }
    else t

/-- The W1C bits of word k that a record of raised bits holds. -/
def Raised.word (r : Raised) (k : Nat) : Word :=
  match k with
  | 4 => r.mve
  | 5 => r.tu
  | 9 => r.nma
  | 32 => r.scr
  | 36 => BitVec.ofNat 32 (bit r.full * 2 ^ 30)
  | _ => if 40 ≤ k ∧ k < 44 then BitVec.ofNat 32 (bit (r.rings.getLsbD (k - 40)) * 128) else 0

/-- W1C bits of word k that hardware has set in the present Nucleus cycle: a write cannot clear them in it (R7). -/
def Tile.freshBits (t : Tile) (k : Nat) : Word := t.raised.word k ||| t.raisedBefore.word k

/-- Words of a tile that hold W1C bits. -/
def tileW1c (k : Nat) : Bool := [4, 5, 9, 32, 36, 40, 41, 42, 43].contains k

/-- The tile regions: any tile, in any state from READY on (R464). -/
def Dev.writeTile (d : Dev) (off : Nat) (v : Word) : Dev :=
  let t := BitVec.ofNat 6 ((off - 0x1000000) / 0x40000)
  let k := off % 0x40000 / 4
  if d.run.state = .boot ∨ d.dieCut (dieOf t).toNat then d
  else d.setTile t ((d.tile t).writeWord k (if d.tick.running && tileW1c k then v &&& ~~~((d.tile t).freshBits k) else v))

/-- A 32-bit write of BAR0 (R452 to R464). Offsets that no register of a kind that can be written has are ignored; a bit that hardware has set
in this Nucleus cycle is not cleared (R7). -/
def Dev.writeReg (d : Dev) (off : Nat) (v : Word) : Dev :=
  let v := d.clearing off v
  if off % 4 ≠ 0 ∨ d.pins.tripped then d
  else if 0x1000 ≤ off ∧ off < 0x10000 then d.writeDev off v
  else if 0x60000 ≤ off ∧ off < 0x100000 then
    if off = 0x6000C then { d with pke := { d.pke with idleClosed := w1c d.pke.idleClosed v 6 } } else d
  else if !d.regionsUp then d
  else if 0x10000 ≤ off ∧ off < 0x30000 then d.writeRings off v
  else if 0x30000 ≤ off ∧ off < 0x40000 then d.writeLog off v
  else if 0x40000 ≤ off ∧ off < 0x50000 then d.writePower off v
  else if 0x50000 ≤ off ∧ off < 0x60000 then d.writeClocks off v
  else if 0x100000 ≤ off ∧ off < 0x140000 then d.writeChannel off v
  else if 0x140000 ≤ off ∧ off < 0x200000 then d.writeMem off v
  else if 0x200000 ≤ off ∧ off < 0x1000000 then d.writeKeys off v
  else if 0x1000000 ≤ off ∧ off < 0x2000000 then d.writeTile off v
  else d


/-- Offset of a ring's SQ_CTRL; its CQ_CTRL lies 16 bytes on (R455). -/
def sqCtrlOffset (n : BitVec 6) : Nat := 0x10008 + 64 * n.toNat

/-- SQ_ENABLE: a write of SQ_CTRL with ENABLE = 1 (R323). -/
def execSqEnable (sq : BitVec 6) (value : Word) (s : State) : Host.Outcome State Fault Refusal :=
  s.act (fun d => d.writeReg (sqCtrlOffset sq) (value ||| 1))

/-- SQ_DISABLE: a write of SQ_CTRL with ENABLE = 0 (R323). -/
def execSqDisable (sq : BitVec 6) (value : Word) (s : State) : Host.Outcome State Fault Refusal :=
  s.act (fun d => d.writeReg (sqCtrlOffset sq) (value &&& ~~~1))

/-- CQ_ENABLE: a write of CQ_CTRL with ENABLE = 1 (R323); `value.fails` is the number of records that host memory then takes before the write of one
fails (log 82). -/
def execCqEnable (cq : BitVec 6) (value : CqWrite) (s : State) : Host.Outcome State Fault Refusal :=
  s.act (fun d =>
    let e := d.writeReg (sqCtrlOffset cq + 16) (value.value ||| 1)
    if (e.ring cq).cqEnable && !(d.ring cq).cqEnable then e.setRing cq { e.ring cq with fails := value.fails } else e)

/-- CQ_DISABLE: a write of CQ_CTRL with ENABLE = 0 (R323). -/
def execCqDisable (cq : BitVec 6) (value : Word) (s : State) : Host.Outcome State Fault Refusal :=
  s.act (fun d => d.writeReg (sqCtrlOffset cq + 16) (value &&& ~~~1))

/-- BAR4_BASE_WRITE (R320, R356). -/
def execBar4BaseWrite (value : Word) (s : State) : Host.Outcome State Fault Refusal := s.act (fun d => d.writeReg 0x1004 value)

/-- LOG_ACK_WRITE (R430). -/
def execLogAckWrite (value : Word) (s : State) : Host.Outcome State Fault Refusal := s.act (fun d => d.writeReg 0x3000C value)

/-- PWR_BUDGET_WRITE (R386). -/
def execPwrBudgetWrite (value : Word) (s : State) : Host.Outcome State Fault Refusal := s.act (fun d => d.writeReg 0x40000 value)

/-- CLK_CTRL_WRITE (R389). -/
def execClkCtrlWrite (value : Word) (s : State) : Host.Outcome State Fault Refusal := s.act (fun d => d.writeReg 0x50000 value)

/- Doorbells (R324). -/

/-- SQ_TAIL_DOORBELL. -/
def Dev.sqDoorbell (d : Dev) (n : BitVec 6) (v : Word) : Dev :=
  let r := d.ring n
  if v.toNat % 4096 < ringSize r.sqSize then d.setRing n { r with sqTail := v.setWidth 12 } else d.flagRing n r 0

def execSqTailDoorbell (sq : BitVec 6) (value : Word) (s : State) : Host.Outcome State Fault Refusal :=
  s.act (fun d => if d.regionsUp then d.sqDoorbell sq value else d)

/-- CQ_HEAD_DOORBELL: the records up to the new head are released, and what waits for room goes on (R328, R352, R354). -/
def Dev.cqDoorbell (d : Dev) (n : BitVec 6) (v : Word) : Dev :=
  let r := d.ring n
  let h := v.toNat % 4096
  let size := ringSize r.cqSize
  if h < size then
    let freed := min r.used ((h + size - r.cqHead.toNat % size) % size)
    (d.setRing n { r with cqHead := BitVec.ofNat 12 ((r.cqHead.toNat + freed) % size), used := r.used - freed }).entriesFreed n
  else d.flagRing n r 1

def execCqHeadDoorbell (cq : BitVec 6) (value : Word) (s : State) : Host.Outcome State Fault Refusal :=
  s.event (fun d => if d.regionsUp then d.cqDoorbell cq value else d)

/- Register writes (R7, R319, R324). -/

/-- A 32-bit write of BAR2 (R324): a doorbell, or a reserved offset. The head doorbell of a completion ring may end a pending command, and firmware then
goes on with what it has fetched (R332, R354). -/
def Dev.writeDoorbell (d : Dev) (off : Nat) (v : Word) : Dev :=
  if !d.regionsUp then d
  else if off < 0x200 then
    if off % 8 = 0 then d.sqDoorbell (BitVec.ofNat 6 (off / 8)) v else (d.cqDoorbell (BitVec.ofNat 6 (off / 8)) v).pumpAll
  else if 0x400 ≤ off ∧ off < 0x500 then d.doorbellIn (BitVec.ofNat 6 ((off - 0x400) / 4)) v
  else d

/-- The function's control of the size of BAR4: the code of a power of two of megabytes in bits [13:8], as PCIe has it, kept when it is 1 GiB to
64 GiB (R319; log 82). -/
def Dev.resizeBar4 (d : Dev) (v : Word) : Dev :=
  let code := field v.toNat 8 6
  if 10 ≤ code ∧ code ≤ 16 then { d with host := { d.host with bar4Size := 2 ^ (20 + code) } } else d

/-- REGISTER_WRITE (R7, R319, R324): an access that is not of 32 aligned bits completes as Unsupported Request. -/
def execRegisterWrite (a : Access) (value : Word) (s : State) : Host.Outcome State Fault Refusal :=
  s.act (fun d => d.unlessTripped fun d =>
    match a.bar with
    | .bar4Size => d.resizeBar4 value
    | .bar0 => if a.ok then d.writeReg a.offset.toNat value else d.emit .unsupported
    | .bar2 => if a.ok then d.writeDoorbell a.offset.toNat value else d.emit .unsupported)

/- The timers of messages (R329, R430). -/

/-- CQ_INTERRUPT_TIMER: 2 µs have passed since the last record (R329). -/
def execCqInterruptTimer (cq : BitVec 6) (s : State) : Host.Outcome State Fault Refusal :=
  s.act (fun d =>
    let r := d.ring cq
    if r.ie && decide (0 < r.unsignalled) then (d.setRing cq { r with unsignalled := 0 }).message r.vector else d)

/-- LOG_MSI_TIMER: the end of the 2 µs after a message (R430). -/
def execLogMsiTimer (s : State) : Host.Outcome State Fault Refusal :=
  s.act (fun d =>
    if d.log.holdOff && d.log.waiting && d.log.msiEn then
      ({ d with log := { d.log with waiting := false } }).message d.log.vector
    else { d with log := { d.log with holdOff := false, waiting := false } })

/- Fetching commands (R323, R326). -/

/-- A ring that firmware can fetch from. -/
def RingBlock.ready (r : RingBlock) : Bool := r.sqEnable && r.sqHead != r.sqTail

/-- The ring whose turn it is: the first from `nextRing` on that holds a packet, with room on its CQ (R326). -/
def Dev.fetchTurn (d : Dev) : Option (BitVec 6) :=
  ((List.range 64).map (fun k => BitVec.ofNat 6 (d.host.nextRing + k))).find? (fun n =>
    let r := d.ring n
    r.ready && (d.ring r.cqid).cqEnable && decide (0 < (d.ring r.cqid).room))

/-- A packet fetched into the queue of commands, with its reservations (R326); what waits at its front with an undefined opcode completes. -/
def Dev.fetched (d : Dev) (n : BitVec 6) (bits : BitVec 512) : Dev :=
  let r := d.ring n
  let p : Packet := { sq := n, bits := bits }
  let need := if p.ack then 2 else 1
  if (d.ring r.cqid).room < need then d
  else
    let head := BitVec.ofNat 12 ((r.sqHead.toNat + 1) % ringSize r.sqSize)
    let d := d.setRing n { r with sqHead := head }
    let d := d.setRing r.cqid { d.ring r.cqid with reserved := (d.ring r.cqid).reserved + need }
    let f : Fetched := { packet := p, head := head, cq := r.cqid }
    let d : Dev := { d with host := { d.host with fetched := d.host.fetched ++ [f] } }
    d.pumpAll

/-- COMMAND_FETCH: in its turn a ring gives one packet, or the fetch fails and disables the ring (R323, R326). -/
def execCommandFetch (sq : BitVec 6) (packet : Option (BitVec 512)) (s : State) : Host.Outcome State Fault Refusal :=
  s.act (fun d =>
    if d.run.state = .boot ∨ d.fetchTurn ≠ some sq then d
    else
      let d := { d with host := { d.host with nextRing := (sq.toNat + 1) % 64 } }
      match packet with
      | some bits => d.fetched sq bits
      | none =>
        let r : RingBlock := { d.ring sq with sqEnable := false }
        (d.flagRing sq r 2).event srcHost evRingError [(16, sq.toNat), (17, 1)])

end Sys2Proof.Machine
end

