-- ==== Sys2Proof/Machine/Boot.lean ====
section
/-! DEFINITION. Faults (18 R433), resets and power (R418 to R424, 16 R385), boot (R423), FLR (R420), SANITIZE (17 R415, R416), module flash (R396, R402),
lost clocks (R389), entropy failures (R413), boundary scan (19 R445). -/

namespace Sys2Proof.Machine

/- FAULTED (R433). -/

def causeCode : FaultCause → Nat
  | .clock => 1
  | .puf => 2
  | .fwAuth => 3
  | .entropy => 4
  | .nucleus => 5
  | .dieLink => 6
  | .channel => 7
  | .loadApply => 8
  | .sanitizeWrite => 9

/-- FAULT_INFO and DEVICE_FAULT (R433). The entry's source, which may be any, is firmware (log 34). -/
def Dev.noteFault (d : Dev) (cause : FaultCause) (unit : Nat) (atBoot : Bool) : Dev :=
  ({ d with pins := { d.pins with faultCause := BitVec.ofNat 8 (causeCode cause), faultUnit := BitVec.ofNat 8 unit, faultAtBoot := atBoot } }).event
    srcFirmware evDeviceFault [(16, causeCode cause), (17, unit), (20, d.tick.runTick % 2 ^ 32)]

/-- A pending channel test ends without result: the pages it tested are undefined, the channels work again (R420). How many of its requests
to retired pages it has made is a free value for each channel (R207; log 3). -/
def Dev.dropTest (d : Dev) : Dev :=
  match d.host.jobs.find? (fun j => match j.kind with | .channelTest .. => true | _ => false) with
  | none => d
  | some j => match j.kind with
    | .channelTest mask pattern first pages count =>
      let made := d.freeValue
      let hits := fun (m : Mem) (n : Nat) => field made (64 * n) 64 % (m.testHits n pattern.toNat first pages count + 1)
      (d.drew.onMem (fun m => m.onMask mask (fun n c => ({ c with retiredHits := satAdd c.retiredHits (hits m n) }).endTest 0 none))).onMem
        (fun m => m.forgetTested mask first pages true)
    | _ => d

/-- A pending SET_TICK that ends without taking effect. -/
def Dev.dropTick (d : Dev) : Dev :=
  if d.hasJob (fun k => match k with | .setTick => true | _ => false) then { d with tick := { d.tick with next := none } } else d

/-- Steps 2 to 4 of R433: reductions are abandoned, every pending command completes, and the fault is noted. -/
def Dev.faultEnd (d : Dev) (cause : FaultCause) (unit : Nat) : Dev :=
  let d := d.dropTest.dropTick
  (d.finishAll (fun _ => true) .deviceFault (fun _ => noDetail)).noteFault cause unit false

/-- The boot in progress ends in FAULTED (R423, R433): a die link that boot has not come to has not trained (R464), and the boot ROM gives up the PKE
(R404). The tick, which boot step 9 starts, stays stopped: R225 would have it run in every state from the end of BOOT on (DESIGN CHOICE, log 89). -/
def Dev.failBoot (d : Dev) (cause : FaultCause) (unit : Nat) : Dev :=
  match d.booting with
  | some b =>
    let d := if b.step < 5 then d.onClocks (fun c => { c with linksDown := List.range 8 }) else d
    ({ d with run := { d.run with state := .faulted }, booting := none, pke := { d.pke with owner := .none } }).noteFault cause unit true
  | none => d

/-- Entry to FAULTED: from a boot in progress as `failBoot` has it; else in the order of R433: the tiles of a run stop as at ABORT, and steps 2 to 4 follow
once what channels and ports had accepted has landed (R167; log 46), or at once where the core clock does not run and the tiles stand where they stood.
In FAULTED already, the first fault stands (log 34). -/
def Dev.enterFaulted (d : Dev) (cause : FaultCause) (unit : Nat) (coreRuns : Bool) (opcode : Nat) : Dev :=
  if d.run.state = .boot then d.failBoot cause unit
  else if d.run.state = .faulted then d
  else
    let ran := d.run.going
    let d := d.enter .faulted opcode
    if !ran then d.abandonReductions.faultEnd cause unit
    else if !coreRuns then ({ d with run := { d.run with ending := none } }.closeRun true).faultEnd cause unit
    else
      let d := d.stopTiles (.fault cause unit)
      if d.stillLands then d else (d.settled.closeRun true).faultEnd cause unit

/-- CLOCK_LOST (R389): the tick stops with the core clock. In BOOT the PLLs lock in step 1, and a loss from then on ends it (R423). The UNIT of a lost
REFCLK, which R433 does not name, is 0 (DESIGN CHOICE, log 34). -/
def execClockLost (what : ClockLoss) (s : State) : Host.Outcome State Fault Refusal :=
  s.event (fun d =>
    if d.run.state = .boot ∧ !d.booting.any (fun b => decide (2 ≤ b.step)) then d
    else
      let gone := fun (w : ClockLoss) => what == .refclk || what == w
      let d := d.onClocks (fun c =>
        { c with refclkLost := true, coreLock := c.coreLock && !gone .core, nucLock := c.nucLock && !gone .nucleus
                 dramLock := c.dramLock && !gone .dram, sscOn := c.sscOn && !gone .core })
      let d := (d.mark 0x50004 0x20).event srcFirmware evClockLost [(16, (d.readClocks 0x50004).toNat % 64)]
      let unit := match what with
        | .refclk => 0
        | .core => 0
        | .nucleus => 1
        | .dram => 2
      let d := d.enterFaulted .clock unit (!gone .core) 0
      if gone .core then { d with tick := { d.tick with running := false } } else d)

/-- ENTROPY_HEALTH_FAIL (R413). -/
def execEntropyHealthFail (adaptive : Bool) (s : State) : Host.Outcome State Fault Refusal :=
  s.event (fun d =>
    if d.sec.drbg ≠ 1 then d
    else
      let d := { d with sec := { d.sec with drbg := 2, rctFail := d.sec.rctFail || !adaptive, aptFail := d.sec.aptFail || adaptive } }
      (d.event srcEntropy evEntropyFail [(16, if adaptive then 2 else 1)]).enterFaulted .entropy 0 true 0)

/-- The load that is being applied fails (R265): it completes with DEVICE_FAULT. The load has passed its checks, which the row's sender vouches for, and a
pending seed and scope, put in force first, are in force (R203). Which of the later steps have taken effect the spec does not say: none has (DESIGN
CHOICE, log 89). -/
def Dev.loadFails (d : Dev) : Dev :=
  match d.host.nextCmd with
  | some f =>
    if d.run.state = .ready ∧ f.packet.opcode = 0x10 then
      let d := ((d.take f).onMem (fun m => m.adoptHash)).enter .faulted 0x10
      (d.complete f false .deviceFault noDetail).abandonReductions.faultEnd .loadApply 0
    else d
  | none => d

/-- Whether a step of boot before step n is still to come: what it brings up is no unit yet, and its failure comes with the step (R423). -/
def Dev.bootBefore (d : Dev) (n : Nat) : Bool := d.run.state == .boot && !d.booting.any (fun b => decide (n ≤ b.step))

/-- INTERNAL_FAULT (R433); the causes that have rows of their own, or that only boot meets, are none of its. -/
def execInternalFault (cause : FaultCause) (unit : Byte) (s : State) : Host.Outcome State Fault Refusal :=
  s.event (fun d => match cause with
    | .nucleus => d.enterFaulted .nucleus 0 true 0
    | .dieLink => if d.bootBefore 6 then d
        else (d.onClocks (fun c => { c with linksDown := c.linksDown ++ [unit.toNat] })).enterFaulted .dieLink unit.toNat true 0
    | .channel => if d.bootBefore 7 then d else d.enterFaulted .channel unit.toNat true 0
    | .loadApply => d.loadFails
    | .sanitizeWrite => if d.run.state = .sanitizing then d.enterFaulted .sanitizeWrite 0 true 0x73 else d
    | .clock => d
    | .puf => d
    | .fwAuth => d
    | .entropy => d)

/- Power and resets (R418, R419). -/

/-- POWER_ON: the input reaches 44 V, PERST# being asserted, and the rails come up in their order; MODULE_ID, which is the management port's
address too, and the link split are sampled (R418, R422, R358, R318, R444). -/
def execPowerOn (moduleId : BitVec 3) (s : State) : Host.Outcome State Fault Refusal :=
  s.act (fun d =>
    if d.pins.inputPower then d
    else
      let d := d.off
      let p : Pins := { moduleId := moduleId, rails := railOrder.foldl railUp d.pins.rails, inputPower := true }
      { d with pins := p, host := { d.host with peerHalf := d.flash.splitLink } })

/-- INPUT_POWER_LOSS: the input below 40 V for 50 µs (R418, R422). -/
def execInputPowerLoss (s : State) : Host.Outcome State Fault Refusal := s.act (fun d => if d.pins.inputPower then d.off else d)

/-- THERMAL_TRIP: a sensor trips the module (R385). -/
def execThermalTrip (s : State) : Host.Outcome State Fault Refusal := s.act (fun d => if d.pins.up then d.trip else d)

/-- WARM_RESET: PERST# asserted while power is held (R418, R419); the reset kind stays cold where PERST# has not been released since power came up. The log, which is kept, tells of the change of state (R429). -/
def execWarmReset (s : State) : Host.Outcome State Fault Refusal :=
  s.act (fun d =>
    if !d.pins.up then d
    else
      let log := (if d.run.state = .boot then d else d.enter .boot 0).log
      let e := d.afresh
      let p : Pins :=
        { moduleId := d.pins.moduleId, idRead := d.pins.idRead, rails := d.pins.rails, inputPower := true, tap := d.pins.tap
          cold := d.pins.cold && d.pins.perst }
      { e with pins := p, log := log, host := { e.host with peerHalf := d.host.peerHalf }, pke := { e.pke with faults := d.pke.faults } })

/-- The management port answers: not until boot step 4 has begun, and not without power (R444). Its rows name transactions to its own address. -/
def Dev.managed (d : Dev) : Bool := d.pins.up && (d.run.state != .boot || d.booting.any (fun b => decide (4 ≤ b.step)))

/-- The 7-bit address of the management port (R444). -/
def Pins.smbusAddress (p : Pins) : Nat := 0x60 + p.moduleId.toNat

/-- An access that has no more to do once the host function is reset: a read that still waits (log 82). -/
def Held.isRead : Held → Bool
  | .read _ _ => true
  | _ => false

/- FLR (R420). -/

/-- Step 5 of R420: the ring registers, the MSI-X table and BAR4. -/
def Dev.ringsReset (d : Dev) : Dev :=
  let fresh : HostPort := {}
  { d with held := d.held.filter (fun h => !h.isRead)
           host := { d.host with rings := fresh.rings, msix := [], pba := [], bar4Base := 0, bar4Size := fresh.bar4Size, fetched := [], nextRing := 0
                                 latches := d.host.latches.filter (fun e => decide (e.1 < 0x10000)) } }

/-- Step 2: pending commands dropped without a record. -/
def Dev.dropJobs (d : Dev) : Dev :=
  let d := d.dropTest.dropTick
  { d with host := { d.host with jobs := [] } }

/-- Step 5 of R420, of an FLR taken in state `before` that has dropped n commands. -/
def Dev.flrDone (d : Dev) (before : DevState) (n : Nat) : Dev := d.ringsReset.event srcFirmware evFlrDone [(16, before.code), (17, min n 255)]

/-- Steps 2 to 5 of R420. -/
def Dev.flrRest (d : Dev) (before : DevState) : Dev :=
  let n := d.host.jobs.length
  let d := d.dropJobs
  let d := if before = .loaded ∨ before = .running ∨ before = .stopping ∨ before = .halted then d.unload.enter .ready 0 else d
  (if d.pke.session.isSome then { d with pke := d.pke.close } else d).flrDone before n

/-- FLR (R420): in a run the tiles stop as at ABORT, and the other steps follow once what channels and ports had accepted has landed (R167; log 46). -/
def Dev.flr (d : Dev) : Dev :=
  let before := d.run.state
  if before = .boot then d.flrDone before d.host.jobs.length
  else if !d.run.going then d.flrRest before
  else
    let d := d.stopTiles (.flr before)
    if d.stillLands then d else (d.settled.closeRun true).flrRest before

/-- What had been accepted as a run's tiles stopped has landed: the run ends. -/
def Dev.endRun (d : Dev) : Dev :=
  match d.run.ending with
  | some .abort => d.abortEnd
  | some (.flr before) => (d.settled.closeRun true).flrRest before
  | some (.fault cause unit) => (d.settled.closeRun true).faultEnd cause unit
  | none => d

/-- The end of a core cycle for a run that ends: firmware goes on with what it has fetched (R326). -/
def Dev.tryEnd (d : Dev) : Dev := if d.run.ending.isNone || d.stillLands then d else d.endRun.pumpAll

/- SANITIZE (R415, R416). -/

/-- Steps 1 to 3 of R415, for a SANITIZE accepted in state `from_`. -/
def Dev.sanitizeFirst (d : Dev) (from_ : DevState) : Dev :=
  let d := if from_ = .loaded ∨ from_ = .halted then d.unload else d
  { d with peer := { d.peer with plans := Vector.replicate 16 none }
           pke := if d.pke.session.isSome then d.pke.close else { d.pke with mem := [] }
           keys := { d.keys with krt := d.keys.krt.map (fun e => (e.1, e.2.map (fun x => { x with valid := false, seed := 0 }))), bound := [] } }

/-- A tile after step 4 of R415 (R147, R150). -/
def Tile.sanitized (t : Tile) : Tile :=
  let x := t.zeroed 0
  { x with streams := [], dma := { x.dma with descriptors := [], owners := [] } }

/-- Near-tier pages that step 5 writes, and far-tier pages of step 6. -/
def Mem.nearZeroed (m : Mem) : Nat := 256 * 40960 - m.retiredNear.length
def Mem.farZeroed (m : Mem) : Nat := m.farPages - (m.retiredFar.filter (fun p => decide (p < m.farPages))).length

/-- The memory after steps 5 and 6. -/
def Mem.sanitized (m : Mem) (far : Bool) : Mem :=
  let m : Mem := { m with near := [], undef := [], remap := [], tableFull := false }
  if far then { m with far := [], farZero := true } else m

/-- Steps 4 to 8 of R415, and the mark cleared. -/
def Dev.sanitizeLast (d : Dev) (far : Bool) : Dev :=
  let d := d.mapTiles (fun _ => true) (fun _ t => t.sanitized)
  let d := { d with
    mem := d.mem.sanitized far
    sec := { d.sec with drbg := 1, reseeds := 0, requests := 0 }
    log := { d.log with entries := [], ack := d.log.next, lost := [] }
    held := d.held.filter Held.isRead }
  let d := d.event srcFirmware evSanitized [(16, d.mem.nearZeroed), (20, if far then d.mem.farZeroed else 0)]
  { d with flash := { d.flash with sanitize := none } }

/-- SANITIZE (R415). -/
def execSanitize (c : Packet) (s : State) : Host.Outcome State Fault Refusal :=
  s.act (fun d => d.command c 0x73
    { valid := c.fieldsOk none none 1
      busy := d.testing || d.hasJob (fun k => match k with | .bind .. => true | .stage .. => true | _ => false) }
    (fun d f =>
      let far := (c.inl 0 1).testBit 0
      let d : Dev := { d.endRun with flash := { d.flash with sanitize := some far } }
      let d := d.becomePending f (.sanitize far (d.run.state == .faulted))
      (d.enter .sanitizing 0x73).sanitizeFirst d.run.state))

/-- SANITIZE_COMPLETE: the end of the steps, or a write failure in one (R415, R416). A SANITIZE accepted in FAULTED is known by
FAULT_INFO, since only a reset leaves FAULTED; its record is lost if an FLR has dropped it (R420). -/
def Dev.sanitizeDone (d : Dev) (ms : Word) (failed : Bool) : Dev :=
  if d.run.state ≠ .sanitizing then d
  else if failed then d.enterFaulted .sanitizeWrite 0 true 0x73
  else
    let far := d.flash.sanitize.getD false
    let d := (d.sanitizeLast far).enter (if d.pins.faultCause = 0 then .ready else .faulted) 0x73
    d.finishAll (fun k => match k with | .sanitize .. => true | _ => false) .ok
      (fun _ => detailOf [(0, d.mem.nearZeroed), (4, if far then d.mem.farZeroed else 0), (8, ms.toNat)])

def execSanitizeComplete (milliseconds : Word) (writeFailed : Bool) (s : State) : Host.Outcome State Fault Refusal :=
  s.event (fun d => d.sanitizeDone milliseconds writeFailed)

/- Boot (R423). -/

/-- The slot the boot ROM runs, of those it accepts: 1 FW_A, 2 FW_B, 3 none (R394, R395). -/
def Flash.choice (f : Flash) : Nat :=
  let a := f.slotA.verifies
  let b := f.slotB.verifies
  if a ∧ (!b ∨ f.slotB.version.toNat ≤ f.slotA.version.toNat) then 1 else if b then 2 else 3

def Flash.slot (f : Flash) (n : Nat) : FwSlot := if n = 2 then f.slotB else f.slotA

/-- The boot step that a hardware failure lies in, 0 for what boot finds out itself. -/
def failStep : FaultCause → Nat
  | .clock => 1
  | .entropy => 4
  | .nucleus => 4
  | .dieLink => 5
  | .channel => 6
  | .puf => 0
  | .fwAuth => 0
  | .loadApply => 0
  | .sanitizeWrite => 0

/-- How a boot step fails, if it does (R395, R397, R416, R423). -/
def Dev.bootFailure (d : Dev) (b : Booting) : Option (FaultCause × Nat) :=
  match b.step, b.seen.failure with
  | 3, _ => if !d.flash.pufOk b.seen.puf then some (.puf, 0) else if d.flash.choice = 3 then some (.fwAuth, 0) else none
  | 8, _ => if d.flash.sanitize.isSome && b.seen.sanitizeFails then some (.sanitizeWrite, 0) else none
  | n, some (c, u) => if failStep c = n then some (c, u.toNat) else none
  | _, none => none

/-- Channels, when one does not train. -/
def Dev.bootChannelFails (d : Dev) (unit : Nat) : Dev :=
  d.onMem (fun m => { m with channels := Vector.ofFn (fun n : Fin 256 => { m.channels[n] with state := if n.val = unit then 0 else 2 })
                             hashRows := hashRowsOf m.hashSeed m.hashDie })

/-- What a failed step leaves, and its own entry (R395, R397, R413, R423, R389). -/
def Dev.bootFails (d : Dev) (b : Booting) (cause : FaultCause) (unit : Nat) : Dev :=
  match cause with
  | .clock =>
    let d := d.onClocks (fun c => { c with coreLock := unit != 0, nucLock := unit != 1, dramLock := unit != 2, refclkLost := true })
    (d.event srcFirmware evClockLost [(16, (d.readClocks 0x50004).toNat % 64)])
  | .puf => d.event srcRom evPufFail []
  | .fwAuth =>
    ({ d with sec := { d.sec.noLayers (d.flash.extract b.seen.puf) with bootSlot := 3 } }).event srcRom evFwAuthFail
      [(16, bit (!d.flash.slotA.verifies) + 2 * bit (!d.flash.slotB.verifies))]
  | .entropy =>
    ({ d with sec := { d.sec with drbg := 2, rctFail := unit != 2, aptFail := unit == 2 } }).event srcEntropy evEntropyFail [(16, if unit = 2 then 2 else 1)]
  | .dieLink => d.onClocks (fun c => { c with linksDown := [unit] })
  | .channel => d.bootChannelFails unit
  | .nucleus => d
  | .loadApply => d
  | .sanitizeWrite => d

/-- Step 1: the PLLs lock; MODULE_ID is read (R423, R389, R453). -/
def Dev.bootClocks (d : Dev) : Dev :=
  { d.onClocks (fun c => { c with coreLock := true, nucLock := true, dramLock := true, sscOn := c.sscEn }) with pins := { d.pins with idRead := true } }

/-- Step 2: the host link trains; half of it under x8 + x8 (R318). -/
def Dev.bootLink (d : Dev) (seen : BootSeen) : Dev :=
  ({ d with host := { d.host with linkWidth := BitVec.ofNat 5 (if d.host.peerHalf then min 8 seen.linkWidth.toNat else seen.linkWidth.toNat), linkRate := seen.linkRate } }).linkTrains 0

/-- Step 3: the UDS is reconstructed, firmware chosen, the layers of the identity made, and the PKE's memory wiped (R395, R397, R398, R404). -/
def Dev.bootRom (d : Dev) (seen : BootSeen) : Dev :=
  let n := d.flash.choice
  let slot := d.flash.slot n
  { d with sec := { d.sec.layers (d.flash.extract seen.puf) n slot with
                    bootSlot := BitVec.ofNat 2 n, fwSvn := slot.version, fwRunning := true, fwVersion := Config.fwVersion slot.image }
           pke := { d.pke with mem := [] } }

/-- Step 4: the DRBG, the owner record, the retired list (R412, R402, R207). -/
def Dev.bootFirmware (d : Dev) : Dev :=
  { d with sec := { d.sec with drbg := 1, reseeds := 0, requests := 0, owner := d.flash.owner }
           mem := { d.mem with retiredNear := (d.flash.retired.filter (fun p => !p.1)).map (·.2), retiredFar := (d.flash.retired.filter (·.1)).map (·.2) } }

/-- Step 6: channels up, and the rows of the reset seed and scope in force; the near tier is written 0 (R202, R203). -/
def Dev.bootChannels (d : Dev) : Dev :=
  d.onMem (fun m => { m with channels := m.channels.map (fun c => { c with state := 2 }), hashRows := hashRowsOf m.hashSeed m.hashDie })

/-- Step 7: the far tier as it is found (R215, R216, R423). Presence and equal capacity are judged of the expanders as they are; what lies beyond
4 TiB in all is not mapped (`Mem.farPages`). -/
def Dev.bootFar (d : Dev) (seen : BootSeen) : Dev :=
  let four := d.flash.farFourLinks
  let ports := if four then 4 else 1
  let units := (List.range 4).map (fun k => if k < ports ∧ seen.farUp.getLsbD k then seen.farUnits.getD k 0 else 0)
  let present := units.filter (fun u => decide (0 < u))
  let equal := present.all (fun u => u == present.headD 0)
  let d := d.onMem (fun m =>
    { m with farUp := if four then seen.farUp else seen.farUp &&& 1, farWidth := four, farUnits := units, farSlow := seen.farSlow
             farInterleaved := equal && (present.length == 1 || present.length == 2 || present.length == 4) })
  let d := ((List.range ports).filter (fun k => seen.farUp.getLsbD k)).foldl (fun d k => d.linkTrains (1 + k)) d
  ((List.range ports).filter (fun k => seen.farDown.getLsbD k && !seen.farUp.getLsbD k)).foldl (fun d k => d.event srcFar evFarLinkDown [(16, k)]) d

/-- Step 8: a sanitize that the mark asks for (R416). -/
def Dev.bootSanitize (d : Dev) : Dev :=
  match d.flash.sanitize with
  | some far => d.sanitizeLast far
  | none => d

/-- The unit that FAULT_INFO shows: those of CLOCK, DIE_LINK and CHANNEL (R433). -/
def faultUnit (cause : FaultCause) (unit : Nat) : Nat :=
  match cause with
  | .clock => unit
  | .dieLink => unit
  | .channel => unit
  | _ => 0

/-- A boot step has failed (R423, R433). -/
def Dev.bootFaulted (d : Dev) (b : Booting) (cause : FaultCause) (unit : Nat) : Dev := (d.bootFails b cause unit).failBoot cause (faultUnit cause unit)

/-- Step 9: the tick starts, and READY is entered (R423); BOOT over, the boot ROM no longer owns the PKE (R404). The start of the tick is no boundary, and
no pulse of TICK_OUT follows it (R225, R230: DESIGN CHOICE, log 89). -/
def Dev.bootDone (d : Dev) (micros : Word) : Dev :=
  let d := d.event srcFirmware evBootDone [(16, bit (!d.pins.cold)), (17, d.sec.bootSlot.toNat), (18, 1), (20, micros.toNat)]
  { d with run := { d.run with state := .ready }, tick := { d.tick with running := true }, pins := { d.pins with cold := false }, booting := none
           pke := { d.pke with owner := .none } }

/-- The work of a step of R423. -/
def Dev.bootWork (d : Dev) (b : Booting) : Dev :=
  match b.step with
  | 1 => d.bootClocks
  | 2 => d.bootLink b.seen
  | 3 => d.bootRom b.seen
  | 4 => d.bootFirmware
  | 6 => d.bootChannels
  | 7 => d.bootFar b.seen
  | 8 => d.bootSanitize
  | _ => d

/-- One step of a boot in progress; it ends in READY or in FAULTED (R423). -/
def Dev.bootStep (d : Dev) (b : Booting) : Dev :=
  match d.bootFailure b with
  | some (cause, unit) => d.bootFaulted b cause unit
  | none => if 9 ≤ b.step then d.bootDone b.seen.micros else { d.bootWork b with booting := some { b with step := b.step + 1 } }

/-- BOOT_START: PERST# is deasserted with the rails in regulation, and boot begins (R423); its steps are those of the clock (log 5). -/
def Dev.bootStart (d : Dev) (seen : BootSeen) : Dev :=
  { d with
    pins := { d.pins with perst := false, tap := match d.pins.tap with
      | .bypass => .bypass
      | .idcode => .idcode
      | .samplePreload => .samplePreload
      | _ => .bypass }
    log := { d.log with time := d.log.time + seen.micros.toNat * 80000000 }
    booting := some { seen := seen, step := 1 } }

def execBootStart (seen : BootSeen) (s : State) : Host.Outcome State Fault Refusal :=
  s.act (fun d => if d.pins.up && d.pins.perst && d.run.state == .boot then d.bootStart seen else d)

/- The host's resets (R420, R421). -/

def execFlr (s : State) : Host.Outcome State Fault Refusal := s.act (fun d => d.unlessTripped Dev.flr)

/-- HOST_LINK_DOWN: of the function's link it acts as FLR; of the peer half it touches nothing but traffic on the way (R421). -/
def execHostLinkDown (peerHalf : Bool) (s : State) : Host.Outcome State Fault Refusal := s.act (fun d => if peerHalf then d else d.unlessTripped Dev.flr)

/- Module flash (R394, R396, R402). -/

/-- The slot that a component makes (R394, R396). -/
def componentSlot (c : FwComponent) (version : Word) : FwSlot :=
  { image := c.image, version := version, key := c.key, r := c.r, s := c.s }

/-- PLDM_FW_UPDATE: a component that verifies is written to a slot that does not run (R396). Firmware checks it without the PKE, which it needs for other
things alone (R411). -/
def execPldmFwUpdate (slotB : Bool) (version : Word) (component : FwComponent) (s : State) : Host.Outcome State Fault Refusal :=
  s.act (fun d =>
    let n : BitVec 2 := if slotB then 2 else 1
    let slot := componentSlot component version
    if !d.managed || d.sec.bootSlot == n || !slot.verifies then d
    else { d with flash := if slotB then { d.flash with slotB := slot } else { d.flash with slotA := slot } })

def ownerRecordOk (r : OwnerRecord) : Bool := r.format == 1 && decide (r.policy.toNat < 4) && decide (r.keys.length ≤ 4)

def ownerRecordBytes (r : OwnerRecord) : List Byte := Config.ownerBytes (some (r.format, r.policy, r.keys))

/-- A record with no key present leaves the module unclaimed (R402). -/
def ownerRecordStored (r : OwnerRecord) : Option OwnerRecord := if r.keys.any (·.isSome) then some r else none

/-- OWNER_RECORD_UPDATE (R402). -/
def execOwnerRecordUpdate (record : OwnerRecord) (signature : Option OwnerSignature) (s : State) : Host.Outcome State Fault Refusal :=
  s.act (fun d =>
    let ok := match d.flash.owner, signature with
      | none, _ => true
      | some _, none => false
      | some o, some g => ownerVerifies (some o) g.keyId g.r g.s (ownerRecordBytes record)
    if !d.managed || !ownerRecordOk record || !ok then d else { d with flash := { d.flash with owner := ownerRecordStored record } })

/- Boundary scan (R445). -/

/-- BOUNDARY_SCAN_INSTRUCTION: outside PERST# the EXTEST family acts as BYPASS; without rails, as after a trip, nothing acts (R446). As it is shifted
TDO has an edge, which takes up the pin's slew setting (R442). -/
def execBoundaryScanInstruction (i : TapInstruction) (s : State) : Host.Outcome State Fault Refusal :=
  s.act (fun d =>
    if !d.pins.up then d
    else
      let x : TapInstruction := match i with
        | .bypass => .bypass
        | .idcode => .idcode
        | .samplePreload => .samplePreload
        | other => if d.pins.perst then other else .bypass
      { d with pins := { d.pins with tap := x, tdoSlew := d.pins.slew.extractLsb' 4 2 } })

end Sys2Proof.Machine
end

