-- ==== Sys2Proof/Machine/Peer.lean ====
section
/-! DEFINITION. Peer ports (15 R357 to R364): configuration, link-up, flits and their recovery, packets and their routes. -/

namespace Sys2Proof.Machine

def Dev.port (d : Dev) (k : Nat) : Port := d.peer.ports.toList.getD k {}
def Dev.setPort (d : Dev) (k : Nat) (p : Port) : Dev := { d with peer := { d.peer with ports := d.peer.ports.setIfInBounds k p } }

def Dev.self (d : Dev) : Nat := d.pins.moduleId.toNat

/- PEER_CONFIG (R359). -/

/-- The configuration that a parameter block spells. -/
def peerCfgOf (b : List Byte) : PeerCfg :=
  { enable := BitVec.ofNat 4 (byteAt b 0), board := BitVec.ofNat 8 (byteAt b 1), neighbour := (b.drop 2).take 4, route := (b.drop 6).take 8 }

def PeerCfg.routeTo (c : PeerCfg) (m : Nat) : Nat := (c.route.getD m 0xF).toNat

/-- Ranges and reserved fields of the block. -/
def peerBlockOk (b : List Byte) : Bool :=
  let c := peerCfgOf b
  b.length == 32 && decide (byteAt b 0 < 16) && leAt b 14 18 == 0 &&
  c.neighbour.all (fun x => decide (x.toNat < 8) || x == 0xFF) &&
  (List.range 8).all (fun m => (decide (c.routeTo m < 4) && c.board.getLsbD m) || c.routeTo m == 0xF)

/-- The cases of BAD_PARAM that R359 lists, and the board that must include this module. -/
def PeerCfg.ok (c : PeerCfg) (self : Nat) : Bool :=
  c.board.getLsbD self && c.routeTo self == 0xF &&
  (List.range 8).all (fun m => c.routeTo m == 0xF || c.enable.getLsbD (c.routeTo m)) &&
  (List.range 4).all (fun k => !c.enable.getLsbD k || (let n := (c.neighbour.getD k 0xFF).toNat; decide (n < 8) && c.board.getLsbD n))

/-- DETAIL of PEER_CONFIG. -/
def Dev.peerDetail (d : Dev) : List Byte :=
  detailOf ((List.range 4).map (fun k => (k, (d.port k).state.code)) ++ [(4, packNat 1 (fun k => bit (d.port k).slow) 4)])

/-- PEER_CONFIG completes (R359). -/
def Dev.peerConfigured (d : Dev) : Dev :=
  (d.finishAll (fun k => match k with | .peerConfig => true | _ => false) .ok (fun _ => d.peerDetail)).pumpAll

/-- Whether every enabled port is up. -/
def Dev.portsUp (d : Dev) : Bool :=
  match d.peer.config with
  | some c => (List.range 4).all (fun k => !c.enable.getLsbD k || (d.port k).state == .up)
  | none => true

/-- PEER_CONFIG (R359). -/
def execPeerConfig (c : Packet) (block : HostRead) (s : State) : Host.Outcome State Fault Refusal :=
  s.act (fun d => d.command c 0x80
    { valid := c.fieldsOk (some 32) none 0 && (match block with | some b => peerBlockOk b | none => false) }
    (fun d f => match block with
      | none => d
      | some b =>
        let cfg := peerCfgOf b
        if !cfg.ok d.self then d.complete f false .badParam noDetail
        else
          let ports := d.peer.ports.mapIdx (fun k p =>
            ({ state := if cfg.enable.getLsbD k then .training else .disabled, retrains := p.retrains, badPkt := p.badPkt } : Port))
          let d : Dev := { d with
            peer := { d.peer with config := some cfg, ports := ports }
            host := { d.host with jobs := d.host.jobs ++ [{ kind := .peerConfig, cmd := f }] } }
          if d.portsUp then d.peerConfigured else d))

/-- PEER_CONFIG_TIMEOUT: 100 ms after acceptance (R359). -/
def execPeerConfigTimeout (s : State) : Host.Outcome State Fault Refusal := s.act (fun d => d.peerConfigured)

/- Sending (R361, R362). -/

/-- Bytes of a packet. -/
def PeerPacket.bytes (p : PeerPacket) : List Byte := leBytes 32 p.header.toNat ++ sectorBytes p.data

/-- A flit sent: it carries the last good SEQ and the packet buffers freed (R361). -/
def Dev.sendFlit (d : Dev) (k type : Nat) (seq : BitVec 12) (payload : Option (BitVec 1888)) : Dev :=
  let p := d.port k
  (d.setPort k { p with freed := p.freed - min p.freed 255, ackDue := false }).emit
    (.flit k type seq p.rxSeq (BitVec.ofNat 8 (min p.freed 255)) payload)

/-- A flit of the replay buffer sent, the first time or again. -/
def Dev.sendKept (d : Dev) (k : Nat) (f : SentFlit) : Dev := d.sendFlit k f.type f.seq (some f.payload)

/-- An IDLE flit, when no packet is ready or no credit is held, or there is an ACK or a credit that nothing else has carried (R362). The port sends
them one after another; the model shows one each time the port has sent what it can (log 35). -/
def Dev.idle (d : Dev) (k : Nat) : Dev :=
  let p := d.port k
  if p.state == .up && (p.ackDue || decide (0 < p.freed) || p.queue.isEmpty || p.credits == 0) then d.sendFlit k 0 0 none else d

/-- A packet begun while a credit is held (R362): its bytes join the stream; a forwarded one frees its buffer. -/
def Dev.startPacket (d : Dev) (k : Nat) (x : PeerPacket) : Dev :=
  let p := d.port k
  let d := d.setPort k { p with queue := p.queue.drop 1, credits := p.credits - 1, tx := p.tx ++ x.bytes }
  let d := match x.cameBy with
    | some j => d.setPort j { d.port j with freed := (d.port j).freed + 1 }
    | none => d
  d.emit (.packet k x.header x.data x.poison)

/-- The next 236 bytes of the stream as a DATA flit, with zeros after the last packet's end (log 35). -/
def Dev.sendData (d : Dev) (k : Nat) : Dev :=
  let p := d.port k
  let f : SentFlit := { type := 1, seq := p.txSeq, payload := BitVec.ofNat 1888 (leNat (p.tx.take 236)) }
  (d.setPort k { p with tx := p.tx.drop 236, txSeq := p.txSeq + 1, replay := p.replay ++ [f] }).sendKept k f

/-- What port k can send now (R361 to R363): a packet begins when the stream no longer fills a flit and a credit is held; a flit leaves when it is
full or no packet can begin; a full replay buffer holds the sender. At most `n` of either. -/
def Dev.sendLoop : Nat → Dev → Nat → Dev
  | 0, d, _ => d
  | n + 1, d, k =>
    let p := d.port k
    if p.state ≠ .up ∨ 512 ≤ p.replay.length then d
    else
      match (if p.tx.length < 236 ∧ 0 < p.credits then p.queue.head? else none) with
      | some x => (d.startPacket k x).sendLoop n k
      | none => if p.tx.isEmpty then d else (d.sendData k).sendLoop n k

/-- Port k sends what it can. -/
def Dev.sendAll (d : Dev) (k : Nat) : Dev := d.sendLoop (4 * (d.port k).queue.length + (d.port k).tx.length / 236 + 2) k

/-- A packet for another module joins those that leave by the port that ROUTE names (R360); with no route it is lost (log 35). -/
def Dev.route (d : Dev) (x : PeerPacket) (dst : Nat) : Dev :=
  match d.peer.config with
  | none => d
  | some c =>
    let k := c.routeTo dst
    if k < 4 then d.setPort k { d.port k with queue := (d.port k).queue ++ [x] } else d

/-- Every port sends what it can, and is then idle. -/
def Dev.sendPorts (d : Dev) : Dev := [0, 1, 2, 3].foldl Dev.idle ([0, 1, 2, 3].foldl Dev.sendAll d)

/- Replay (R363). -/

/-- Every unacknowledged flit sent again from the oldest one; the eighth replay in a row of one flit makes the port retrain. -/
def Dev.replay (d : Dev) (k : Nat) : Dev :=
  let p := d.port k
  if p.replay.isEmpty then d
  else
    let p := { p with replays := satInc p.replays, inRow := p.inRow + 1 }
    if 8 ≤ p.inRow then d.setPort k { p with state := .training, retrains := satInc p.retrains, inRow := 0 }
    else p.replay.foldl (fun d f => d.sendKept k f) (d.setPort k p)

/-- An ACK covers the flits up to its SEQ. -/
def Port.acked (p : Port) (ack : BitVec 12) : Port :=
  match p.replay.findIdx? (fun f => f.seq == ack) with
  | some i => { p with replay := p.replay.drop (i + 1), inRow := 0 }
  | none => p

/-- PEER_REPLAY_TIMEOUT: 1 µs without ACK progress (R363). -/
def execPeerReplayTimeout (port : BitVec 2) (s : State) : Host.Outcome State Fault Refusal :=
  s.act (fun d => if (d.port port.toNat).state = .up then d.replay port.toNat else d)

/-- PEER_RETRAIN_TIMEOUT: a retrain has failed for 10 ms (R363). -/
def execPeerRetrainTimeout (port : BitVec 2) (s : State) : Host.Outcome State Fault Refusal :=
  s.act (fun d =>
    let k := port.toNat
    let p := d.port k
    if p.state = .training ∧ p.wasUp then (d.setPort k { p with state := .down }).event (srcPort k) evPeerLinkDown [] else d)

/- Link-up (R358). -/

/-- The CONTROL flit of a link-up: it gives this MODULE_ID, in a layout the spec does not give (log 35). -/
def Dev.controlFlit (d : Dev) : SentFlit := { type := 3, seq := 0, payload := BitVec.ofNat 1888 d.freeValue }

/-- The MODULE_IDs are exchanged (R358): the port is in `state`, and has sent its CONTROL flit. -/
def Dev.exchange (d : Dev) (k : Nat) (state : PortState) (partner : BitVec 3) (slow : Bool) : Dev :=
  let f := d.controlFlit
  (d.drew.setPort k { d.port k with state := state, partner := partner, slow := slow }).sendKept k f

/-- The first link-up of a port that is used: 128 credits, and the CONTROL flit kept for replay (R358, R362, R363). -/
def Dev.portUp (d : Dev) (k : Nat) (partner : BitVec 3) (slow : Bool) : Dev :=
  let f := d.controlFlit
  ((d.setPort k { d.port k with wasUp := true, credits := 128, txSeq := 1, rxSeq := 0, replay := [f] }).linkTrains (5 + k)).exchange k .up partner slow

/-- A port is up that was not: a PEER_CONFIG that waited for the last one completes (R359). -/
def Dev.nowUp (d : Dev) : Dev := if d.portsUp then d.peerConfigured else d

/-- PEER_LINK_UP (R357, R358). A port that retrained goes on with a replay (R363); what waited for the port is sent (R362). -/
def execPeerLinkUp (port : BitVec 2) (partner : BitVec 3) (slow : Bool) (s : State) : Host.Outcome State Fault Refusal :=
  s.act (fun d =>
    let k := port.toNat
    let p := d.port k
    match d.peer.config with
    | none => d
    | some c =>
      let expected := (c.neighbour.getD k 0xFF).toNat
      if p.state ≠ .training then d
      else if partner = d.pins.moduleId then
        ((d.linkTrains (5 + k)).exchange k .conflict partner slow).event (srcPort k) evPeerIdConflict [(16, partner.toNat)]
      else if partner.toNat ≠ expected then
        ((d.linkTrains (5 + k)).exchange k .miswired partner slow).event (srcPort k) evPeerMiswire [(16, expected), (17, partner.toNat)]
      else if p.wasUp then
        let d := (d.setPort k { p with state := .up, slow := slow }).linkTrains (5 + k)
        (p.replay.foldl (fun d f => d.sendKept k f) d).sendPorts.nowUp
      else (d.portUp k partner slow).sendPorts.nowUp)

end Sys2Proof.Machine
end

