-- ==== Sys2Proof/Machine/Reduce.lean ====
section
/-! DEFINITION. Cross-module reduction (15 R364 to R373): plans, module sums, CONTRIB packets, folds; flits received. -/

namespace Sys2Proof.Machine

/- The parameter block (R365). -/

def planId (b : List Byte) : Nat := byteAt b 0
def planOp (b : List Byte) : AccOp := match byteAt b 1 with
  | 1 => .modAdd
  | 2 => .int32Add
  | _ => .fp32Add
def planModules (b : List Byte) : List Nat := (List.range 8).filter (fun m => (byteAt b 2).testBit m)
def planDies (b : List Byte) : List Nat := (List.range 4).filter (fun i => (byteAt b 3).testBit i)
def planShards (b : List Byte) : Nat := leAt b 4 2
def planPhase (b : List Byte) : Nat := leAt b 8 4
def planPeriod (b : List Byte) : Nat := leAt b 12 2
def planDeadTicks (b : List Byte) : Nat := leAt b 14 2
def planDeadCycle (b : List Byte) : Nat := leAt b 16 4
def planReady (b : List Byte) : Nat := leAt b 20 2
def planStride (b : List Byte) : Nat := leAt b 24 4

/-- An area: region and sector offset. SOURCE 32, BACKUP 40, STAGING 48, LANDING 56. -/
def areaAt (b : List Byte) (off : Nat) : Nat × Nat := (byteAt b off, leAt b (off + 4) 4)

/-- A shard record. -/
structure Shard where
  owner : Nat
  flags : Nat
  first : Nat
  region : Nat
  sectors : Nat
  off : Nat
  result : Nat
  keyset : Word
  reserved : Nat
  backupOf : List Nat
deriving DecidableEq, Repr

def shardAt (b : List Byte) (h : Nat) : Shard :=
  let p := 64 + 32 * h
  { owner := byteAt b p, flags := byteAt b (p + 1), first := byteAt b (p + 2), region := byteAt b (p + 3), sectors := leAt b (p + 4) 4
    off := leAt b (p + 8) 4, result := leAt b (p + 12) 4, keyset := BitVec.ofNat 32 (leAt b (p + 16) 4), reserved := leAt b (p + 20) 4
    backupOf := (List.range 8).map (fun m => byteAt b (p + 24 + m)) }

def planShardList (b : List Byte) : List Shard := (List.range (planShards b)).map (shardAt b)

/- Checks (R365, R367). -/

def headOk (b : List Byte) : Bool :=
  decide (planId b < 16) && decide (1 ≤ byteAt b 1) && decide (byteAt b 1 ≤ 3) && byteAt b 3 != 0 && decide (byteAt b 3 < 16) &&
  decide (1 ≤ planShards b) && decide (planShards b ≤ 256) && leAt b 6 2 == 0 && decide (1 ≤ planDeadTicks b) && decide (planDeadTicks b ≤ 255) &&
  decide (2048 ≤ planDeadCycle b) && decide (planDeadTicks b + 1 ≤ planReady b) && decide (planReady b ≤ 256) && leAt b 22 2 == 0 && leAt b 28 4 == 0 &&
  ([32, 40, 48, 56] : List Nat).all (fun p => leAt b (p + 1) 3 == 0) && (planPeriod b == 0 || decide (planReady b ≤ planPeriod b))

/-- BACKUP_OF of a shard. -/
def backupOk (modules : List Nat) (xs : List Nat) : Bool :=
  let named := xs.filter (fun x => decide (x < 0xFE))
  (xs.zipIdx).all (fun p => if modules.contains p.2 then p.1 == 0xFF || (modules.contains p.1 && p.1 != p.2) else p.1 == 0xFE) &&
  named.eraseDups.length == named.length

def shardOk (b : List Byte) (x : Shard) : Bool :=
  (planModules b).contains x.owner && decide (x.flags < 2) && x.sectors != 0 && x.reserved == 0 && backupOk (planModules b) x.backupOf &&
  (byteAt b 1 == 1 || (x.first == 0 && x.keyset == 0)) && (x.flags == 0 || x.result != 0)

/-- SHARD_OFF ranges do not overlap (R366). -/
def disjoint : List Shard → Bool
  | [] => true
  | x :: xs => xs.all (fun y => decide (x.off + x.sectors ≤ y.off) || decide (y.off + y.sectors ≤ x.off)) && disjoint xs

def planBlockOk (b : List Byte) : Bool :=
  decide (64 ≤ b.length) && headOk b && b.length == 64 + 32 * planShards b && (planShardList b).all (shardOk b) && disjoint (planShardList b)

/-- Sectors `n` from `x` on lie in a near-tier region of the image. -/
def Image.holds (im : Image) (region x n : Nat) : Bool :=
  match im.regions[region]? with
  | some r => !r.far && decide (x + n ≤ r.length)
  | none => false

/-- The areas that this module uses (R366, R367). -/
def Dev.areasOk (d : Dev) (im : Image) (b : List Byte) : Bool :=
  let (sr, so) := areaAt b 32
  let (br, bo) := areaAt b 40
  let (gr, go) := areaAt b 48
  let (lr, lo) := areaAt b 56
  (planShardList b).all (fun x =>
    (planDies b).all (fun i => im.holds sr (so + i * planStride b + x.off) x.sectors &&
      (!x.backupOf.contains d.self || im.holds br (bo + i * planStride b + x.off) x.sectors)) &&
    im.holds gr (go + 4 * x.off) (4 * x.sectors) &&
    (x.owner != d.self || (im.holds lr (lo + 16 * x.off) (16 * x.sectors) && im.holds x.region x.result x.sectors)))

/-- Primes of a shard's sectors (R366). -/
def Keys.primeOf (k : Keys) (x : Shard) (s : Nat) : Option Nat :=
  (k.set? x.keyset).bind (fun u => (u.table.entry? (x.first + s / (2 ^ u.table.logN.toNat / 128))).map (·.q))

/-- The last sector of each limb has its prime. -/
def Keys.primesOk (k : Keys) (x : Shard) : Bool :=
  match k.set? x.keyset with
  | some u =>
    let per := 2 ^ u.table.logN.toNat / 128
    (List.range ((x.sectors - 1) / max per 1 + 1)).all (fun j => (u.table.entry? (x.first + j)).isSome)
  | none => false

def Dev.planOk (d : Dev) (im : Image) (b : List Byte) : Bool :=
  (planModules b).contains d.self && decide (planDeadCycle b < im.period) && d.areasOk im b &&
  (planModules b).all (fun m => m == d.self || (match d.peer.config with
    | some c => c.board.getLsbD m && decide (c.routeTo m < 4)
    | none => false)) &&
  (byteAt b 1 != 1 || (planShardList b).all (fun x => d.keys.primesOk x))

/-- REDUCE_STATUSn as an install clears it: what hardware has set in the same Nucleus cycle stays, of LATE_PKTS the packets of that cycle (R7, R374). -/
def Dev.statusCleared (d : Dev) (n : Nat) : ReduceStatus :=
  let marks := (d.fresh.filter (fun x => d.tick.running && sameNucleus x.1 d.tick.wall && x.2.1 == 0x1200 + 4 * n)).map (·.2.2)
  let set := fun (i : Nat) => marks.any (fun x => x.getLsbD i)
  { missing := set 1, late := set 2, digest := set 3, backupUsed := set 4, latePkts := satAdd 0 (marks.countP (fun x => x.getLsbD 16)) }

/-- REDUCE_PLAN (R365, R367). -/
def execReducePlan (c : Packet) (block : HostRead) (s : State) : Host.Outcome State Fault Refusal :=
  s.act (fun d => d.command c 0x81
    { valid := c.fieldsOk (some c.paramLen) none 0 && (match block with | some b => b.length == c.paramLen && planBlockOk b | none => false) }
    (fun d f => match block, d.run.image with
      | some b, some im =>
        if !d.planOk im b then d.complete f false .badParam noDetail
        else
          let plan : Plan := { block := b, digest := BitVec.ofNat 32 (leAt (sha384 b) 0 4) }
          let d : Dev := { d with peer := { d.peer with plans := d.peer.plans.setIfInBounds (planId b) (some plan)
                                                        status := d.peer.status.setIfInBounds (planId b) (d.statusCleared (planId b)) } }
          d.complete f false .ok noDetail
      | _, _ => d))

/- Sectors of areas. -/

def Dev.plan (d : Dev) (n : Nat) : Option Plan := d.peer.plans.toList.getD n none
def Dev.setPlan (d : Dev) (n : Nat) (p : Plan) : Dev := { d with peer := { d.peer with plans := d.peer.plans.setIfInBounds n (some p) } }
def Dev.reduceStatus (d : Dev) (n : Nat) : ReduceStatus := d.peer.status.toList.getD n {}
def Dev.setReduceStatus (d : Dev) (n : Nat) (f : ReduceStatus → ReduceStatus) : Dev :=
  { d with peer := { d.peer with status := d.peer.status.setIfInBounds n (f (d.reduceStatus n)) } }

/-- A bit of REDUCE_STATUSn set by hardware (R374). -/
def Dev.raiseReduce (d : Dev) (n bitNo : Nat) (f : ReduceStatus → ReduceStatus) : Dev :=
  (d.setReduceStatus n f).mark (0x1200 + 4 * n) (BitVec.ofNat 32 (2 ^ bitNo))

def Dev.areaSector (d : Dev) (b : List Byte) (area x : Nat) : Nat := d.regionSector (areaAt b area).1 ((areaAt b area).2 + x)

/-- What the ECC finds on the reads of a reduction, by near-tier sector (R205, R206). -/
abbrev Seen := List (Nat × SectorEcc)

def Seen.at (seen : Seen) (s : Nat) : SectorEcc := ((seen.find? (fun p => p.1 == s)).map (·.2)).getD {}

/-- The accesses that combine sources into dst in order: the first is copied, each further one accumulated (R368, R370, R211). -/
def combining (seen : Seen) (op : AccOp) (q dst : Nat) (w : ReduceWork) : List Nat → List Held
  | [] => []
  | a :: rest => .copy dst a (seen.at a) w :: rest.map (fun s => .fold op q dst s (seen.at s) (seen.at dst) w)

/-- The prime of a sector of a shard, 0 where the operation takes none. -/
def Dev.shardPrime (d : Dev) (b : List Byte) (x : Shard) (s : Nat) : Nat := if byteAt b 1 = 1 then (d.keys.primeOf x s).getD 0 else 0

/- Module sums (R368). -/

/-- The roles this module holds in a shard: COPY and rank. -/
def rolesOf (self : Nat) (x : Shard) : List (Bool × Nat) := (false, self) :: ((List.range 8).filter (fun m => x.backupOf.getD m 0xFF == self)).map (fun m => (true, m))

/-- The accesses that make the module sum of sector s for a role, and where in STAGING it lies (R366, R368). -/
def Dev.moduleSum (d : Dev) (seen : Seen) (b : List Byte) (x : Shard) (copy : Bool) (s : Nat) (w : ReduceWork) : List Held × Nat :=
  let op := planOp b
  let q := d.shardPrime b x s
  let part := fun (i : Nat) => d.areaSector b (if copy then 40 else 32) (i * planStride b + x.off + s)
  let t01 := d.areaSector b 48 (4 * x.off + (if copy then 2 * x.sectors else 0) + s)
  let t23 := t01 + x.sectors
  let low := ((planDies b).filter (fun i => decide (i < 2))).map part
  let high := ((planDies b).filter (fun i => decide (2 ≤ i))).map part
  let both := combining seen op q t01 w low ++ combining seen op q t23 w high
  if low.isEmpty then (both, t23)
  else if high.isEmpty then (both, t01)
  else (both ++ [.fold op q t01 t23 (seen.at t23) (seen.at t01) w], t01)

/-- Header of a CONTRIB packet (R364), with no hop made. -/
def contribHeader (src dst plan rank e shard sector : Nat) (copy : Bool) (digest : Word) : BitVec 256 :=
  BitVec.ofNat 256 (1 + (src + dst * 8) * 2 ^ 8 + (plan + bit copy * 16) * 2 ^ 16 + rank * 2 ^ 24 + e % 2 ^ 32 * 2 ^ 32 + shard * 2 ^ 64 +
    sector * 2 ^ 96 + digest.toNat * 2 ^ 128)

/- Receiving CONTRIB packets (R364, R365, R369). -/

def hdrSrc (h : BitVec 256) : Nat := field h.toNat 8 3
def hdrDst (h : BitVec 256) : Nat := field h.toNat 11 3
def hdrHops (h : BitVec 256) : Nat := field h.toNat 14 2

/-- A packet whose KIND is defined and whose reserved fields are 0 (R364). -/
def packetOk (h : BitVec 256) : Bool :=
  let x := h.toNat
  field x 0 8 == 1 && field x 21 3 == 0 && field x 27 5 == 0 && field x 80 16 == 0 && field x 160 96 == 0

/-- Whether a run tick and cycle lie before the deadline of instance e (R369). -/
def beforeDeadline (b : List Byte) (e runTick cycle : Nat) : Bool :=
  let t := planPhase b + e * planPeriod b + planDeadTicks b
  decide (runTick < t) || (decide (runTick = t) && decide (cycle < planDeadCycle b))

/-- The store of a packet's sector to its LANDING slot, or why it is discarded, with what that leaves; `port` is the one whose buffer holds the packet. -/
def Dev.contributed (d : Dev) (h : BitVec 256) (data : SectorBits) (poison : BitVec 32) (port : Option Nat) : Dev × Option Held :=
  let x := h.toNat
  let n := field x 16 4
  let copy := h.getLsbD 20
  let rank := field x 24 3
  let e := field x 32 32
  let late := fun (d : Dev) => (d.setReduceStatus n (fun r => { r with latePkts := satInc r.latePkts })).mark (0x1200 + 4 * n) 0x10000
  match d.plan n with
  | none => (late d, none)
  | some p =>
    if field x 128 32 ≠ p.digest.toNat then
      let d := d.raiseReduce n 3 (fun r => { r with digest := true })
      if p.digestLogged.contains e then (d, none)
      else ((d.setPlan n { p with digestLogged := e :: p.digestLogged }).event srcFirmware evReduceDigest [(16, n), (17, hdrSrc h), (20, e)], none)
    else match p.instances.find? (fun i => i.e == e) with
      | none => (late d, none)
      | some i =>
        if !(d.running && beforeDeadline p.block e d.drainTick d.tick.cycle) then (late d, none)
        else
          let k := field x 64 16
          let s := field x 96 32
          let z := shardAt p.block k
          let fits := decide (k < planShards p.block) && decide (s < z.sectors) && z.owner == d.self && (planModules p.block).contains rank
          if !fits then (d, none)
          else
            let dst := d.areaSector p.block 56 (16 * z.off + (2 * rank + bit copy) * z.sectors + s)
            let i' : Instance := { i with landed := if i.landed.contains (k, rank, copy, s) then i.landed else (k, rank, copy, s) :: i.landed }
            (d.setPlan n { p with instances := p.instances.map (fun y => if y.e = e then i' else y) }, some (.store dst data poison port))

/-- The buffer of port k that a packet held is free (R362). -/
def Dev.freeBuffer (d : Dev) (port : Option Nat) : Dev :=
  match port with
  | some k => d.setPort k { d.port k with freed := (d.port k).freed + 1 }
  | none => d

/-- A CONTRIB packet for this module. Its buffer is free once it has been written onward to memory, or discarded (R362). -/
def Dev.contribution (d : Dev) (h : BitVec 256) (data : SectorBits) (poison : BitVec 32) (port : Option Nat) : Dev :=
  match d.contributed h data poison port with
  | (d, none) => d.freeBuffer port
  | (d, some x) => if d.mustWait d.held x then d.hold x else (d.serveMem x).freeBuffer port

/-- CONTRIB_PACKET_RECEIVE: a packet for this module (R369). -/
def execContribPacketReceive (header : BitVec 256) (data : SectorBits) (poison : BitVec 32) (s : State) : Host.Outcome State Fault Refusal :=
  s.act (fun d => if packetOk header && hdrDst header == d.self && !d.pins.tripped then d.contribution header data poison none else d)

/-- A packet on its way: to this module through its own near tier, or by a port (R360, R368). -/
def Dev.sendPacket (d : Dev) (h : BitVec 256) (x : Sector) : Dev :=
  if hdrDst h = d.self then d.contribution h x.data x.poison none
  else d.route { header := h, data := x.data, poison := x.poison, cameBy := none } (hdrDst h)

/-- An access served: what it gives goes to its requester. -/
def Dev.serveHeld (d : Dev) (h : Held) : Dev :=
  match h with
  | .send hdr s e _ =>
    let r := d.readNear (d.mem.nearKey s).1 (d.mem.nearKey s).2 e
    r.1.sendPacket hdr r.2
  | .store s x p port => (d.serveMem (.store s x p port)).freeBuffer port
  | .fetch _ c p o e => d.nearServe c p o e
  | .fill _ _ t n body seen => if body then d.bodyServe t n seen else d.headServe t n seen
  | .move _ n => d.serveMove n
  | .swap _ _ => d.transitSwap
  | .doorbell n v => d.streamDoorbell n v
  | h => d.serveMem h

/-- Whether a port may have something to send once an access has been served: a module sum, or the credit of a buffer. -/
def Held.forPorts : Held → Bool
  | .send .. => true
  | .store _ _ _ port => port.isSome
  | _ => false

/-- An access arrives: it is served, or waits its turn. -/
def Dev.receive (d : Dev) (h : Held) : Dev := if d.mustWait d.held h then { d with held := d.held ++ [h] } else d.serveHeld h

/-- The accesses that wait, in order: those whose channels are free are served; gives those that still wait. What they add to the queue comes after. -/
def Dev.serveAll (d : Dev) (kept : List Held) : List Held → Dev
  | [] => { d with held := kept ++ d.held }
  | h :: hs => if d.mustWait kept h then d.serveAll (kept ++ [h]) hs else (d.serveHeld h).serveAll kept hs

/-- The channels' queues move on (R208). -/
def Dev.serveQueues (d : Dev) : Dev :=
  let e := { d with held := [] }.serveAll [] d.held
  if d.held.any Held.forPorts then e.sendPorts else e

/-- The module sums of one shard and role, built and sent sector by sector; each access waits for its channels (R208). -/
def Dev.sumShard (d : Dev) (seen : Seen) (p : Plan) (n e k : Nat) (x : Shard) (role : Bool × Nat) : Dev :=
  (List.range x.sectors).foldl (fun d s =>
    let w : ReduceWork := ⟨n, e, k, false⟩
    let r := d.moduleSum seen p.block x role.1 s w
    (r.1 ++ [Held.send (contribHeader d.self x.owner n role.2 e k s role.1 p.digest) r.2 (seen.at r.2) w]).foldl Dev.receive d) d

/-- REDUCE_MODULE_SUM: tick cycle 0 of run tick T + 1 (R368). -/
def Dev.moduleSums (d : Dev) (n : Nat) (seen : Seen) : Dev :=
  match d.plan n with
  | none => d
  | some p =>
    match (if d.running && d.tick.inRun && !d.run.stopDrain then
        p.instances.find? (fun i => !i.summed && decide (planPhase p.block + i.e * planPeriod p.block + 1 = d.tick.runTick)) else none) with
    | none => d
    | some i =>
      let p' : Plan := { p with instances := p.instances.map (fun y => if y.e = i.e then { y with summed := true } else y) }
      (((planShardList p.block).zipIdx).foldl (fun d x => (rolesOf d.self x.1).foldl (fun d role => d.sumShard seen p n i.e x.2 x.1 role) d)
        (d.setPlan n p')).sendPorts

def execReduceModuleSum (plan : PlanReads) (s : State) : Host.Outcome State Fault Refusal :=
  s.act (fun d => d.moduleSums plan.plan.toNat plan.seen)

/- Folds (R370, R371). -/

/-- A copy is complete when all its sectors have landed (R369). -/
def Instance.complete (i : Instance) (k rank : Nat) (copy : Bool) (sectors : Nat) : Bool :=
  (List.range sectors).all (fun s => i.landed.contains (k, rank, copy, s))

/-- The copy chosen of a rank: none when the contribution is missing (R370). -/
def Instance.choose (i : Instance) (k : Nat) (x : Shard) (rank : Nat) : Option Bool :=
  if i.complete k rank false x.sectors then some false
  else if x.backupOf.getD rank 0xFF < 8 ∧ i.complete k rank true x.sectors then some true
  else none

/-- A shard that is not folded: its result poisoned, and POISON in its header (R370), as part of the reduction work `w`. -/
def Dev.poisonShard (d : Dev) (seen : Seen) (x : Shard) (w : Option ReduceWork) : Dev :=
  let d := (List.range x.sectors).foldl (fun (d : Dev) s => d.receive (.spoil (d.regionSector x.region (x.result + s)) w)) d
  if x.flags = 1 then
    let dst := d.regionSector x.region (x.result - 1)
    d.receive (.mark dst (seen.at dst) w)
  else d

/-- A shard folded in ascending rank (R370). -/
def Dev.foldShard (d : Dev) (seen : Seen) (p : Plan) (x : Shard) (w : ReduceWork) (chosen : List (Nat × Bool)) : Dev :=
  (List.range x.sectors).foldl (fun (d : Dev) s =>
    (combining seen (planOp p.block) (d.shardPrime p.block x s) (d.regionSector x.region (x.result + s)) w
      (chosen.map (fun c => d.areaSector p.block 56 (16 * x.off + (2 * c.1 + bit c.2) * x.sectors + s)))).foldl Dev.receive d) d

/-- What the owner does with one of its shards at the deadline. -/
def Dev.decideShard (d : Dev) (seen : Seen) (p : Plan) (n : Nat) (i : Instance) (k : Nat) (x : Shard) : Dev :=
  let ranks := planModules p.block
  match ranks.find? (fun m => (i.choose k x m).isNone) with
  | some m =>
    ((d.poisonShard seen x (some ⟨n, i.e, k, false⟩)).raiseReduce n 1 (fun r => { r with missing := true })).event srcFirmware evReduceMissing
      [(16, n), (17, m), (18, k), (20, i.e)]
  | none =>
    let chosen := ranks.map (fun m => (m, (i.choose k x m).getD false))
    let d := d.foldShard seen p x ⟨n, i.e, k, true⟩ chosen
    if chosen.any (·.2) then d.raiseReduce n 4 (fun r => { r with backupUsed := true }) else d

/-- Shards that this module owns, with their indices. -/
def ownedShards (self : Nat) (b : List Byte) : List (Shard × Nat) := ((planShardList b).zipIdx).filter (fun x => x.1.owner == self)

/-- REDUCE_DEADLINE (R370). -/
def Dev.reduceDeadline (d : Dev) (n : Nat) (seen : Seen) : Dev :=
  match d.plan n with
  | none => d
  | some p =>
    match (if d.running then p.instances.find? (fun i => !i.folded && !beforeDeadline p.block i.e d.drainTick d.tick.cycle &&
        decide (d.tick.runTick < planPhase p.block + i.e * planPeriod p.block + planReady p.block)) else none) with
    | none => d
    | some i =>
      let p' : Plan := { p with instances := p.instances.map (fun y => if y.e = i.e then { y with folded := true } else y) }
      (ownedShards d.self p.block).foldl (fun d x => d.decideShard seen p n i x.2 x.1) (d.setPlan n p')

def execReduceDeadline (plan : PlanReads) (s : State) : Host.Outcome State Fault Refusal :=
  s.act (fun d => d.reduceDeadline plan.plan.toNat plan.seen)

/-- REDUCE_READY: tick cycle 0 of run tick T + READY_TICKS; a shard that is not folded, or whose fold still waits at a channel, is stopped and poisoned
(R371). -/
def Dev.reduceReady (d : Dev) (n : Nat) : Dev :=
  match d.plan n with
  | none => d
  | some p =>
    match (if d.running then p.instances.find? (fun i => decide (planPhase p.block + i.e * planPeriod p.block + planReady p.block ≤ d.tick.runTick))
        else none) with
    | none => d
    | some i =>
      let folding := fun (h : Held) (k : Nat) => h.work == some ⟨n, i.e, k, true⟩
      let late := (ownedShards d.self p.block).filter (fun x => !i.folded || d.held.any (fun h => folding h x.2))
      let d := d.setPlan n { p with instances := p.instances.filter (fun y => y.e != i.e) }
      let d := { d with held := d.held.filter (fun h => !late.any (fun x => folding h x.2)) }
      late.foldl (fun d x =>
        ((d.poisonShard [] x.1 none).raiseReduce n 2 (fun r => { r with late := true })).event srcFirmware evReduceLate [(16, n), (18, x.2), (20, i.e)]) d

def execReduceReady (plan : BitVec 4) (s : State) : Host.Outcome State Fault Refusal := s.act (fun d => d.reduceReady plan.toNat)

/- Flits received (R361 to R364). -/

/-- A packet received whole on port k: for this module, for another one, or discarded (R360, R364). -/
def Dev.packetIn (d : Dev) (k : Nat) (h : BitVec 256) (data : SectorBits) (poison : BitVec 32) : Dev :=
  let bad := fun (d : Dev) => d.setPort k { d.port k with badPkt := satInc (d.port k).badPkt, freed := (d.port k).freed + 1 }
  if !packetOk h then bad d
  else if hdrDst h = d.self then
    d.contribution h data poison (some k)
  else if 2 ≤ hdrHops h then (bad d).event (srcPort k) evPeerRouteLoop [(16, hdrSrc h), (17, hdrDst h)]
  else
    let h' := h + BitVec.ofNat 256 (2 ^ 14)
    d.route { header := h', data := data, poison := poison, cameBy := some k } (hdrDst h)

/-- Where a packet would begin, zeros up to the end of a flit are what its sender had nothing to fill with (log 35). -/
def Port.unpadded (p : Port) : Port := if p.rx.length < 236 && p.rx.all (fun x => x == 0) then { p with rx := [] } else p

/-- The whole packets of the receive stream; at most `n`. -/
def Dev.parsePackets : Nat → Dev → Nat → List (BitVec 32) → Dev
  | 0, d, _, _ => d
  | n + 1, d, k, marks =>
    let p := d.port k
    if p.rx.length < 608 then d
    else
      let h := BitVec.ofNat 256 (leNat (p.rx.take 32))
      let x := sectorOfBytes ((p.rx.drop 32).take 576)
      ((d.setPort k ({ p with rx := p.rx.drop 608 } : Port).unpadded).packetIn k h x (marks.headD 0)).parsePackets n k marks.tail

/-- A flit discarded, with a replay request unless one has gone out (R363). -/
def Dev.discardFlit (d : Dev) (k : Nat) : Dev :=
  let p := d.port k
  if p.discarding then d else (d.setPort k { p with discarding := true }).sendFlit k 2 0 none

/-- ACK and CREDITS of a good flit. -/
def Port.credit (p : Port) (ack : BitVec 12) (credits : Nat) : Port := { p.acked ack with credits := p.credits + credits }


/-- PEER_FLIT_RECEIVE (R363): header fields TYPE, SEQ, ACK, CREDITS. A reserved TYPE code is ignored (log 35). -/
def Dev.flitIn (d : Dev) (k : Nat) (crcGood : Bool) (header : BitVec 48) (payload : BitVec 1888) (marks : List (BitVec 32)) : Dev :=
  let p := d.port k
  let type := field header.toNat 0 4
  let seq := header.extractLsb' 4 12
  let ack := header.extractLsb' 16 12
  let credits := field header.toNat 28 8
  if p.state ≠ .up then d
  else if !crcGood then d.discardFlit k
  else if type = 1 ∨ type = 3 then
    if seq ≠ p.rxSeq + 1 then d.discardFlit k
    else
      let q := { p.credit ack credits with rxSeq := seq, discarding := false, ackDue := true }
      if type = 3 then (d.setPort k q).sendPorts
      else ((d.setPort k { q with rx := q.rx ++ leBytes 236 payload.toNat }).parsePackets 2 k marks).sendPorts
  else if p.discarding then d
  else if type = 0 then (d.setPort k (p.credit ack credits)).sendPorts
  else if type = 2 then ((d.setPort k (p.credit ack credits)).replay k).sendPorts
  else d

def execPeerFlitReceive (port : BitVec 2) (crcGood : Bool) (header : BitVec 48) (payload : BitVec 1888) (poison : List (BitVec 32)) (s : State) :
    Host.Outcome State Fault Refusal :=
  s.act (fun d => d.flitIn port.toNat crcGood header payload poison)

end Sys2Proof.Machine
end

