-- ==== Sys2Proof/Machine/Window.lean ====
section
/-! DEFINITION. Accesses that come to the channels one by one from outside: the BAR4 window (14 R318, R320) and accumulates (09 R211). -/

namespace Sys2Proof.Machine

/-- ACCUMULATE, with what the ECC of the target finds (R205, R206, R211, R212); to an address outside the near tier there is none (R212). -/
def execAccumulate (op : AccOp) (sector : Nat) (operand : SectorBits) (poison : AccErrors) (prime : Residue) (s : State) :
    Host.Outcome State Fault Refusal :=
  s.act (fun d => if d.mem.nearValid sector && !d.pins.tripped then d.receive (.accumulate op sector operand poison.operand prime poison.target) else d)

/- The BAR4 window (R318, R320). -/

def Dev.windowShut (d : Dev) : Bool := d.run.state == .boot || d.run.state == .faulted || d.run.state == .sanitizing

/-- Sector and byte of the window's byte o. -/
def Dev.windowAt (d : Dev) (o : Nat) : Nat × Nat := (d.host.bar4Base.toNat + o / 576, o % 576)

/-- An access cut at sector boundaries: window byte and length of each piece. -/
def pieces (o : Nat) : Nat → Nat → List (Nat × Nat)
  | 0, _ => []
  | _, 0 => []
  | fuel + 1, n =>
    let k := min n (576 - o % 576)
    (o, k) :: pieces (o + k) fuel (n - k)

/-- BAR4_WRITE (R320). -/
def execBar4Write (offset : Nat) (data : List Byte) (poisoned : WindowWrite) (s : State) : Host.Outcome State Fault Refusal :=
  s.act (fun d =>
    if d.windowShut || d.pins.tripped || decide (d.host.bar4Size < offset + data.length) then d
    else (pieces offset (data.length + 1) data.length).zipIdx.foldl (fun d p =>
      d.receive (.write (d.windowAt p.1.1).1 (d.windowAt p.1.1).2 ((data.drop (p.1.1 - offset)).take p.1.2) poisoned.poisoned (poisoned.ecc.getD p.2 {}))) d)

/-- BAR4_READ (R320). -/
def execBar4Read (offset : Nat) (length : WindowRead) (s : State) : Host.Outcome State Fault Refusal :=
  s.act (fun d =>
    let n := length.length
    if d.host.bar4Size < offset + n ∨ d.pins.tripped then d
    else if d.windowShut then d.emit (.window (List.replicate n 0xFF) false)
    else d.receive (.read ((pieces offset (n + 1) n).map (fun p => ((d.windowAt p.1).1, (d.windowAt p.1).2, p.2))) length.ecc))

end Sys2Proof.Machine
end

