-- ==== Sys2Proof/Machine/Clock.lean ====
section
/-! DEFINITION. The clock (log 5): on an empty queue the tick posts the rows that fall due of themselves in its present cycle, phase by phase, and
then moves on by one core cycle. What comes from outside or carries a measurement (memory returns, sensors, links, the host) is not posted. -/

namespace Sys2Proof.Machine

/-- `x` when `b`. -/
def when_ (b : Bool) (x : Instr) : List Instr := if b then [x] else []

/-- The edges of the tick: the stage deadline, a missing edge, the boundary (R226, R228, R248). -/
def Dev.edgeRows (d : Dev) : List Instr :=
  let k := d.tick
  when_ (d.running && k.inRun && !k.deadlineDone && decide (k.period ≤ k.cycle)) .stageDeadline ++
  when_ (k.external && !k.fallback && k.edgeAt.isNone && decide (2 * k.period ≤ k.cycle)) .tickInLost ++
  when_ (k.boundaryDue || (k.external && !k.fallback && k.edgeAt.isNone && decide (2 * k.period ≤ k.cycle))) .tickBoundary

/-- Plans that hold an instance. -/
def Dev.busyPlans (d : Dev) : List (BitVec 4) :=
  (allGroups.filter (fun n => match d.plan n.toNat with | some p => !p.instances.isEmpty | none => false))

/-- Tick cycle 0 and the drain: hot channel, reductions, streams, stage start (R219, R231, R350 to R352, R368, R371). -/
def Dev.drainRows (d : Dev) : List Instr :=
  let k := d.tick
  let streams := allStreams.filter (fun n => (d.stream n).isOpen)
  let first := k.cycle == 0
  when_ first .transitHotDetect ++
  (if first then d.busyPlans.map .reduceReady ++ d.busyPlans.map (fun n => .reduceModuleSum { plan := n }) else []) ++
  (if first && d.running then
    streams.map .streamConsume ++ streams.map .batchRecordPost ++ streams.map .streamAdmission ++ streams.map .streamLapCheck else []) ++
  (if d.running then d.busyPlans.map (fun n => .reduceDeadline { plan := n }) else []) ++
  when_ (d.running && k.inRun && !k.stageStarted && decide (2048 ≤ k.cycle)) .stageStart

/-- Channels whose refresh slot begins now. -/
def Dev.refreshRows (d : Dev) : List Instr := ((List.range 256).filter d.refreshDue).map (fun n => .refreshSlot (BitVec.ofNat 8 n))

/-- What the groups and their tiles do in a cycle of a stage (R237 to R246). -/
def Dev.stageRows (d : Dev) : List Instr :=
  if !d.running then []
  else
    let live := allGroups.filter (fun g => d.staged (d.group g))
    let waiting := (live.flatMap (fun g => (d.group g).members)).filter (fun t => !(d.tile t).pend.isEmpty)
    live.flatMap (fun g => when_ (!(d.group g).throttles.isEmpty) (.throttleExpiry g)) ++ waiting.map .pendingWaitComplete ++
    waiting.map .arrivalTimeout ++
    (match d.run.target with | some (t, _, _) => when_ d.run.countReached (.countReached t) | none => []) ++
    live.map .scheduleCycle ++ live.map .stageEnd

/-- Halo accounting at the end of a core cycle (R247); HALO_EXHAUSTED is raised where a halo falls below 0. -/
def Dev.accountAll (d : Dev) : Dev :=
  let e := d.mapGroups (fun _ g => d.account g)
  allGroups.foldl (fun (x : Dev) g =>
    if (d.group g).haloLeft == 0 && (e.group g).haloLeft != 0 then x.mark (0x1400 + 32 * g.toNat) 0x10 else x) e

/-- Core cycle `wall` begins: what a tile's W1C bits were raised in, the first or the second of a Nucleus cycle (R3, R7), and the halts of the cycle
before stand (R269). -/
def Tile.turn (t : Tile) (wall : Nat) : Tile := { t with raisedBefore := if wall % 2 = 1 then t.raised else {}, raised := {}, haltFresh := false }

/-- The end of a core cycle: rows on their way to scratchpads, halo accounting, arrivals, time, the accesses that a refresh slot no
longer holds, and the end of a run of which nothing has still to land (R131, R137, R167, R208, R247, R388). -/
def Dev.advance (d : Dev) : Dev :=
  let d := d.serveRemote.accountAll
  let w := d.tick.wall
  let d := d.mapTiles (fun _ => true) (fun _ t => (t.arrivals w).turn (w + 1))
  let spread := if d.clocks.sscOn then d.freeValue % 101 else 0
  let d := if d.clocks.sscOn then d.drew else d
  let d := { d with
    tick := { d.tick with wall := w + 1, cycle := d.tick.cycle + 1, phase := 0 }
    log := { d.log with time := d.log.time + 40000 + spread, tail := if w % 2 = 1 then 0 else d.log.tail } }
  d.serveQueues.tryEnd

/-- The rows of a phase. -/
def Dev.phaseRows (d : Dev) : List Instr :=
  match d.tick.phase with
  | 0 => d.edgeRows
  | 1 => d.drainRows
  | _ => d.refreshRows ++ d.stageRows

/-- One step of the clock: while the tick does not run, the next step of a boot in progress, if there is one. -/
def State.clock (s : State) : State :=
  let d := s.dev
  if !d.tick.running then { s with dev := match d.booting with | some b => d.bootStep b | none => d }
  else if 3 ≤ d.tick.phase then { s with dev := d.advance }
  else { pending := s.pending ++ d.phaseRows, dev := { d with tick := { d.tick with phase := d.tick.phase + 1 } } }

end Sys2Proof.Machine
end

