-- ==== Sys2Proof/Machine/SlotRows.lean ====
section
/-! DEFINITION. One meaning per slot instruction (12): the instruction issues in its tile's present schedule cycle, with the checks and
the effect that its issue function gives (log 6). -/

namespace Sys2Proof.Machine

/-- NOP in any slot (R273). -/
def execNop (t : TileId) (slot : BitVec 2) (s : State) : Host.Outcome State Fault Refusal :=
  s.act (fun d => d.issueSlotOf t (if slot = 0 then .s else if slot = 1 then .v else if slot = 2 then .t else .m)
    (fun ctx x => issueNop ctx 0 x))

/-- VADD (R61). -/
def execVadd (t : TileId) (w : BitVec 26) (s : State) : Host.Outcome State Fault Refusal :=
  s.act (fun d => d.issueSlotOf t .v (fun ctx x => issueVadd ctx w x))

/-- VSUB (R61). -/
def execVsub (t : TileId) (w : BitVec 26) (s : State) : Host.Outcome State Fault Refusal :=
  s.act (fun d => d.issueSlotOf t .v (fun ctx x => issueVsub ctx w x))

/-- VNEG (R61). -/
def execVneg (t : TileId) (w : BitVec 26) (s : State) : Host.Outcome State Fault Refusal :=
  s.act (fun d => d.issueSlotOf t .v (fun ctx x => issueVneg ctx w x))

/-- VMUL (R61). -/
def execVmul (t : TileId) (w : BitVec 26) (s : State) : Host.Outcome State Fault Refusal :=
  s.act (fun d => d.issueSlotOf t .v (fun ctx x => issueVmul ctx w x))

/-- VMULS (R61). -/
def execVmuls (t : TileId) (w : BitVec 26) (s : State) : Host.Outcome State Fault Refusal :=
  s.act (fun d => d.issueSlotOf t .v (fun ctx x => issueVmuls ctx w x))

/-- VMAD (R280). -/
def execVmad (t : TileId) (w : BitVec 26) (s : State) : Host.Outcome State Fault Refusal :=
  s.act (fun d => d.issueSlotOf t .v (fun ctx x => issueVmad ctx w x))

/-- VMSB (R280). -/
def execVmsb (t : TileId) (w : BitVec 26) (s : State) : Host.Outcome State Fault Refusal :=
  s.act (fun d => d.issueSlotOf t .v (fun ctx x => issueVmsb ctx w x))

/-- VMOD (R61). -/
def execVmod (t : TileId) (w : BitVec 26) (s : State) : Host.Outcome State Fault Refusal :=
  s.act (fun d => d.issueSlotOf t .v (fun ctx x => issueVmod ctx w x))

/-- VCMP (R279). -/
def execVcmp (t : TileId) (w : BitVec 26) (s : State) : Host.Outcome State Fault Refusal :=
  s.act (fun d => d.issueSlotOf t .v (fun ctx x => issueVcmp ctx w x))

/-- VMIN (R61). -/
def execVmin (t : TileId) (w : BitVec 26) (s : State) : Host.Outcome State Fault Refusal :=
  s.act (fun d => d.issueSlotOf t .v (fun ctx x => issueVmin ctx w x))

/-- VMAX (R61). -/
def execVmax (t : TileId) (w : BitVec 26) (s : State) : Host.Outcome State Fault Refusal :=
  s.act (fun d => d.issueSlotOf t .v (fun ctx x => issueVmax ctx w x))

/-- VSEL (R281). -/
def execVsel (t : TileId) (w : BitVec 26) (s : State) : Host.Outcome State Fault Refusal :=
  s.act (fun d => d.issueSlotOf t .v (fun ctx x => issueVsel ctx w x))

/-- VMOV (R279). -/
def execVmov (t : TileId) (w : BitVec 26) (s : State) : Host.Outcome State Fault Refusal :=
  s.act (fun d => d.issueSlotOf t .v (fun ctx x => issueVmov ctx w x))

/-- VBCAST (R279). -/
def execVbcast (t : TileId) (w : BitVec 26) (s : State) : Host.Outcome State Fault Refusal :=
  s.act (fun d => d.issueSlotOf t .v (fun ctx x => issueVbcast ctx w x))

/-- VPERM (R282). -/
def execVperm (t : TileId) (w : BitVec 26) (s : State) : Host.Outcome State Fault Refusal :=
  s.act (fun d => d.issueSlotOf t .v (fun ctx x => issueVperm ctx w x))

/-- KAND (R279). -/
def execKand (t : TileId) (w : BitVec 26) (s : State) : Host.Outcome State Fault Refusal :=
  s.act (fun d => d.issueSlotOf t .v (fun ctx x => issueKand ctx w x))

/-- KOR (R279). -/
def execKor (t : TileId) (w : BitVec 26) (s : State) : Host.Outcome State Fault Refusal :=
  s.act (fun d => d.issueSlotOf t .v (fun ctx x => issueKor ctx w x))

/-- KXOR (R279). -/
def execKxor (t : TileId) (w : BitVec 26) (s : State) : Host.Outcome State Fault Refusal :=
  s.act (fun d => d.issueSlotOf t .v (fun ctx x => issueKxor ctx w x))

/-- KNOT (R279). -/
def execKnot (t : TileId) (w : BitVec 26) (s : State) : Host.Outcome State Fault Refusal :=
  s.act (fun d => d.issueSlotOf t .v (fun ctx x => issueKnot ctx w x))

/-- KSET (R283). -/
def execKset (t : TileId) (w : BitVec 26) (s : State) : Host.Outcome State Fault Refusal :=
  s.act (fun d => d.issueSlotOf t .v (fun ctx x => issueKset ctx w x))

/-- KTAIL (R283). -/
def execKtail (t : TileId) (w : BitVec 26) (s : State) : Host.Outcome State Fault Refusal :=
  s.act (fun d => d.issueSlotOf t .v (fun ctx x => issueKtail ctx w x))

/-- FADD (R62). -/
def execFadd (t : TileId) (w : BitVec 26) (s : State) : Host.Outcome State Fault Refusal :=
  s.act (fun d => d.issueSlotOf t .v (fun ctx x => issueFadd ctx w x))

/-- FSUB (R62). -/
def execFsub (t : TileId) (w : BitVec 26) (s : State) : Host.Outcome State Fault Refusal :=
  s.act (fun d => d.issueSlotOf t .v (fun ctx x => issueFsub ctx w x))

/-- FMUL (R62). -/
def execFmul (t : TileId) (w : BitVec 26) (s : State) : Host.Outcome State Fault Refusal :=
  s.act (fun d => d.issueSlotOf t .v (fun ctx x => issueFmul ctx w x))

/-- FMA (R280). -/
def execFma (t : TileId) (w : BitVec 26) (s : State) : Host.Outcome State Fault Refusal :=
  s.act (fun d => d.issueSlotOf t .v (fun ctx x => issueFma ctx w x))

/-- FMIN (R62). -/
def execFmin (t : TileId) (w : BitVec 26) (s : State) : Host.Outcome State Fault Refusal :=
  s.act (fun d => d.issueSlotOf t .v (fun ctx x => issueFmin ctx w x))

/-- FMAX (R62). -/
def execFmax (t : TileId) (w : BitVec 26) (s : State) : Host.Outcome State Fault Refusal :=
  s.act (fun d => d.issueSlotOf t .v (fun ctx x => issueFmax ctx w x))

/-- FCMP (R279). -/
def execFcmp (t : TileId) (w : BitVec 26) (s : State) : Host.Outcome State Fault Refusal :=
  s.act (fun d => d.issueSlotOf t .v (fun ctx x => issueFcmp ctx w x))

/-- CVTRF (R63). -/
def execCvtrf (t : TileId) (w : BitVec 26) (s : State) : Host.Outcome State Fault Refusal :=
  s.act (fun d => d.issueSlotOf t .v (fun ctx x => issueCvtrf ctx w x))

/-- CVTFR (R63). -/
def execCvtfr (t : TileId) (w : BitVec 26) (s : State) : Host.Outcome State Fault Refusal :=
  s.act (fun d => d.issueSlotOf t .v (fun ctx x => issueCvtfr ctx w x))

/-- VLD (R284). -/
def execVld (t : TileId) (w : BitVec 26) (s : State) : Host.Outcome State Fault Refusal :=
  s.act (fun d => d.issueSlotOf t .v (fun ctx x => issueVld ctx w x))

/-- VST (R284). -/
def execVst (t : TileId) (w : BitVec 26) (s : State) : Host.Outcome State Fault Refusal :=
  s.act (fun d => d.issueSlotOf t .v (fun ctx x => issueVst ctx w x))

/-- VSCAN_MSUM (R64). -/
def execVscanMsum (t : TileId) (w : BitVec 26) (s : State) : Host.Outcome State Fault Refusal :=
  s.act (fun d => d.issueSlotOf t .v (fun ctx x => issueVscanMsum ctx w x))

/-- VSCAN_MMIN (R64). -/
def execVscanMmin (t : TileId) (w : BitVec 26) (s : State) : Host.Outcome State Fault Refusal :=
  s.act (fun d => d.issueSlotOf t .v (fun ctx x => issueVscanMmin ctx w x))

/-- VSCAN_MMAX (R64). -/
def execVscanMmax (t : TileId) (w : BitVec 26) (s : State) : Host.Outcome State Fault Refusal :=
  s.act (fun d => d.issueSlotOf t .v (fun ctx x => issueVscanMmax ctx w x))

/-- VSCAN_FSUM (R64). -/
def execVscanFsum (t : TileId) (w : BitVec 26) (s : State) : Host.Outcome State Fault Refusal :=
  s.act (fun d => d.issueSlotOf t .v (fun ctx x => issueVscanFsum ctx w x))

/-- VSCAN_FMIN (R64). -/
def execVscanFmin (t : TileId) (w : BitVec 26) (s : State) : Host.Outcome State Fault Refusal :=
  s.act (fun d => d.issueSlotOf t .v (fun ctx x => issueVscanFmin ctx w x))

/-- VSCAN_FMAX (R64). -/
def execVscanFmax (t : TileId) (w : BitVec 26) (s : State) : Host.Outcome State Fault Refusal :=
  s.act (fun d => d.issueSlotOf t .v (fun ctx x => issueVscanFmax ctx w x))

/-- VTREE_MSUM (R66). -/
def execVtreeMsum (t : TileId) (w : BitVec 26) (s : State) : Host.Outcome State Fault Refusal :=
  s.act (fun d => d.issueSlotOf t .v (fun ctx x => issueVtreeMsum ctx w x))

/-- VTREE_MPROD (R66). -/
def execVtreeMprod (t : TileId) (w : BitVec 26) (s : State) : Host.Outcome State Fault Refusal :=
  s.act (fun d => d.issueSlotOf t .v (fun ctx x => issueVtreeMprod ctx w x))

/-- VTREE_MMIN (R66). -/
def execVtreeMmin (t : TileId) (w : BitVec 26) (s : State) : Host.Outcome State Fault Refusal :=
  s.act (fun d => d.issueSlotOf t .v (fun ctx x => issueVtreeMmin ctx w x))

/-- VTREE_MMAX (R66). -/
def execVtreeMmax (t : TileId) (w : BitVec 26) (s : State) : Host.Outcome State Fault Refusal :=
  s.act (fun d => d.issueSlotOf t .v (fun ctx x => issueVtreeMmax ctx w x))

/-- VTREE_FSUM (R66). -/
def execVtreeFsum (t : TileId) (w : BitVec 26) (s : State) : Host.Outcome State Fault Refusal :=
  s.act (fun d => d.issueSlotOf t .v (fun ctx x => issueVtreeFsum ctx w x))

/-- VTREE_FMIN (R66). -/
def execVtreeFmin (t : TileId) (w : BitVec 26) (s : State) : Host.Outcome State Fault Refusal :=
  s.act (fun d => d.issueSlotOf t .v (fun ctx x => issueVtreeFmin ctx w x))

/-- VTREE_FMAX (R66). -/
def execVtreeFmax (t : TileId) (w : BitVec 26) (s : State) : Host.Outcome State Fault Refusal :=
  s.act (fun d => d.issueSlotOf t .v (fun ctx x => issueVtreeFmax ctx w x))

/-- WAIT (R138). -/
def execWait (t : TileId) (w : BitVec 26) (s : State) : Host.Outcome State Fault Refusal :=
  s.act (fun d => d.issueSlotOf t .s (fun ctx x => issueWait ctx w x))

/-- DMAISS (R151). -/
def execDmaiss (t : TileId) (w : BitVec 26) (s : State) : Host.Outcome State Fault Refusal :=
  s.act (fun d => d.issueSlotOf t .s (fun ctx x => issueDmaiss ctx w x))

/-- PWLD (R296). -/
def execPwld (t : TileId) (w : BitVec 26) (s : State) : Host.Outcome State Fault Refusal :=
  s.act (fun d => d.issueSlotOf t .s (fun ctx x => issuePwld ctx w x))

/-- FLAGCLR (R296). -/
def execFlagclr (t : TileId) (w : BitVec 26) (s : State) : Host.Outcome State Fault Refusal :=
  s.act (fun d => d.issueSlotOf t .s (fun ctx x => issueFlagclr ctx w x))

/-- ENDST (R238). -/
def execEndst (t : TileId) (w : BitVec 26) (s : State) : Host.Outcome State Fault Refusal :=
  s.act (fun d => d.issueSlotOf t .s (fun ctx x => issueEndst ctx w x))

/-- SLI (R289). -/
def execSli (t : TileId) (w : BitVec 26) (s : State) : Host.Outcome State Fault Refusal :=
  s.act (fun d => d.issueSlotOf t .s (fun ctx x => issueSli ctx w x))

/-- SLIS (R289). -/
def execSlis (t : TileId) (w : BitVec 26) (s : State) : Host.Outcome State Fault Refusal :=
  s.act (fun d => d.issueSlotOf t .s (fun ctx x => issueSlis ctx w x))

/-- SADDI (R289). -/
def execSaddi (t : TileId) (w : BitVec 26) (s : State) : Host.Outcome State Fault Refusal :=
  s.act (fun d => d.issueSlotOf t .s (fun ctx x => issueSaddi ctx w x))

/-- SALU (R289). -/
def execSalu (t : TileId) (w : BitVec 26) (s : State) : Host.Outcome State Fault Refusal :=
  s.act (fun d => d.issueSlotOf t .s (fun ctx x => issueSalu ctx w x))

/-- CCLD (R290). -/
def execCcld (t : TileId) (w : BitVec 26) (s : State) : Host.Outcome State Fault Refusal :=
  s.act (fun d => d.issueSlotOf t .s (fun ctx x => issueCcld ctx w x))

/-- HLD (R291). -/
def execHld (t : TileId) (w : BitVec 26) (s : State) : Host.Outcome State Fault Refusal :=
  s.act (fun d => d.issueSlotOf t .s (fun ctx x => issueHld ctx w x))

/-- HST (R291). -/
def execHst (t : TileId) (w : BitVec 26) (s : State) : Host.Outcome State Fault Refusal :=
  s.act (fun d => d.issueSlotOf t .s (fun ctx x => issueHst ctx w x))

/-- HOP_ADDSUB (R43). -/
def execHopAddsub (t : TileId) (w : BitVec 22) (s : State) : Host.Outcome State Fault Refusal :=
  s.act (fun d => d.issueSlotOf t .s (fun ctx x => issueHop .addsub ctx w x))

/-- HOP_MULCC (R43). -/
def execHopMulcc (t : TileId) (w : BitVec 22) (s : State) : Host.Outcome State Fault Refusal :=
  s.act (fun d => d.issueSlotOf t .s (fun ctx x => issueHop .mulcc ctx w x))

/-- HOP_MULPT (R43). -/
def execHopMulpt (t : TileId) (w : BitVec 22) (s : State) : Host.Outcome State Fault Refusal :=
  s.act (fun d => d.issueSlotOf t .s (fun ctx x => issueHop .mulpt ctx w x))

/-- HOP_RELIN (R43). -/
def execHopRelin (t : TileId) (w : BitVec 22) (s : State) : Host.Outcome State Fault Refusal :=
  s.act (fun d => d.issueSlotOf t .s (fun ctx x => issueHop .relin ctx w x))

/-- HOP_ROTATE (R86). -/
def execHopRotate (t : TileId) (w : BitVec 22) (s : State) : Host.Outcome State Fault Refusal :=
  s.act (fun d => d.issueSlotOf t .s (fun ctx x => issueHop .rotate ctx w x))

/-- HOP_FNTT (R43). -/
def execHopFntt (t : TileId) (w : BitVec 22) (s : State) : Host.Outcome State Fault Refusal :=
  s.act (fun d => d.issueSlotOf t .s (fun ctx x => issueHop .fntt ctx w x))

/-- HOP_INTT (R43). -/
def execHopIntt (t : TileId) (w : BitVec 22) (s : State) : Host.Outcome State Fault Refusal :=
  s.act (fun d => d.issueSlotOf t .s (fun ctx x => issueHop .intt ctx w x))

/-- HOP_TRANSPOSE (R43). -/
def execHopTranspose (t : TileId) (w : BitVec 22) (s : State) : Host.Outcome State Fault Refusal :=
  s.act (fun d => d.issueSlotOf t .s (fun ctx x => issueHop .transpose ctx w x))

/-- HOP_RESCALE (R39). -/
def execHopRescale (t : TileId) (w : BitVec 22) (s : State) : Host.Outcome State Fault Refusal :=
  s.act (fun d => d.issueSlotOf t .s (fun ctx x => issueHop .rescale ctx w x))

/-- HOP_MULRESCALE (R39). -/
def execHopMulrescale (t : TileId) (w : BitVec 22) (s : State) : Host.Outcome State Fault Refusal :=
  s.act (fun d => d.issueSlotOf t .s (fun ctx x => issueHop .mulrescale ctx w x))

/-- HOP_MODSWITCH (R39). -/
def execHopModswitch (t : TileId) (w : BitVec 22) (s : State) : Host.Outcome State Fault Refusal :=
  s.act (fun d => d.issueSlotOf t .s (fun ctx x => issueHop .modswitch ctx w x))

/-- HOP_DROP (R39). -/
def execHopDrop (t : TileId) (w : BitVec 22) (s : State) : Host.Outcome State Fault Refusal :=
  s.act (fun d => d.issueSlotOf t .s (fun ctx x => issueHop .drop ctx w x))

/-- HOP_MODRAISE (R39). -/
def execHopModraise (t : TileId) (w : BitVec 22) (s : State) : Host.Outcome State Fault Refusal :=
  s.act (fun d => d.issueSlotOf t .s (fun ctx x => issueHop .modraise ctx w x))

/-- HOP_KSEXT (R294). -/
def execHopKsext (t : TileId) (w : BitVec 22) (s : State) : Host.Outcome State Fault Refusal :=
  s.act (fun d => d.issueSlotOf t .s (fun ctx x => issueHop .ksext ctx w x))

/-- HOP_INVALIDATE (R293). -/
def execHopInvalidate (t : TileId) (w : BitVec 22) (s : State) : Host.Outcome State Fault Refusal :=
  s.act (fun d => d.issueSlotOf t .s (fun ctx x => issueInvalidate ctx w x))

/-- KARM (R185). -/
def execKarm (t : TileId) (w : BitVec 26) (s : State) : Host.Outcome State Fault Refusal :=
  s.act (fun d => d.issueSlotOf t .s (fun ctx x => issueKarm ctx w x))

/-- KREL (R188). -/
def execKrel (t : TileId) (w : BitVec 26) (s : State) : Host.Outcome State Fault Refusal :=
  s.act (fun d => d.issueSlotOf t .s (fun ctx x => issueKrel ctx w x))

/-- EXPAND (R178). -/
def execExpand (t : TileId) (w : BitVec 26) (s : State) : Host.Outcome State Fault Refusal :=
  s.act (fun d => d.issueSlotOf t .s (fun ctx x => issueExpand ctx w x))

/-- LOOP (R268). -/
def execLoop (t : TileId) (w : BitVec 30) (s : State) : Host.Outcome State Fault Refusal :=
  s.act (fun d => d.issueSlotOf t .s (fun ctx x => issueLoop ctx w x))

/-- NTT (R77). -/
def execNtt (t : TileId) (w : BitVec 26) (s : State) : Host.Outcome State Fault Refusal :=
  s.act (fun d => d.issueSlotOf t .t (fun ctx x => issueNtt ctx w x))

/-- INTT (R77). -/
def execIntt (t : TileId) (w : BitVec 26) (s : State) : Host.Outcome State Fault Refusal :=
  s.act (fun d => d.issueSlotOf t .t (fun ctx x => issueIntt ctx w x))

/-- AUTO (R84). -/
def execAuto (t : TileId) (w : BitVec 26) (s : State) : Host.Outcome State Fault Refusal :=
  s.act (fun d => d.issueSlotOf t .t (fun ctx x => issueAuto ctx w x))

/-- PERM (R87). -/
def execPerm (t : TileId) (w : BitVec 26) (s : State) : Host.Outcome State Fault Refusal :=
  s.act (fun d => d.issueSlotOf t .t (fun ctx x => issuePerm ctx w x))

/-- TXP (R298). -/
def execTxp (t : TileId) (w : BitVec 26) (s : State) : Host.Outcome State Fault Refusal :=
  s.act (fun d => d.issueSlotOf t .t (fun ctx x => issueTxp ctx w x))

/-- MMA (R100). -/
def execMma (t : TileId) (w : BitVec 26) (s : State) : Host.Outcome State Fault Refusal :=
  s.act (fun d => d.issueSlotOf t .m (fun ctx x => issueMma ctx w x))

/-- DSM (R122). -/
def execDsm (t : TileId) (w : BitVec 26) (s : State) : Host.Outcome State Fault Refusal :=
  s.act (fun d => d.issueSlotOf t .m (fun ctx x => issueDsm ctx w x))

/-- MSPILL (R105). -/
def execMspill (t : TileId) (w : BitVec 26) (s : State) : Host.Outcome State Fault Refusal :=
  s.act (fun d => d.issueSlotOf t .m (fun ctx x => issueMspill ctx w x))

/-- MRESUME (R106). -/
def execMresume (t : TileId) (w : BitVec 26) (s : State) : Host.Outcome State Fault Refusal :=
  s.act (fun d => d.issueSlotOf t .m (fun ctx x => issueMresume ctx w x))

/-- MEPI (R107). -/
def execMepi (t : TileId) (w : BitVec 26) (s : State) : Host.Outcome State Fault Refusal :=
  s.act (fun d => d.issueSlotOf t .m (fun ctx x => issueMepi ctx w x))

/-- MCHS (R116). -/
def execMchs (t : TileId) (w : BitVec 26) (s : State) : Host.Outcome State Fault Refusal :=
  s.act (fun d => d.issueSlotOf t .m (fun ctx x => issueMchs ctx w x))

/-- MCHR (R118). -/
def execMchr (t : TileId) (w : BitVec 26) (s : State) : Host.Outcome State Fault Refusal :=
  s.act (fun d => d.issueSlotOf t .m (fun ctx x => issueMchr ctx w x))

end Sys2Proof.Machine
end

