-- ==== Sys2Proof/Machine/Spdm.lean ====
section
/-! DEFINITION. The SPDM responder (17 R399 to R401, R411): requests, measurement blocks, chunks. Message layouts and error codes are those of
DSP0274 (log 15). -/

namespace Sys2Proof.Machine

/-- SPDM is served outside BOOT, while verified firmware runs (R400, R395). -/
def Dev.spdmServed (d : Dev) : Bool := d.run.state != .boot && d.sec.fwRunning

/-- Request codes (log 15). -/
def rqDigests : Byte := 0x81
def rqCertificate : Byte := 0x82
def rqChallenge : Byte := 0x83
def rqVersion : Byte := 0x84
def rqChunkSend : Byte := 0x85
def rqChunkGet : Byte := 0x86
def rqMeasurements : Byte := 0xE0
def rqCapabilities : Byte := 0xE1
def rqAlgorithms : Byte := 0xE3

/-- A response sent, and kept for CHUNK_GET and in the transcript. -/
def Dev.spdmReply (d : Dev) (name : String) (request response : List Byte) : Dev :=
  ({ d with sec := { d.sec with chunkOut := response, transcript := d.sec.transcript ++ request ++ response } }).emit (.spdm name response)

/-- An ERROR response: its code and the request it answers. -/
def Dev.spdmError (d : Dev) (code request : Byte) : Dev := d.emit (.spdm "ERROR" [code, request])

def errInvalid : Byte := 0x01
def errBusy : Byte := 0x03
def errUnexpected : Byte := 0x04
def errUnspecified : Byte := 0x05
def errVersion : Byte := 0x41

/-- SPDM versions of requests that are served: 1.2 and 1.3 (R400); GET_VERSION is always of version 1.0 (PRESUMED, log 15). The rows of single requests
name requests of these versions. -/
def spdmVersionOk (code version : Byte) : Bool := if code = rqVersion then version == 0x10 else version == 0x12 || version == 0x13

/-- A request that the negotiation so far allows; else it is unexpected. -/
def Dev.spdmOn (d : Dev) (ready : Bool) (request : Byte) (f : Dev → Dev) : Dev :=
  if !d.spdmServed then d else if ready then f d else d.spdmError errUnexpected request

/-- A request that needs a signature: Busy while a host session holds the PKE (R411); an error once the generator has failed, for no random value
is produced then (R413; the code is PRESUMED, log 15); a firmware use of the PKE wipes it. -/
def Dev.spdmSigned (d : Dev) (request : Byte) (f : Dev → Dev) : Dev :=
  if d.pke.session.isSome then ({ d with pke := { d.pke with work := true } }).spdmError errBusy request
  else if d.sec.drbg ≠ 1 then d.spdmError errUnspecified request
  else f d.firmwarePke

/-- GET_VERSION: versions 1.2 and 1.3; negotiation begins anew. -/
def Dev.spdmVersion (d : Dev) : Dev :=
  d.spdmOn true rqVersion (fun d =>
    ({ d with sec := { d.sec with spdmVersion := true, spdmCaps := false, spdmAlgs := false, chunkIn := [], transcript := [] } }).spdmReply "VERSION"
      [rqVersion] [0x00, 0x12, 0x00, 0x13])

def execGetVersion (s : State) : Host.Outcome State Fault Refusal := s.act (fun d => d.spdmVersion)

/-- GET_CAPABILITIES: certificates, challenge, signed measurements and chunks, nothing else (R400). -/
def Dev.spdmCapabilities (d : Dev) : Dev :=
  d.spdmOn d.sec.spdmVersion rqCapabilities (fun d =>
    ({ d with sec := { d.sec with spdmCaps := true, spdmAlgs := false } }).spdmReply "CAPABILITIES" [rqCapabilities] (leBytes 4 0x20016))

def execGetCapabilities (s : State) : Host.Outcome State Fault Refusal := s.act (fun d => d.spdmCapabilities)

/-- NEGOTIATE_ALGORITHMS: ECDSA P-384, SHA-384 and the DMTF measurement specification where the requester offers them. -/
def Dev.spdmAlgorithms (d : Dev) (base hash measurement : Bool) : Dev :=
  d.spdmOn d.sec.spdmCaps rqAlgorithms (fun d =>
    ({ d with sec := { d.sec with spdmAlgs := base && hash } }).spdmReply "ALGORITHMS" [rqAlgorithms]
      ((if measurement then [1] else [0]) ++ leBytes 4 (if measurement then 4 else 0) ++ leBytes 4 (if base then 0x80 else 0) ++
        leBytes 4 (if hash then 2 else 0)))

def execNegotiateAlgorithms (base hash measurement : Bool) (s : State) : Host.Outcome State Fault Refusal :=
  s.act (fun d => d.spdmAlgorithms base hash measurement)

/-- GET_DIGESTS: slot 0 alone. -/
def Dev.spdmDigests (d : Dev) : Dev :=
  d.spdmOn d.sec.spdmAlgs rqDigests (fun d => d.spdmReply "DIGESTS" [rqDigests] (0x01 :: sha384 (d.sec.chain d.flash)))

def execGetDigests (s : State) : Host.Outcome State Fault Refusal := s.act (fun d => d.spdmDigests)

/-- GET_CERTIFICATE: a portion of the chain of slot 0, and what remains (R399). -/
def Dev.spdmCertificate (d : Dev) (slot : Byte) (offset length : BitVec 16) : Dev :=
  d.spdmOn d.sec.spdmAlgs rqCertificate (fun d =>
    let chain := d.sec.chain d.flash
    if slot ≠ 0 ∨ chain.length ≤ offset.toNat then d.spdmError errInvalid rqCertificate
    else
      let part := (chain.drop offset.toNat).take length.toNat
      d.spdmReply "CERTIFICATE" ([rqCertificate, slot] ++ leBytes 2 offset.toNat ++ leBytes 2 length.toNat)
        ([slot] ++ leBytes 2 part.length ++ leBytes 2 (chain.length - offset.toNat - part.length) ++ part))

def execGetCertificate (slot : Byte) (offset length : BitVec 16) (s : State) : Host.Outcome State Fault Refusal :=
  s.act (fun d => d.spdmCertificate slot offset length)

/-- A response that ends in a nonce of the device and a signature with the alias key over all that was said; one draw of the bit generator gives
the nonce and the signature's per-message number (log 15). -/
def Dev.spdmSign (d : Dev) (name : String) (request body : List Byte) : Dev :=
  let draw := d.random 704
  let d := d.drewRandom
  let whole := body ++ leBytes 32 (draw % 2 ^ 256)
  d.spdmReply name request (whole ++ d.sec.aliasSign (d.sec.transcript ++ request ++ whole) (draw / 2 ^ 256))

/-- CHALLENGE. -/
def Dev.spdmChallenge (d : Dev) (slot : Byte) (nonce : List Byte) : Dev :=
  d.spdmOn d.sec.spdmAlgs rqChallenge (fun d =>
    if slot ≠ 0 then d.spdmError errInvalid rqChallenge
    else d.spdmSigned rqChallenge (fun d => d.spdmSign "CHALLENGE_AUTH" ([rqChallenge, slot] ++ nonce) (slot :: sha384 (d.sec.chain d.flash))))

def execChallenge (slot : Byte) (nonce : List Byte) (s : State) : Host.Outcome State Fault Refusal := s.act (fun d => d.spdmChallenge slot nonce)

/-- Measurement block 1 to 6 (R401). -/
def Dev.measurement (d : Dev) (index : Nat) : List Byte :=
  match index with
  | 1 => Config.romMeasurement
  | 2 => (d.flash.slot d.sec.bootSlot.toNat).measurement
  | 3 => leBytes 4 d.sec.fwSvn.toNat ++ [d.sec.bootSlot.setWidth 8]
  | 4 => sha384 (Config.ownerBytes (d.sec.owner.map (fun o => (o.format, o.policy, o.keys))))
  | 5 => match d.run.image with
    | some im => im.measurement ++ leBytes 4 im.securityVersion.toNat
    | none => List.replicate 52 0
  | _ => [0xA1, BitVec.ofNat 8 (bit d.host.peerHalf), d.pins.moduleId.setWidth 8, BitVec.ofNat 8 (field d.mem.farStatus.toNat 4 3),
      BitVec.ofNat 8 (bit d.clocks.sscEn)]

/-- A block with its index and length. -/
def Dev.measurementBlock (d : Dev) (index : Nat) : List Byte :=
  let m := d.measurement index
  [BitVec.ofNat 8 index] ++ leBytes 2 m.length ++ m

/-- GET_MEASUREMENTS: index 0 asks for the number of blocks, 0xFF for all; a nonce asks for a signature. -/
def Dev.spdmMeasurements (d : Dev) (index : Byte) (nonce : Option (List Byte)) : Dev :=
  d.spdmOn d.sec.spdmAlgs rqMeasurements (fun d =>
    let body := if index = 0 then [6] else if index = 0xFF then ([1, 2, 3, 4, 5, 6] : List Nat).flatMap d.measurementBlock else d.measurementBlock index.toNat
    if 6 < index.toNat ∧ index ≠ 0xFF then d.spdmError errInvalid rqMeasurements
    else match nonce with
      | none => d.spdmReply "MEASUREMENTS" [rqMeasurements, index] body
      | some n => d.spdmSigned rqMeasurements (fun d => d.spdmSign "MEASUREMENTS" ([rqMeasurements, index] ++ n) body))

def execGetMeasurements (index : Byte) (nonce : Option (List Byte)) (s : State) : Host.Outcome State Fault Refusal :=
  s.act (fun d => d.spdmMeasurements index nonce)

/-- A request assembled from chunks: SPDMVersion, code, Param1, Param2 and what follows; of a version other than 1.2 and 1.3, GET_VERSION's being 1.0,
it is answered with an error (R400; log 15). -/
def Dev.spdmRequest (d : Dev) (b : List Byte) : Dev :=
  let code := b.getD 1 0
  if !spdmVersionOk code (b.getD 0 0) then d.spdmError errVersion code
  else
  let p1 := b.getD 2 0
  let p2 := b.getD 3 0
  if code = rqVersion then d.spdmVersion
  else if code = rqCapabilities then d.spdmCapabilities
  else if code = rqAlgorithms then d.spdmAlgorithms ((byteAt b 8).testBit 7) ((byteAt b 12).testBit 1) ((byteAt b 6).testBit 0)
  else if code = rqDigests then d.spdmDigests
  else if code = rqCertificate then d.spdmCertificate p1 (BitVec.ofNat 16 (leAt b 4 2)) (BitVec.ofNat 16 (leAt b 6 2))
  else if code = rqChallenge then d.spdmChallenge p1 ((b.drop 4).take 32)
  else if code = rqMeasurements then d.spdmMeasurements p2 (if p1.getLsbD 0 then some ((b.drop 4).take 32) else none)
  else d.spdmError errInvalid code

/-- CHUNK_SEND: a chunk of a large request; the last one carries it out. -/
def execChunkSend (last : Bool) (chunk : List Byte) (s : State) : Host.Outcome State Fault Refusal :=
  s.act (fun d => d.spdmOn d.sec.spdmCaps rqChunkSend (fun d =>
    let whole := d.sec.chunkIn ++ chunk
    let d := ({ d with sec := { d.sec with chunkIn := if last then [] else whole } }).emit (.spdm "CHUNK_SEND_ACK" [])
    if last then d.spdmRequest whole else d))

/-- CHUNK_GET: the next bytes of the last response. -/
def execChunkGet (size : BitVec 16) (s : State) : Host.Outcome State Fault Refusal :=
  s.act (fun d => d.spdmOn d.sec.spdmCaps rqChunkGet (fun d =>
    if d.sec.chunkOut.isEmpty then d.spdmError errUnexpected rqChunkGet
    else ({ d with sec := { d.sec with chunkOut := d.sec.chunkOut.drop size.toNat } }).emit (.spdm "CHUNK_RESPONSE" (d.sec.chunkOut.take size.toNat))))

end Sys2Proof.Machine
end

