-- ==== Sys2Proof/Machine/Dispatch.lean ====
section
/-! DEFINITION. One command: one arm per constructor, each a direct call of its meaning. -/

namespace Sys2Proof.Machine

/-- The effect of a command on everything but the queue. -/
def exec (i : Instr) (s : State) : Host.Outcome State Fault Refusal :=
  match i with
  | .nop t slot => Sys2Proof.Machine.execNop t slot s
  | .scheduleCycle g => Sys2Proof.Machine.execScheduleCycle g s
  | .engineWriteback t => Sys2Proof.Machine.execEngineWriteback t s
  | .engineRowDelivery t ecc => Sys2Proof.Machine.execEngineRowDelivery t ecc s
  | .vadd t w => Sys2Proof.Machine.execVadd t w s
  | .vsub t w => Sys2Proof.Machine.execVsub t w s
  | .vneg t w => Sys2Proof.Machine.execVneg t w s
  | .vmul t w => Sys2Proof.Machine.execVmul t w s
  | .vmuls t w => Sys2Proof.Machine.execVmuls t w s
  | .vmad t w => Sys2Proof.Machine.execVmad t w s
  | .vmsb t w => Sys2Proof.Machine.execVmsb t w s
  | .vmod t w => Sys2Proof.Machine.execVmod t w s
  | .vcmp t w => Sys2Proof.Machine.execVcmp t w s
  | .vmin t w => Sys2Proof.Machine.execVmin t w s
  | .vmax t w => Sys2Proof.Machine.execVmax t w s
  | .vsel t w => Sys2Proof.Machine.execVsel t w s
  | .vmov t w => Sys2Proof.Machine.execVmov t w s
  | .vbcast t w => Sys2Proof.Machine.execVbcast t w s
  | .vperm t w => Sys2Proof.Machine.execVperm t w s
  | .kand t w => Sys2Proof.Machine.execKand t w s
  | .kor t w => Sys2Proof.Machine.execKor t w s
  | .kxor t w => Sys2Proof.Machine.execKxor t w s
  | .knot t w => Sys2Proof.Machine.execKnot t w s
  | .kset t w => Sys2Proof.Machine.execKset t w s
  | .ktail t w => Sys2Proof.Machine.execKtail t w s
  | .fadd t w => Sys2Proof.Machine.execFadd t w s
  | .fsub t w => Sys2Proof.Machine.execFsub t w s
  | .fmul t w => Sys2Proof.Machine.execFmul t w s
  | .fma t w => Sys2Proof.Machine.execFma t w s
  | .fmin t w => Sys2Proof.Machine.execFmin t w s
  | .fmax t w => Sys2Proof.Machine.execFmax t w s
  | .fcmp t w => Sys2Proof.Machine.execFcmp t w s
  | .cvtrf t w => Sys2Proof.Machine.execCvtrf t w s
  | .cvtfr t w => Sys2Proof.Machine.execCvtfr t w s
  | .vld t w => Sys2Proof.Machine.execVld t w s
  | .vst t w => Sys2Proof.Machine.execVst t w s
  | .vscanMsum t w => Sys2Proof.Machine.execVscanMsum t w s
  | .vscanMmin t w => Sys2Proof.Machine.execVscanMmin t w s
  | .vscanMmax t w => Sys2Proof.Machine.execVscanMmax t w s
  | .vscanFsum t w => Sys2Proof.Machine.execVscanFsum t w s
  | .vscanFmin t w => Sys2Proof.Machine.execVscanFmin t w s
  | .vscanFmax t w => Sys2Proof.Machine.execVscanFmax t w s
  | .vtreeMsum t w => Sys2Proof.Machine.execVtreeMsum t w s
  | .vtreeMprod t w => Sys2Proof.Machine.execVtreeMprod t w s
  | .vtreeMmin t w => Sys2Proof.Machine.execVtreeMmin t w s
  | .vtreeMmax t w => Sys2Proof.Machine.execVtreeMmax t w s
  | .vtreeFsum t w => Sys2Proof.Machine.execVtreeFsum t w s
  | .vtreeFmin t w => Sys2Proof.Machine.execVtreeFmin t w s
  | .vtreeFmax t w => Sys2Proof.Machine.execVtreeFmax t w s
  | .wait t w => Sys2Proof.Machine.execWait t w s
  | .dmaiss t w => Sys2Proof.Machine.execDmaiss t w s
  | .pwld t w => Sys2Proof.Machine.execPwld t w s
  | .flagclr t w => Sys2Proof.Machine.execFlagclr t w s
  | .endst t w => Sys2Proof.Machine.execEndst t w s
  | .sli t w => Sys2Proof.Machine.execSli t w s
  | .slis t w => Sys2Proof.Machine.execSlis t w s
  | .saddi t w => Sys2Proof.Machine.execSaddi t w s
  | .salu t w => Sys2Proof.Machine.execSalu t w s
  | .ccld t w => Sys2Proof.Machine.execCcld t w s
  | .hld t w => Sys2Proof.Machine.execHld t w s
  | .hst t w => Sys2Proof.Machine.execHst t w s
  | .hopAddsub t w => Sys2Proof.Machine.execHopAddsub t w s
  | .hopMulcc t w => Sys2Proof.Machine.execHopMulcc t w s
  | .hopMulpt t w => Sys2Proof.Machine.execHopMulpt t w s
  | .hopRelin t w => Sys2Proof.Machine.execHopRelin t w s
  | .hopRotate t w => Sys2Proof.Machine.execHopRotate t w s
  | .hopFntt t w => Sys2Proof.Machine.execHopFntt t w s
  | .hopIntt t w => Sys2Proof.Machine.execHopIntt t w s
  | .hopTranspose t w => Sys2Proof.Machine.execHopTranspose t w s
  | .hopRescale t w => Sys2Proof.Machine.execHopRescale t w s
  | .hopMulrescale t w => Sys2Proof.Machine.execHopMulrescale t w s
  | .hopModswitch t w => Sys2Proof.Machine.execHopModswitch t w s
  | .hopDrop t w => Sys2Proof.Machine.execHopDrop t w s
  | .hopModraise t w => Sys2Proof.Machine.execHopModraise t w s
  | .hopKsext t w => Sys2Proof.Machine.execHopKsext t w s
  | .hopInvalidate t w => Sys2Proof.Machine.execHopInvalidate t w s
  | .karm t w => Sys2Proof.Machine.execKarm t w s
  | .krel t w => Sys2Proof.Machine.execKrel t w s
  | .expand t w => Sys2Proof.Machine.execExpand t w s
  | .loop t w => Sys2Proof.Machine.execLoop t w s
  | .pendingWaitComplete t => Sys2Proof.Machine.execPendingWaitComplete t s
  | .arrivalTimeout t => Sys2Proof.Machine.execArrivalTimeout t s
  | .stageEnd g => Sys2Proof.Machine.execStageEnd g s
  | .ntt t w => Sys2Proof.Machine.execNtt t w s
  | .intt t w => Sys2Proof.Machine.execIntt t w s
  | .auto t w => Sys2Proof.Machine.execAuto t w s
  | .perm t w => Sys2Proof.Machine.execPerm t w s
  | .txp t w => Sys2Proof.Machine.execTxp t w s
  | .transformInvariantClose t upset => Sys2Proof.Machine.execTransformInvariantClose t upset s
  | .permIndexCheck t => Sys2Proof.Machine.execPermIndexCheck t s
  | .mma t w => Sys2Proof.Machine.execMma t w s
  | .dsm t w => Sys2Proof.Machine.execDsm t w s
  | .dsmClose t => Sys2Proof.Machine.execDsmClose t s
  | .mspill t w => Sys2Proof.Machine.execMspill t w s
  | .mresume t w => Sys2Proof.Machine.execMresume t w s
  | .mepi t w => Sys2Proof.Machine.execMepi t w s
  | .mchs t w => Sys2Proof.Machine.execMchs t w s
  | .mchr t w => Sys2Proof.Machine.execMchr t w s
  | .chainPacketLand sender => Sys2Proof.Machine.execChainPacketLand sender s
  | .dmaElementRequest t q => Sys2Proof.Machine.execDmaElementRequest t q s
  | .nearReadReturn channel page sector ce ue => Sys2Proof.Machine.execNearReadReturn channel page sector ce ue s
  | .farReadReturn sector lines => Sys2Proof.Machine.execFarReadReturn sector lines s
  | .farReadTimeout sector => Sys2Proof.Machine.execFarReadTimeout sector s
  | .dmaWriteLand t q => Sys2Proof.Machine.execDmaWriteLand t q s
  | .accumulate op sector operand poison prime => Sys2Proof.Machine.execAccumulate op sector operand poison prime s
  | .refreshSlot channel => Sys2Proof.Machine.execRefreshSlot channel s
  | .extendedRefreshEntry stack temperature => Sys2Proof.Machine.execExtendedRefreshEntry stack temperature s
  | .memCeRate channel => Sys2Proof.Machine.execMemCeRate channel s
  | .ksuGrant die => Sys2Proof.Machine.execKsuGrant die s
  | .ksuPageHeaderArrival t ring seen => Sys2Proof.Machine.execKsuPageHeaderArrival t ring seen s
  | .slotFillComplete t ring => Sys2Proof.Machine.execSlotFillComplete t ring s
  | .expandComplete t => Sys2Proof.Machine.execExpandComplete t s
  | .tickBoundary => Sys2Proof.Machine.execTickBoundary s
  | .tickInEdge => Sys2Proof.Machine.execTickInEdge s
  | .tickInLost => Sys2Proof.Machine.execTickInLost s
  | .stageStart => Sys2Proof.Machine.execStageStart s
  | .stageDeadline => Sys2Proof.Machine.execStageDeadline s
  | .throttleExpiry g => Sys2Proof.Machine.execThrottleExpiry g s
  | .arbiterEvaluation seen => Sys2Proof.Machine.execArbiterEvaluation seen s
  | .pwrBrakeAssert seen => Sys2Proof.Machine.execPwrBrakeAssert seen s
  | .pwrBrakeRelease seen => Sys2Proof.Machine.execPwrBrakeRelease seen s
  | .inputMonitorSample watts => Sys2Proof.Machine.execInputMonitorSample watts s
  | .droopDetected die => Sys2Proof.Machine.execDroopDetected die s
  | .thermalTrip => Sys2Proof.Machine.execThermalTrip s
  | .avsStep die slack guardBand => Sys2Proof.Machine.execAvsStep die slack guardBand s
  | .clockLost what => Sys2Proof.Machine.execClockLost what s
  | .countReached t => Sys2Proof.Machine.execCountReached t s
  | .transitHotDetect => Sys2Proof.Machine.execTransitHotDetect s
  | .transitSwap => Sys2Proof.Machine.execTransitSwap s
  | .stagingPageCopy => Sys2Proof.Machine.execStagingPageCopy s
  | .streamAdmission stream => Sys2Proof.Machine.execStreamAdmission stream s
  | .streamConsume stream => Sys2Proof.Machine.execStreamConsume stream s
  | .streamLapCheck stream => Sys2Proof.Machine.execStreamLapCheck stream s
  | .batchRecordPost stream => Sys2Proof.Machine.execBatchRecordPost stream s
  | .reduceModuleSum plan => Sys2Proof.Machine.execReduceModuleSum plan s
  | .contribPacketReceive header data poison => Sys2Proof.Machine.execContribPacketReceive header data poison s
  | .reduceDeadline plan => Sys2Proof.Machine.execReduceDeadline plan s
  | .reduceReady plan => Sys2Proof.Machine.execReduceReady plan s
  | .peerLinkUp port partner slow => Sys2Proof.Machine.execPeerLinkUp port partner slow s
  | .peerFlitReceive port crcGood header payload poison => Sys2Proof.Machine.execPeerFlitReceive port crcGood header payload poison s
  | .peerReplayTimeout port => Sys2Proof.Machine.execPeerReplayTimeout port s
  | .peerRetrainTimeout port => Sys2Proof.Machine.execPeerRetrainTimeout port s
  | .peerConfigTimeout => Sys2Proof.Machine.execPeerConfigTimeout s
  | .dieLinkReplay link cycles => Sys2Proof.Machine.execDieLinkReplay link cycles s
  | .farLinkDown link => Sys2Proof.Machine.execFarLinkDown link s
  | .farWriteLost sector => Sys2Proof.Machine.execFarWriteLost sector s
  | .commandFetch sq packet => Sys2Proof.Machine.execCommandFetch sq packet s
  | .cqInterruptTimer cq => Sys2Proof.Machine.execCqInterruptTimer cq s
  | .identify c => Sys2Proof.Machine.execIdentify c s
  | .getFeatures c => Sys2Proof.Machine.execGetFeatures c s
  | .loadImage c block image => Sys2Proof.Machine.execLoadImage c block image s
  | .unloadImage c => Sys2Proof.Machine.execUnloadImage c s
  | .bindKeyset c block => Sys2Proof.Machine.execBindKeyset c block s
  | .bindCopyComplete pages => Sys2Proof.Machine.execBindCopyComplete pages s
  | .unbindKeyset c => Sys2Proof.Machine.execUnbindKeyset c s
  | .stageKeys c => Sys2Proof.Machine.execStageKeys c s
  | .retirePage c => Sys2Proof.Machine.execRetirePage c s
  | .start c => Sys2Proof.Machine.execStart c s
  | .stop c => Sys2Proof.Machine.execStop c s
  | .abort c => Sys2Proof.Machine.execAbort c s
  | .resume c => Sys2Proof.Machine.execResume c s
  | .setTick c => Sys2Proof.Machine.execSetTick c s
  | .openStream c => Sys2Proof.Machine.execOpenStream c s
  | .closeStream c => Sys2Proof.Machine.execCloseStream c s
  | .runToCount c => Sys2Proof.Machine.execRunToCount c s
  | .dumpState c block => Sys2Proof.Machine.execDumpState c block s
  | .setDebug c => Sys2Proof.Machine.execSetDebug c s
  | .readLog c => Sys2Proof.Machine.execReadLog c s
  | .clearLog c => Sys2Proof.Machine.execClearLog c s
  | .channelTest c block => Sys2Proof.Machine.execChannelTest c block s
  | .channelTestComplete results micros => Sys2Proof.Machine.execChannelTestComplete results micros s
  | .setHash c => Sys2Proof.Machine.execSetHash c s
  | .pkeOpen c => Sys2Proof.Machine.execPkeOpen c s
  | .pkeClose c => Sys2Proof.Machine.execPkeClose c s
  | .pkeLoad c block => Sys2Proof.Machine.execPkeLoad c block s
  | .pkeStore c block => Sys2Proof.Machine.execPkeStore c block s
  | .pkeZero c block => Sys2Proof.Machine.execPkeZero c block s
  | .pkeRandom c block => Sys2Proof.Machine.execPkeRandom c block s
  | .pkeModadd c block => Sys2Proof.Machine.execPkeModadd c block s
  | .pkeModsub c block => Sys2Proof.Machine.execPkeModsub c block s
  | .pkeModmul c block => Sys2Proof.Machine.execPkeModmul c block s
  | .pkeModexp c block => Sys2Proof.Machine.execPkeModexp c block s
  | .pkeModinv c block => Sys2Proof.Machine.execPkeModinv c block s
  | .pkeModred c block => Sys2Proof.Machine.execPkeModred c block s
  | .pkeEckeygen c block => Sys2Proof.Machine.execPkeEckeygen c block s
  | .pkeEcmul c block => Sys2Proof.Machine.execPkeEcmul c block s
  | .pkeEcdh c block => Sys2Proof.Machine.execPkeEcdh c block s
  | .pkeEcdsaSign c block => Sys2Proof.Machine.execPkeEcdsaSign c block s
  | .pkeEcdsaVerify c block => Sys2Proof.Machine.execPkeEcdsaVerify c block s
  | .pkeIdleClose => Sys2Proof.Machine.execPkeIdleClose s
  | .sanitize c => Sys2Proof.Machine.execSanitize c s
  | .sanitizeComplete milliseconds writeFailed => Sys2Proof.Machine.execSanitizeComplete milliseconds writeFailed s
  | .peerConfig c block => Sys2Proof.Machine.execPeerConfig c block s
  | .reducePlan c block => Sys2Proof.Machine.execReducePlan c block s
  | .sqTailDoorbell sq value => Sys2Proof.Machine.execSqTailDoorbell sq value s
  | .cqHeadDoorbell cq value => Sys2Proof.Machine.execCqHeadDoorbell cq value s
  | .streamDoorbell stream value => Sys2Proof.Machine.execStreamDoorbell stream value s
  | .sqEnable sq value => Sys2Proof.Machine.execSqEnable sq value s
  | .sqDisable sq value => Sys2Proof.Machine.execSqDisable sq value s
  | .cqEnable cq value => Sys2Proof.Machine.execCqEnable cq value s
  | .cqDisable cq value => Sys2Proof.Machine.execCqDisable cq value s
  | .bar4Write offset data poisoned => Sys2Proof.Machine.execBar4Write offset data poisoned s
  | .bar4Read offset length => Sys2Proof.Machine.execBar4Read offset length s
  | .bar4BaseWrite value => Sys2Proof.Machine.execBar4BaseWrite value s
  | .lowWordRead a => Sys2Proof.Machine.execLowWordRead a s
  | .krtData0Read => Sys2Proof.Machine.execKrtData0Read s
  | .logData0Read => Sys2Proof.Machine.execLogData0Read s
  | .logAckWrite value => Sys2Proof.Machine.execLogAckWrite value s
  | .pwrBudgetWrite value => Sys2Proof.Machine.execPwrBudgetWrite value s
  | .clkCtrlWrite value => Sys2Proof.Machine.execClkCtrlWrite value s
  | .registerWrite a value => Sys2Proof.Machine.execRegisterWrite a value s
  | .logMsiTimer => Sys2Proof.Machine.execLogMsiTimer s
  | .powerOn moduleId => Sys2Proof.Machine.execPowerOn moduleId s
  | .inputPowerLoss => Sys2Proof.Machine.execInputPowerLoss s
  | .warmReset => Sys2Proof.Machine.execWarmReset s
  | .bootStart seen => Sys2Proof.Machine.execBootStart seen s
  | .flr => Sys2Proof.Machine.execFlr s
  | .hostLinkDown peerHalf => Sys2Proof.Machine.execHostLinkDown peerHalf s
  | .internalFault cause unit => Sys2Proof.Machine.execInternalFault cause unit s
  | .entropyHealthFail adaptive => Sys2Proof.Machine.execEntropyHealthFail adaptive s
  | .drbgReseed => Sys2Proof.Machine.execDrbgReseed s
  | .pldmFwUpdate slotB version component => Sys2Proof.Machine.execPldmFwUpdate slotB version component s
  | .ownerRecordUpdate record signature => Sys2Proof.Machine.execOwnerRecordUpdate record signature s
  | .getVersion => Sys2Proof.Machine.execGetVersion s
  | .getCapabilities => Sys2Proof.Machine.execGetCapabilities s
  | .negotiateAlgorithms base hash measurement => Sys2Proof.Machine.execNegotiateAlgorithms base hash measurement s
  | .getDigests => Sys2Proof.Machine.execGetDigests s
  | .getCertificate slot offset length => Sys2Proof.Machine.execGetCertificate slot offset length s
  | .challenge slot nonce => Sys2Proof.Machine.execChallenge slot nonce s
  | .getMeasurements index nonce => Sys2Proof.Machine.execGetMeasurements index nonce s
  | .chunkSend last chunk => Sys2Proof.Machine.execChunkSend last chunk s
  | .chunkGet size => Sys2Proof.Machine.execChunkGet size s
  | .sentinelSample t faulty => Sys2Proof.Machine.execSentinelSample t faulty s
  | .dmaReadReturn t q corrected uncorrectable => Sys2Proof.Machine.execDmaReadReturn t q corrected uncorrectable s
  | .extendedRateTimer stack => Sys2Proof.Machine.execExtendedRateTimer stack s
  | .boundaryScanInstruction ins => Sys2Proof.Machine.execBoundaryScanInstruction ins s

end Sys2Proof.Machine
end

