-- ==== Sys2Proof/WellFormed.lean ====
section
/-! DEFINITION. Well-formed commands: what a sender may say in an operand beyond what its type already bounds (log 6). -/

namespace Sys2Proof

/-- The opcode byte of a packet is the one of the row that carries it (R325, R333). -/
def Packet.is (c : Packet) (opcode : Nat) : Bool := (c.bits.extractLsb' 0 8).toNat == opcode

/-- A page of a channel and a sector of a page (R196). -/
def pageOk (page sector : Nat) : Bool := decide (page < 40960) && decide (sector < 113)

/-- Package watts and five junctions: GD0 to GD3 and the Nucleus (R381, R384). -/
def Sensors.wf (x : Sensors) : Bool := x.junction.length == 5

/-- Link widths of R318. -/
def widthOk (n : Nat) : Bool := [1, 2, 4, 8, 16].contains n

/-- A boot failure that boot can meet, with the unit of its cause (R423, R433; of ENTROPY the test, R413). -/
def bootFailureOk (cause : FaultCause) (unit : Byte) : Bool :=
  match cause with
  | .clock => decide (unit.toNat < 3)
  | .puf => false
  | .fwAuth => false
  | .entropy => unit == 1 || unit == 2
  | .nucleus => unit == 0
  | .dieLink => decide (unit.toNat < 8)
  | .channel => true
  | .loadApply => false
  | .sanitizeWrite => false

def BootSeen.wf (x : BootSeen) : Bool :=
  widthOk x.linkWidth.toNat && decide (x.farUnits.length ≤ 4) && x.farUp &&& x.farDown == 0 &&
  (match x.failure with | some (c, u) => bootFailureOk c u | none => true)

/-- A cause that INTERNAL_FAULT raises, with its unit (R433). -/
def internalFaultOk (cause : FaultCause) (unit : Byte) : Bool :=
  match cause with
  | .nucleus => unit == 0
  | .dieLink => decide (unit.toNat < 8)
  | .channel => true
  | .loadApply => unit == 0
  | .sanitizeWrite => unit == 0
  | .clock => false
  | .puf => false
  | .fwAuth => false
  | .entropy => false

/-- An access of one byte or more within its BAR (R319). -/
def Access.wf (a : Access) : Bool := decide (1 ≤ a.bytes) && (a.bar != .bar2 || decide (a.offset.toNat < 65536)) && (a.bar != .bar4Size || a.offset == 0)

/-- What a channel's test found (R213, R214). -/
def TestResult.wf (x : TestResult) : Bool := pageOk x.firstPage.toNat x.firstSector.toNat && x.ue.all (fun e => pageOk e.1 e.2.1)

/-- An owner record has its four keys, present or not (R402). -/
def OwnerRecord.wf (x : OwnerRecord) : Bool := x.keys.length == 4

/-- Well-formed commands. -/
def Instr.wf (c : Instr) : Bool :=
  match c with
  | .transformInvariantClose _ (some u) => (u.outputs ++ u.store ++ u.tile).all (fun p => decide (p.1 < 2 ^ 17))
  | .nearReadReturn _ page sector _ _ => pageOk page.toNat sector.toNat
  | .accumulate _ sector _ _ prime => decide (sector < 256 * 40960 * 113) && decide (0 < prime.toNat)
  | .arbiterEvaluation seen => seen.wf
  | .pwrBrakeAssert seen => seen.wf
  | .pwrBrakeRelease seen => seen.wf
  | .identify p => p.is 0x01
  | .getFeatures p => p.is 0x02
  | .loadImage p _ _ => p.is 0x10
  | .unloadImage p => p.is 0x11
  | .bindKeyset p _ => p.is 0x12
  | .unbindKeyset p => p.is 0x13
  | .stageKeys p => p.is 0x14
  | .retirePage p => p.is 0x15
  | .start p => p.is 0x20
  | .stop p => p.is 0x21
  | .abort p => p.is 0x22
  | .resume p => p.is 0x23
  | .setTick p => p.is 0x24
  | .openStream p => p.is 0x30
  | .closeStream p => p.is 0x31
  | .runToCount p => p.is 0x40
  | .dumpState p _ => p.is 0x41
  | .setDebug p => p.is 0x42
  | .readLog p => p.is 0x50
  | .clearLog p => p.is 0x51
  | .channelTest p _ => p.is 0x60
  | .channelTestComplete rs _ => rs.all TestResult.wf
  | .setHash p => p.is 0x61
  | .pkeOpen p => p.is 0x70
  | .pkeLoad p _ => p.is 0x71
  | .pkeStore p _ => p.is 0x71
  | .pkeZero p _ => p.is 0x71
  | .pkeRandom p _ => p.is 0x71
  | .pkeModadd p _ => p.is 0x71
  | .pkeModsub p _ => p.is 0x71
  | .pkeModmul p _ => p.is 0x71
  | .pkeModexp p _ => p.is 0x71
  | .pkeModinv p _ => p.is 0x71
  | .pkeModred p _ => p.is 0x71
  | .pkeEckeygen p _ => p.is 0x71
  | .pkeEcmul p _ => p.is 0x71
  | .pkeEcdh p _ => p.is 0x71
  | .pkeEcdsaSign p _ => p.is 0x71
  | .pkeEcdsaVerify p _ => p.is 0x71
  | .pkeClose p => p.is 0x72
  | .sanitize p => p.is 0x73
  | .peerConfig p _ => p.is 0x80
  | .reducePlan p _ => p.is 0x81
  | .bar4Write _ data _ => decide (1 ≤ data.length) && decide (data.length ≤ 512)
  | .bar4Read _ x => decide (1 ≤ x.length) && decide (x.length ≤ 4096)
  | .lowWordRead a => a.wf
  | .registerWrite a _ => a.wf
  | .bootStart seen => seen.wf
  | .internalFault cause unit => internalFaultOk cause unit
  | .ownerRecordUpdate record _ => record.wf
  | .challenge _ nonce => nonce.length == 32
  | .getMeasurements _ (some nonce) => nonce.length == 32
  | .nop .. | .scheduleCycle .. | .engineWriteback .. | .engineRowDelivery .. | .vadd .. | .vsub .. | .vneg .. | .vmul ..
  | .vmuls .. | .vmad .. | .vmsb .. | .vmod .. | .vcmp .. | .vmin .. | .vmax .. | .vsel .. | .vmov .. | .vbcast .. | .vperm ..
  | .kand .. | .kor .. | .kxor .. | .knot .. | .kset .. | .ktail .. | .fadd .. | .fsub .. | .fmul .. | .fma .. | .fmin ..
  | .fmax .. | .fcmp .. | .cvtrf .. | .cvtfr .. | .vld .. | .vst .. | .vscanMsum .. | .vscanMmin .. | .vscanMmax ..
  | .vscanFsum .. | .vscanFmin .. | .vscanFmax .. | .vtreeMsum .. | .vtreeMprod .. | .vtreeMmin .. | .vtreeMmax .. | .vtreeFsum ..
  | .vtreeFmin .. | .vtreeFmax .. | .wait .. | .dmaiss .. | .pwld .. | .flagclr .. | .endst .. | .sli .. | .slis .. | .saddi ..
  | .salu .. | .ccld .. | .hld .. | .hst .. | .hopAddsub .. | .hopMulcc .. | .hopMulpt .. | .hopRelin .. | .hopRotate ..
  | .hopFntt .. | .hopIntt .. | .hopTranspose .. | .hopRescale .. | .hopMulrescale .. | .hopModswitch .. | .hopDrop ..
  | .hopModraise .. | .hopKsext .. | .hopInvalidate .. | .karm .. | .krel .. | .expand .. | .loop .. | .pendingWaitComplete ..
  | .arrivalTimeout .. | .stageEnd .. | .ntt .. | .intt .. | .auto .. | .perm .. | .txp .. | .transformInvariantClose _ none
  | .permIndexCheck .. | .mma .. | .dsm .. | .dsmClose .. | .mspill .. | .mresume .. | .mepi .. | .mchs .. | .mchr ..
  | .chainPacketLand .. | .dmaElementRequest .. | .farReadReturn .. | .farReadTimeout .. | .dmaWriteLand .. | .refreshSlot ..
  | .extendedRefreshEntry .. | .memCeRate .. | .ksuGrant .. | .ksuPageHeaderArrival .. | .slotFillComplete .. | .expandComplete ..
  | .tickBoundary .. | .tickInEdge .. | .tickInLost .. | .stageStart .. | .stageDeadline .. | .throttleExpiry ..
  | .inputMonitorSample .. | .droopDetected .. | .thermalTrip .. | .avsStep .. | .clockLost .. | .countReached ..
  | .transitHotDetect .. | .transitSwap .. | .stagingPageCopy .. | .streamAdmission .. | .streamConsume .. | .streamLapCheck ..
  | .batchRecordPost .. | .reduceModuleSum .. | .contribPacketReceive .. | .reduceDeadline .. | .reduceReady .. | .peerLinkUp ..
  | .peerFlitReceive .. | .peerReplayTimeout .. | .peerRetrainTimeout .. | .peerConfigTimeout .. | .dieLinkReplay ..
  | .farLinkDown .. | .farWriteLost .. | .commandFetch .. | .cqInterruptTimer .. | .bindCopyComplete .. | .pkeIdleClose ..
  | .sanitizeComplete .. | .sqTailDoorbell .. | .cqHeadDoorbell .. | .streamDoorbell .. | .sqEnable .. | .sqDisable ..
  | .cqEnable .. | .cqDisable .. | .bar4BaseWrite .. | .krtData0Read .. | .logData0Read .. | .logAckWrite .. | .pwrBudgetWrite ..
  | .clkCtrlWrite .. | .logMsiTimer .. | .powerOn .. | .inputPowerLoss .. | .warmReset .. | .flr .. | .hostLinkDown ..
  | .entropyHealthFail .. | .drbgReseed .. | .pldmFwUpdate .. | .getVersion .. | .getCapabilities .. | .negotiateAlgorithms ..
  | .getDigests .. | .getCertificate .. | .getMeasurements _ none | .chunkSend .. | .chunkGet .. | .sentinelSample ..
  | .dmaReadReturn .. | .extendedRateTimer .. | .boundaryScanInstruction .. => true

end Sys2Proof
end

