-- ==== Sys2Proof/Safety.lean ====
section
/-! DEFINITION. The terms in which claims are stated: canonical memories, device-state transitions, and what it takes for a slot instruction or a
command packet to execute. -/

namespace Sys2Proof.Machine

/- Canonical memories (R147, R196, R216). -/

/-- Both tiers are in the one form of a sparse store. -/
def Mem.wf (m : Mem) : Bool := Store.wf m.nearDefault m.near && Store.wf m.farDefault m.far

/-- The scratchpad is in the one form of a sparse store. -/
def Tile.wf (t : Tile) : Bool := Store.wf rowDefault t.scratch

/-- Both memory tiers and every scratchpad. -/
def Dev.memoryWf (d : Dev) : Bool := d.mem.wf && d.tiles.all Tile.wf

/- Device states (R331, R420). -/

/-- Whether command `c` may take the device from one state to another: the transitions of R331 by their events, those of FLR (R420, R421),
resets, and the sensors' trips (R385, R448). What boot does is the clock's. -/
def mayMove (c : Instr) (old new : DevState) : Bool :=
  old == new || match new with
  | .boot => match c with
    | .powerOn .. | .inputPowerLoss | .thermalTrip | .warmReset => true
    | .arbiterEvaluation .. | .pwrBrakeAssert .. | .pwrBrakeRelease .. | .extendedRefreshEntry .. => true
    | _ => false
  | .ready => match c with
    | .unloadImage .. => old == .loaded || old == .halted
    | .sanitizeComplete .. => old == .sanitizing
    | .flr | .hostLinkDown .. => old == .loaded || old == .running || old == .stopping || old == .halted
    | _ => false
  | .loaded => match c with
    | .loadImage .. => old == .ready
    | .tickBoundary | .stageStart => old == .stopping
    | _ => false
  | .running => match c with
    | .start .. | .resume .. | .runToCount .. => old == .loaded
    | _ => false
  | .stopping => match c with
    | .stop .. => old == .running
    | _ => false
  | .halted => match c with
    | .abort .. | .countReached .. | .stageDeadline => old == .running || old == .stopping
    | _ => false
  | .faulted => match c with
    | .clockLost .. | .entropyHealthFail .. | .internalFault .. => true
    | .sanitizeComplete .. => old == .sanitizing
    | _ => false
  | .sanitizing => match c with
    | .sanitize .. => old == .ready || old == .loaded || old == .halted || old == .faulted
    | _ => false

/- Slot instructions (R237, R274). -/

/-- What an instruction of tile t sees at issue in the present cycle of its group. -/
def State.sees (s : State) (t : TileId) (g : GroupId) : IssueCtx := s.dev.issueCtx t g

/-- Tile t with everything met that its operations in flight were due before this issue (R269, R273). -/
def State.settled (s : State) (t : TileId) (g : GroupId) : Tile := (s.dev.tile t).settle (s.sees t g)

/-- The state with tile t replaced. -/
def State.put (s : State) (t : TileId) (x : Tile) : State := { s with dev := s.dev.setTile t x }

/-- Tile t, of group g, issues in the present cycle, whose frozen cycles for corrected rows have passed, and no unit of it is busy and no wait or
marker pends: then the one instruction is all that happens. -/
abbrev State.ready (s : State) (t : TileId) (g : GroupId) : Prop :=
  s.dev.groupOf t = some g ∧ s.dev.mayIssue g t = true ∧
  (s.dev.correctionDue (s.dev.group g) = true → (s.dev.group g).eccFor = some (s.dev.group g).pipe) ∧
  s.dev.run.hazard = false ∧ (s.settled t g).halted = false ∧ (s.settled t g).pend = [] ∧ (s.settled t g).taken = [] ∧
  (s.settled t g).tu.op = none ∧ (s.settled t g).nma.op = none ∧ (s.settled t g).nma.dsm = none

/-- A tile with results in flight that land at the end of the cycle `latency` cycles on, the issue cycle being the first (R52, R53). -/
def Tile.fly (x : Tile) (pipe latency : Nat) (dests : List Dest) : Tile :=
  { x with flights := x.flights ++ [{ due := pipe + latency - 1, issued := pipe, seq := x.seq, dests := dests }], seq := x.seq + 1 }

/-- The answer of a slot instruction: of the settled tile, and nothing else, `change` is what is left. -/
def State.issues (s : State) (t : TileId) (g : GroupId) (c : Instr) (change : Tile → Tile) : Prop :=
  exec c s = .next (s.put t (change (s.settled t g)))

/-- A V-slot result in a vector register: v in flight to VD with the lanes that R59 lets it write, `P j` of each active lane's value, 0 elsewhere. -/
def State.lanes (s : State) (t : TileId) (g : GroupId) (w : BitVec 26) (c : Instr) (latency : Nat) (rest : List Dest) (P : Nat → Nat → Prop) : Prop :=
  ∃ v : Vec, v.length = 1024 ∧
    s.issues t g c (fun x => x.fly (s.sees t g).pipe latency (.v (vD w) v (writeMask x (vMask w) (vZ w)) :: rest)) ∧
    ∀ j, j < 1024 → if active (s.settled t g).k (vMask w) j then P j (lane v j).toNat else lane v j = 0

/-- A V-slot result in a mask register: bit j is `P j` on active lanes and 0 elsewhere. -/
def State.bits (s : State) (t : TileId) (g : GroupId) (w : BitVec 26) (c : Instr) (latency : Nat) (P : Nat → Bool) : Prop :=
  ∃ m : BitVec 1024, s.issues t g c (fun x => x.fly (s.sees t g).pipe latency [.k (vKD w) m (writeMask x (vMask w) (vZ w))]) ∧
    ∀ j, j < 1024 → m.getLsbD j = (active (s.settled t g).k (vMask w) j && P j)

/-- A word whose bit i is set where some active lane raises it. -/
def flagsOf (x : Tile) (w : BitVec 26) (raised : Nat → Word) (fl : Word) : Prop :=
  ∀ i, fl.getLsbD i = true ↔ ∃ j, j < 1024 ∧ active x.k (vMask w) j = true ∧ (raised j).getLsbD i = true

/-- The prime of lane j under a selector (R58). -/
def primeOf (x : Tile) (w : BitVec 26) (j : Nat) : Nat := selPrime x (vMctx w) (vSE w) (vGS w) (j / 128)

/-- The selector of a modular operation passes R58, and the entries of lane groups with an active lane hold primes. -/
abbrev primesOk (x : Tile) (w : BitVec 26) : Prop :=
  selOk x (vMctx w) (vSE w) (vGS w) (vMask w) = true ∧
  ∀ k, k < 8 → groupActive x.k (vMask w) k = true → 0 < selPrime x (vMctx w) (vSE w) (vGS w) k

/-- Rows that an instruction may read or write at issue: they exist, and no bank slot is taken in this bundle (R129, R134, R146). -/
abbrev rowsOk (s : State) (t : TileId) (g : GroupId) (rows : List Nat) : Prop :=
  rows.all (s.settled t g).powered = true ∧ (s.settled t g).busNow (s.sees t g).pipe = ([], [])

/-- No row lies in a slot of a key ring that is not FULL; or in an armed ring at all (R187). -/
abbrev noneStarved (x : Tile) (rows : List Nat) : Prop := rows.any x.ringStarved = false
abbrev noneInRing (x : Tile) (rows : List Nat) : Prop := rows.any x.ringHolds = false

/-- The tile with the bank slots of rows taken in this cycle. -/
def Tile.took (x : Tile) (pipe : Nat) (reads writes : List Nat) : Tile :=
  { x with busCycle := pipe, busReads := reads.map bankOf, busWrites := writes.map bankOf }

/-- A row on its way to a unit, six cycles on (R132). -/
def rowRead (s : State) (t : TileId) (g : GroupId) (slot : Slot) (reader : Reader) (row : Nat) : RowRead :=
  { due := (s.sees t g).pipe + 6, seq := (s.settled t g).seq, bundle := (s.sees t g).bundle, slot := slot, reader := reader, row := row
    poisoned := ((s.settled t g).rowAt row).poison != 0, corrected := (s.settled t g).ceRows.contains row }

/- Command packets (R325 to R334). -/

/-- Packet c is the only one fetched, no pending command holds it, and it passes the state test of R332. -/
abbrev State.offers (s : State) (c : Packet) (f : Fetched) : Prop :=
  s.dev.host.fetched = [f] ∧ f.packet = c ∧ s.dev.host.nextCmd = some f ∧ accepts c.opcode s.dev.run.state = true

/-- The device with packet f taken from the fetched ones. -/
def State.taken (s : State) (f : Fetched) : Dev := s.dev.take f

/-- The answer of a command packet. -/
def State.answers (s : State) (c : Instr) (d : Dev) : Prop := exec c s = .next { s with dev := d }

end Sys2Proof.Machine
end

