-- ==== Sys2Proof/Certificates/Slice0/Obligations.lean ====
section
/-! DEFINITION. The statements about the model. -/

open Sys2Proof Sys2Proof.Machine

/- The block. -/

/-- A step with command c at the front of the queue is exec of c on the queue's rest. -/
def Obligations.StepRunsFrontCommand : Prop :=
  ∀ (c : Instr) (s : State), step { s with pending := c :: s.pending } = exec c s

/-- R127, R223, R253, R331, R393, R418: the machine right after reset, where the register tables give values. Memories that list nothing are the model's form
(logs 2 to 4). -/
def Obligations.ResetValues : Prop :=
  State.reset.pending = [] ∧ State.reset.dev.run.state = .boot ∧ State.reset.dev.tick.period = 200000 ∧ State.reset.dev.tick.external = false ∧
  State.reset.dev.power.budget = 930 ∧ State.reset.dev.power.floor = 400 ∧ State.reset.dev.power.limit = 105 ∧
  State.reset.dev.mem.hashSeed = 1 ∧ State.reset.dev.mem.hashDie = false ∧ State.reset.dev.mem.keyPages = 8192 ∧
  (∀ t, (State.reset.dev.tile t).sent.ctrl = 0x0066C200 ∧ (State.reset.dev.tile t).sent.t = 0x3C800000) ∧
  State.reset.dev.mem.near = [] ∧ State.reset.dev.mem.far = [] ∧ ∀ t, (State.reset.dev.tile t).scratch = []

/-- What a step does on an empty queue, which is the model's choice (log 5). While the tick does not run, the block idles, or takes the next step of
a boot in progress. While it runs, each core cycle has phases that post the rows due of themselves: R226, R228, R248 edges and the stage deadline; R219,
R231, R350 to R352, R368 to R371 the work of tick cycle 0 and of the drain; R208, R237 to R243, R246 refresh slots and the groups' stages. Then, where
nothing is on its way to a scratchpad or a channel, the cycle ends (R3, R247, R427), and with it a run whose tiles ABORT, an FLR or a fault has stopped (R348,
R420, R433; log 46). -/
def Obligations.EmptyQueueSteps : Prop :=
  (∀ s : State, s.pending = [] → s.dev.tick.running = false →
     (s.dev.booting = none → step s = .next s) ∧ ∀ b, s.dev.booting = some b → step s = .next { s with dev := s.dev.bootStep b }) ∧
  ∀ s : State, s.pending = [] → s.dev.tick.running = true →
    let d := s.dev
    let k := d.tick
    let posts := fun (due : Instr → Prop) => ∃ rows, (∀ c, c ∈ rows ↔ due c) ∧
      step s = .next { pending := rows, dev := { d with tick := { k with phase := k.phase + 1 } } }
    let lost := k.external = true ∧ k.fallback = false ∧ k.edgeAt = none ∧ 2 * k.period ≤ k.cycle
    (k.phase = 0 → posts (fun c =>
      (c = .stageDeadline ∧ d.running = true ∧ k.inRun = true ∧ k.deadlineDone = false ∧ k.period ≤ k.cycle) ∨
      (c = .tickInLost ∧ lost) ∨ (c = .tickBoundary ∧ (k.boundaryDue = true ∨ lost)))) ∧
    (k.phase = 1 → posts (fun c =>
      (c = .transitHotDetect ∧ k.cycle = 0) ∨
      (∃ n p, d.plan n.toNat = some p ∧ p.instances ≠ [] ∧
        ((k.cycle = 0 ∧ (c = .reduceReady n ∨ c = .reduceModuleSum { plan := n })) ∨ (d.running = true ∧ c = .reduceDeadline { plan := n }))) ∨
      (∃ n, (d.stream n).isOpen = true ∧ k.cycle = 0 ∧ d.running = true ∧
        (c = .streamConsume n ∨ c = .batchRecordPost n ∨ c = .streamAdmission n ∨ c = .streamLapCheck n)) ∨
      (c = .stageStart ∧ d.running = true ∧ k.inRun = true ∧ k.stageStarted = false ∧ 2048 ≤ k.cycle))) ∧
    (k.phase = 2 → posts (fun c =>
      (∃ n, n < 256 ∧ d.refreshDue n = true ∧ c = .refreshSlot (BitVec.ofNat 8 n)) ∨
      (d.running = true ∧ d.run.countReached = true ∧ ∃ t n m, d.run.target = some (t, n, m) ∧ c = .countReached t) ∨
      (∃ g, d.staged (d.group g) = true ∧ (c = .scheduleCycle g ∨ c = .stageEnd g ∨ ((d.group g).throttles ≠ [] ∧ c = .throttleExpiry g) ∨
        ∃ t, t ∈ (d.group g).members ∧ (d.tile t).pend ≠ [] ∧ (c = .pendingWaitComplete t ∨ c = .arrivalTimeout t))))) ∧
    (3 ≤ k.phase → d.transfers = [] → d.held = [] → d.stillLands = false →
      (d.run.ending = some .abort → ∃ e : Dev, step s = .next { s with dev := e } ∧ e.run.state = .halted ∧ e.run.ending = none) ∧
      (∀ old, d.run.ending = some (.flr old) → ∃ e : Dev, step s = .next { s with dev := e } ∧ e.host.jobs = [] ∧ e.run.ending = none) ∧
      (∀ cause unit, d.run.ending = some (.fault cause unit) → ∃ e : Dev, step s = .next { s with dev := e } ∧ e.host.jobs = [] ∧ e.run.ending = none ∧
        e.pins.faultCause = BitVec.ofNat 8 (causeCode cause))) ∧
    (3 ≤ k.phase → d.transfers = [] → d.held = [] → d.run.ending = none → ∃ e : Dev, step s = .next { s with dev := e } ∧
      e.tick = { k with wall := k.wall + 1, cycle := k.cycle + 1, phase := 0 } ∧ d.log.time + 40000 ≤ e.log.time ∧ e.log.time ≤ d.log.time + 40100 ∧
      (d.clocks.sscOn = false → e.log.time = d.log.time + 40000) ∧ e.run = d.run ∧ e.mem = d.mem ∧ e.host = d.host)

/-- R269, R271, R272: the instruction of tile t halts it for `reason` at issue, and nothing of it takes effect. -/
def Sys2Proof.Machine.State.refuses (s : State) (t : TileId) (g : GroupId) (c : Instr) (slot : BitVec 2) (reason : HaltReason) : Prop :=
  let x := s.settled t g
  ∃ s' n, exec c s = .next s' ∧ s'.dev.tile t = { x with
      halted := true, haltReason := reason, haltAddr := (s.sees t g).bundle, haltSlot := slot, haltAsync := false
      haltSched := BitVec.ofNat 32 (s.sees t g).sched, haltRank := 4, haltIssue := 0, haltFresh := true, haltSeq := n, sent := { x.sent with sample := none } } ∧
    (∀ u, u ≠ t → s'.dev.tile u = s.dev.tile u) ∧ s'.dev.mem = s.dev.mem

/- The V slot (R57 to R72, R278 to R285). -/

/-- R58, R59, R61, R280: the modular lane operations, with the state they leave.
R279, R281, R282: copies of bits. VSEL writes every lane; VPERM with an index above 1,023 on an active lane halts in the next cycle and
writes nothing. -/
def Obligations.ModularAndCopyLanes : Prop :=
  (∀ (s : State) (t : TileId) (g : GroupId) (w : BitVec 26), s.ready t g → primesOk (s.settled t g) w →
     let x := s.settled t g
     let q := primeOf x w
     let a := laneA x w
     let b := laneB x w
     let d := laneD x w
     s.lanes t g w (.vadd t w) 8 [] (fun j r => r = (a j + b j) % q j) ∧
     s.lanes t g w (.vsub t w) 8 [] (fun j r => r < q j ∧ (r + b j) % q j = a j % q j) ∧
     s.lanes t g w (.vmul t w) 8 [] (fun j r => r = a j * b j % q j) ∧
     s.lanes t g w (.vmad t w) 8 [] (fun j r => r = (a j * b j + d j) % q j) ∧
     s.lanes t g w (.vmsb t w) 8 [] (fun j r => r < q j ∧ (r + d j) % q j = a j * b j % q j) ∧
     s.lanes t g w (.vmin t w) 9 [] (fun j r => r = min (a j % q j) (b j % q j)) ∧
     s.lanes t g w (.vmax t w) 9 [] (fun j r => r = max (a j % q j) (b j % q j)) ∧
     (w &&& 0xF800 = 0 →
       s.lanes t g w (.vneg t w) 8 [] (fun j r => r < q j ∧ (r + a j) % q j = 0) ∧
       s.lanes t g w (.vmod t w) 8 [] (fun j r => r = a j % q j)) ∧
     (w &&& 0x800 = 0 → s.lanes t g w (.vmuls t w) 8 [] (fun j r => r = a j * ((x.sreg (vSS w)).toNat % 2 ^ 36) % q j))) ∧
  (∀ (s : State) (t : TileId) (g : GroupId) (w : BitVec 26), s.ready t g →
     let x := s.settled t g
     let a := lane (x.vreg (vA w))
     let b := lane (x.vreg (vB w))
     let far := ∃ j, j < 1024 ∧ active x.k (vMask w) j = true ∧ 1023 < (b j).toNat
     (w &&& 0xF87F = 0 → s.lanes t g w (.vmov t w) 2 [] (fun j r => r = (a j).toNat)) ∧
     (w &&& 0x1F087F = 0 → s.lanes t g w (.vbcast t w) 2 [] (fun _ r => r = (x.sreg (vSS w)).toNat % 2 ^ 36)) ∧
     (w &&& 0xFF = 0 → ∃ v : Vec, v.length = 1024 ∧
       s.issues t g (.vsel t w) (fun x => x.fly (s.sees t g).pipe 2 [.v (vD w) v (BitVec.allOnes 1024)]) ∧
       ∀ j, j < 1024 → lane v j = if active x.k (vMask w) j then a j else b j) ∧
     (w &&& 0x7F = 0 → ¬ far → s.lanes t g w (.vperm t w) 2 [] (fun j r => r = (a (b j).toNat).toNat)) ∧
     (w &&& 0x7F = 0 → far → s.issues t g (.vperm t w) (fun x => { x with
       dueHalts := x.dueHalts ++ [{ due := (s.sees t g).pipe + 1, seq := x.seq, reason := .operandRange, bundle := (s.sees t g).bundle, slot := .v }] })))

/-- R278: what COND 0 to 3 ask of two naturals. -/
def Sys2Proof.Machine.condHolds (c : BitVec 2) (x y : Nat) : Bool :=
  match c.toNat with
  | 0 => x == y
  | 1 => !(x == y)
  | 2 => decide (x < y)
  | _ => !decide (x < y)

/-- R61, R279, R283: the instructions that write a mask register. KTAIL of more than 1,024 lanes halts. -/
def Obligations.MaskResults : Prop :=
  ∀ (s : State) (t : TileId) (g : GroupId) (w : BitVec 26), s.ready t g →
    let x := s.settled t g
    let ka := (x.kreg (vKA w)).getLsbD
    let kb := (x.kreg (vKB w)).getLsbD
    let n := (x.sreg (vSS w)).toNat % 2048
    (primesOk x w → s.bits t g w (.vcmp t w) 9 (fun j => condHolds (vCond w) (laneA x w j % primeOf x w j) (laneB x w j % primeOf x w j))) ∧
    (w &&& 0x318C07F = 0 →
      s.bits t g w (.kand t w) 1 (fun j => ka j && kb j) ∧
      s.bits t g w (.kor t w) 1 (fun j => ka j || kb j) ∧
      s.bits t g w (.kxor t w) 1 (fun j => xor (ka j) (kb j))) ∧
    (w &&& 0x318F87F = 0 → s.bits t g w (.knot t w) 1 (fun j => !ka j)) ∧
    (w &&& 0x31F087F = 0 →
      s.bits t g w (.kset t w) 1 (fun j => (x.sreg (vSS w)).getLsbD (j % 64)) ∧
      (n ≤ 1024 → s.bits t g w (.ktail t w) 1 (fun j => decide (j < n))) ∧
      (1024 < n → s.refuses t g (.ktail t w) 1 .operandRange))

/-- R62, R279, R280: the FP32 lane operations and their flags. Between zeros of unlike sign FMIN and FMAX give the free value of log 8.
R62: no FP32 result is subnormal, and the one NaN is 0x7FC00000; that a NaN operand gives it too (log 8), and that the flags rise with the result's write (log 88), are the
model's readings. -/
def Obligations.FpResults : Prop :=
  (∀ (s : State) (t : TileId) (g : GroupId) (w : BitVec 26), s.ready t g → w &&& 0x7F = 0 →
     let x := s.settled t g
     let a := fun j => laneA x w j % 2 ^ 32
     let b := fun j => laneB x w j % 2 ^ 32
     let d := fun j => laneD x w j % 2 ^ 32
     let result := fun (c : Instr) (op : Nat → FpOut) => ∃ fl, flagsOf x w (fun j => mveFp (op j)) fl ∧
       s.lanes t g w c 5 [.mve fl] (fun j r => r = (op j).bits)
     result (.fadd t w) (fun j => fAdd (a j) (b j)) ∧ result (.fsub t w) (fun j => fSub (a j) (b j)) ∧
     result (.fmul t w) (fun j => fMul (a j) (b j)) ∧ result (.fma t w) (fun j => fFma (a j) (b j) (d j)) ∧
     result (.fmin t w) (fun j => fMin (a j) (b j)) ∧ result (.fmax t w) (fun j => fMax (a j) (b j)) ∧
     s.bits t g w (.fcmp t w) 9 (fun j =>
       let u := fp32.decode (a j)
       let v := fp32.decode (b j)
       match (vCond w).toNat with
       | 0 => u.eq v
       | 1 => !u.eq v
       | 2 => u.lt v
       | _ => u.eq v || v.lt u)) ∧
  (∀ x y z : Nat, ∀ r ∈ [fAdd x y, fSub x y, fMul x y, fFma x y z, fMin x y, fMax x y],
     r.bits < 2 ^ 32 ∧ (r.bits / 2 ^ 23 % 256 = 0 → r.bits % 2 ^ 23 = 0) ∧
     (r.bits / 2 ^ 23 % 256 = 255 → r.bits % 2 ^ 31 = 0x7F800000 ∨ r.bits = 0x7FC00000))

/-- R63: conversions. CVTRF rounds the centred residue; CVTFR rounds to the nearest integer, clamps it to the centred range and reduces it.
That its flags rise with the result's write is the model's choice (log 88). -/
def Obligations.ConversionResults : Prop :=
  ∀ (s : State) (t : TileId) (g : GroupId) (w : BitVec 26), s.ready t g → primesOk (s.settled t g) w → w &&& 0xF800 = 0 →
    let x := s.settled t g
    let q := primeOf x w
    let half := fun j => (q j - 1) / 2
    s.lanes t g w (.cvtrf t w) 10 [] (fun j r =>
      let a := laneA x w j % q j
      r = (if a ≤ half j then fp32.round false a 0 else fp32.round true (q j - a) 0).bits) ∧
    ∃ fl, flagsOf x w (fun j => match fp32.decode (laneA x w j % 2 ^ 32) with
        | .nan => mveInvalid
        | .inf _ => mveCvtSat
        | .num neg m e => if nearestInt neg m e = max (-(half j : Int)) (min (half j) (nearestInt neg m e)) then 0 else mveCvtSat) fl ∧
      s.lanes t g w (.cvtfr t w) 10 [.mve fl] (fun j r => match fp32.decode (laneA x w j % 2 ^ 32) with
        | .nan => r = 0
        | .inf neg => (r : Int) = (if neg then -(half j : Int) else half j) % (q j : Int)
        | .num neg m e => (r : Int) = max (-(half j : Int)) (min (half j) (nearestInt neg m e)) % (q j : Int))

/-- R284: the rows that a vector load or store names, group k first. -/
def Sys2Proof.Machine.vectorRow (x : Tile) (w : BitVec 26) (k : Nat) : Nat := (x.areg (vAR w)).toNat + k * (vStride w).toNat

/-- R284, R168: VLD takes the active groups' rows that its window does not pad, and pad rows read as the window's value.
R132, R284: VST writes, in the next cycle, the rows of the groups with an active lane, each with its 128 lanes whole. -/
def Obligations.VectorMemory : Prop :=
  (∀ (s : State) (t : TileId) (g : GroupId) (w : BitVec 26), s.ready t g → w &&& (if vPwen w then 0x7F else 0x307F) = 0 →
     let x := s.settled t g
     let win := x.pads[(vPW w).toNat]
     let padded := fun k => vPwen w && win.pads (vectorRow x w k)
     let rows := ((List.range 8).filter (fun k => groupActive x.k (vMask w) k && !padded k)).map (vectorRow x w)
     (vStride w).getLsbD 0 = true → eightRowGroup ((List.range 8).map (vectorRow x w)) = true → rowsOk s t g rows → noneStarved x rows →
     ∃ v : Vec, v.length = 1024 ∧
       s.issues t g (.vld t w) (fun x => { (x.fly (s.sees t g).pipe 8 [.v (vD w) v (writeMask x (vMask w) (vZ w))]).took (s.sees t g).pipe rows [] with
         reads := x.reads ++ rows.map (rowRead s t g .v .vector) }) ∧
       ∀ j, j < 1024 → lane v j = if active x.k (vMask w) j then
           (if padded (j / 128) then (if win.scalar then win.value else 0) else lane128 (x.rowAt (vectorRow x w (j / 128))).seen (j % 128)) else 0) ∧
  (∀ (s : State) (t : TileId) (g : GroupId) (w : BitVec 26), s.ready t g → w &&& 0x38FF = 0 →
     let x := s.settled t g
     let groups := (List.range 8).filter (groupActive x.k (vMask w))
     (vStride w).getLsbD 0 = true → eightRowGroup ((List.range 8).map (vectorRow x w)) = true → rowsOk s t g (groups.map (vectorRow x w)) →
     noneInRing x (groups.map (vectorRow x w)) →
     ∃ data : Nat → SectorBits,
       s.issues t g (.vst t w) (fun x =>
         (x.fly (s.sees t g).pipe 2 (groups.map (fun k => .row (vectorRow x w k) { data := data k }))).took (s.sees t g).pipe [] (groups.map (vectorRow x w))) ∧
       ∀ k, k < 8 → ∀ i, i < 128 → lane128 (data k) i = lane (x.vreg (vD w)) (128 * k + i))

/-- R65: lane i begins a segment. -/
def Sys2Proof.Machine.segmentStart (x : Tile) (w : BitVec 26) (i : Nat) : Bool :=
  i == 0 || (vSegen w && (x.kreg (vSegk w)).getLsbD i) || (vGS w && i % 128 == 0)

/-- R64, R65: the active lanes of lane j's segment below j, and j itself unless EXCL is set. -/
def Sys2Proof.Machine.scanned (x : Tile) (w : BitVec 26) (j : Nat) : List Nat :=
  (List.range (if vExcl w then j else j + 1)).filter (fun i =>
    active x.k (vMask w) i && (List.range (j + 1)).all (fun k => decide (k ≤ i) || !segmentStart x w k))

/-- R64: node i of level k of the scan network: pairs whose lower node lies in the same segment combine, an invalid node passes the other. -/
def Sys2Proof.Machine.scanNode (x : Tile) (w : BitVec 26) (op : Nat → Nat → FpOut) : Nat → Nat → Option (Nat × Word)
  | 0, i =>
    let r := fp32.encode (fp32.decode (laneA x w i % 2 ^ 32))
    if active x.k (vMask w) i then some (r.bits, mveFp r) else none
  | k + 1, i =>
    let j := i / 2 ^ k * 2 ^ k - 1
    let lower := if i / 2 ^ k % 2 = 1 ∧ (List.range (i + 1)).all (fun n => decide (n ≤ j) || !segmentStart x w n) then scanNode x w op k j else none
    match lower, scanNode x w op k i with
    | none, b => b
    | some a, none => some a
    | some (a, f), some (b, h) => some ((op a b).bits, f ||| h ||| mveFp (op a b))

/-- R64, R65, R68: modular scans. An active lane holds the sum, minimum or maximum of the canonical lanes scanned; of none, the identity.
R64, R65, R68: FP32 scans follow the network of R64 in its order. That a lane which enters the network alone is read as R62 reads an operand, a subnormal as
zero and a NaN as the one NaN with its flag, is the model's reading (log 8); that the flags rise with the result's write is its choice (log 88). -/
def Obligations.ScanResults : Prop :=
  (∀ (s : State) (t : TileId) (g : GroupId) (w : BitVec 26), s.ready t g → primesOk (s.settled t g) w → (vSegen w = false → w &&& 0x3800 = 0) →
     let x := s.settled t g
     let q := primeOf x w
     let a := fun j i => laneA x w i % q j
     s.lanes t g w (.vscanMsum t w) 16 [.mve 0] (fun j r => r = ((scanned x w j).map (a j)).sum % q j) ∧
     s.lanes t g w (.vscanMmin t w) 16 [.mve 0] (fun j r => r = (scanned x w j).foldl (fun m i => min m (a j i)) (q j - 1)) ∧
     s.lanes t g w (.vscanMmax t w) 16 [.mve 0] (fun j r => r = (scanned x w j).foldl (fun m i => max m (a j i)) 0)) ∧
  (∀ (s : State) (t : TileId) (g : GroupId) (w : BitVec 26), s.ready t g → w &&& 0x3F = 0 → (vSegen w = false → w &&& 0x3800 = 0) →
     let x := s.settled t g
     let result := fun (c : Instr) (latency : Nat) (op : Nat → Nat → FpOut) (identity : Nat) => ∃ fl,
       (∀ i, fl.getLsbD i = true ↔ ∃ j, j < 1024 ∧ ∃ n, scanNode x w op 10 j = some n ∧ n.2.getLsbD i = true) ∧
       s.lanes t g w c latency [.mve fl] (fun j r =>
         if vExcl w then r = match (scanned x w j).getLast? with | some i => ((scanNode x w op 10 i).map (·.1)).getD 0 | none => identity
         else r = ((scanNode x w op 10 j).map (·.1)).getD 0)
     result (.vscanFsum t w) 26 fAdd 0 ∧ result (.vscanFmin t w) 16 fMin 0x7F7FFFFF ∧ result (.vscanFmax t w) 16 fMax 0xFF7FFFFF)

/-- R66: a tree's result in flight: lane n of VD is `value n` for the n-th tree and 0 beyond, S[SD] takes lane 0 under SCP, and EMPTY flags rise where a
tree has no active lane. -/
def Sys2Proof.Machine.State.treed (s : State) (t : TileId) (g : GroupId) (w : BitVec 26) (c : Instr) (latency : Nat) (empty : Nat → Bool) (flags : Word) (value : Nat → Nat) : Prop :=
  let trees := if vGS w then 8 else 1
  let fl := (List.range trees).foldl (fun fl n => fl ||| if empty n then mveEmpty ||| (if vGS w then mveEmptyGroup n else 0) else 0) flags
  ∃ v : Vec, v.length = 1024 ∧ (∀ j, j < 1024 → (lane v j).toNat = if j < trees then value j else 0) ∧
    s.issues t g c (fun x => x.fly (s.sees t g).pipe latency
      ([.v (vD w) v (BitVec.allOnes 1024), .mve fl] ++ if vScp w then [.s (vSD w) ((lane v 0).setWidth 64)] else []))

/-- R66: the active lanes of tree n. -/
def Sys2Proof.Machine.treeLanes (x : Tile) (w : BitVec 26) (n : Nat) : List Nat :=
  (List.range 1024).filter (fun j => active x.k (vMask w) j && (!vGS w || j / 128 == n))

/-- R66: node n of level k of an FP32 tree over lanes from `first`. -/
def Sys2Proof.Machine.treeNode (x : Tile) (w : BitVec 26) (op : Nat → Nat → FpOut) (first : Nat) : Nat → Nat → Option (Nat × Word)
  | 0, n =>
    let r := fp32.encode (fp32.decode (laneA x w (first + n) % 2 ^ 32))
    if active x.k (vMask w) (first + n) then some (r.bits, mveFp r) else none
  | k + 1, n => match treeNode x w op first k (2 * n), treeNode x w op first k (2 * n + 1) with
    | none, b => b
    | some a, none => some a
    | some (a, f), some (b, h) => some ((op a b).bits, f ||| h ||| mveFp (op a b))

/-- R66 to R68: modular reduction trees.
R66 to R68: FP32 reduction trees pair neighbouring nodes level by level. That a lane which enters a tree alone is read as R62 reads an operand, a subnormal
as zero and a NaN as the one NaN with its flag, is the model's reading (log 8); that the flags rise with the result's write is its choice (log 88). -/
def Obligations.TreeResults : Prop :=
  (∀ (s : State) (t : TileId) (g : GroupId) (w : BitVec 26), s.ready t g → selOk (s.settled t g) (vMctx w) (vSE w) (vGS w) (vMask w) = true →
     w &&& 0x80 = 0 → (vScp w = false → w &&& 0x7800 = 0) →
     let x := s.settled t g
     let q := fun n => selPrime x (vMctx w) (vSE w) (vGS w) n
     (∀ n, n < 8 → 0 < q n) →
     let a := fun n => (treeLanes x w n).map (fun j => laneA x w j % q n)
     let empty := fun n => (treeLanes x w n).isEmpty
     s.treed t g w (.vtreeMsum t w) 14 empty 0 (fun n => (a n).sum % q n) ∧
     s.treed t g w (.vtreeMprod t w) 44 empty 0 (fun n => if empty n then 1 else (a n).prod % q n) ∧
     s.treed t g w (.vtreeMmin t w) 14 empty 0 (fun n => (a n).foldl min (q n - 1)) ∧
     s.treed t g w (.vtreeMmax t w) 14 empty 0 (fun n => (a n).foldl max 0)) ∧
  (∀ (s : State) (t : TileId) (g : GroupId) (w : BitVec 26), s.ready t g → w &&& 0xBF = 0 → (vScp w = false → w &&& 0x7800 = 0) →
     let x := s.settled t g
     let root := fun op n => if vGS w then treeNode x w op (128 * n) 7 0 else treeNode x w op 0 10 0
     let result := fun (c : Instr) (latency : Nat) (op : Nat → Nat → FpOut) (identity : Nat) =>
       let flags := (List.range (if vGS w then 8 else 1)).foldl (fun fl n => fl ||| ((root op n).map (·.2)).getD 0) 0
       s.treed t g w c latency (fun n => (root op n).isNone) flags (fun n => ((root op n).map (·.1)).getD identity)
     result (.vtreeFsum t w) 22 fAdd 0 ∧ result (.vtreeFmin t w) 14 fMin 0x7F7FFFFF ∧ result (.vtreeFmax t w) 14 fMax 0xFF7FFFFF)

/- The S slot (R286 to R296). -/

/-- R289: a source of either file as 64 bits, and a result to either file. -/
def Sys2Proof.Machine.scalarSource (x : Tile) (address : Bool) (n : BitVec 4) : BitVec 64 := if address then (x.areg n).zeroExtend 64 else x.sreg n
def Sys2Proof.Machine.scalarDest (address : Bool) (n : BitVec 4) (r : BitVec 64) : Dest := if address then .a n (r.truncate 32) else .s n r

/-- R25, R290: what CCLD's constant of each KIND is. -/
def Sys2Proof.Machine.isConstant (m : ModTable) (kind : Nat) (e : ModEntry) (other : Option ModEntry) (v : Nat) : Prop :=
  match kind with
  | 0 => v = e.q
  | 1 => 2 ^ (2 * v - 1) ≤ e.q ^ 512 ∧ e.q ^ 512 < 2 ^ (2 * v + 1)
  | 2 => v < e.q ∧ v * 2 ^ m.logN.toNat % e.q = 1
  | 3 => v = e.psi
  | 4 => match other with
    | some o => v < e.q ∧ if Nat.Coprime o.q e.q then v * o.q % e.q = 1 else v = 0
    | none => False
  | 5 => v = (e.q - 1) / 2
  | _ => v = 2 ^ 72 % e.q

/-- R289: scalar arithmetic. No operand value halts it.
R290: CCLD on a populated entry whose q is odd and above 1. -/
def Obligations.ScalarAndConstantResults : Prop :=
  (∀ (s : State) (t : TileId) (g : GroupId) (w : BitVec 26), s.ready t g →
     let x := s.settled t g
     let result := fun (c : Instr) (r : BitVec 64) => s.issues t g c (fun x => x.fly (s.sees t g).pipe 1 [scalarDest (w.getLsbD 25) (w.extractLsb' 21 4) r])
     let a := scalarSource x (w.getLsbD 20) (w.extractLsb' 16 4)
     let b := scalarSource x (w.getLsbD 15) (w.extractLsb' 11 4)
     (w &&& 0x100000 = 0 →
       result (.sli t w) ((w.extractLsb' 0 20).signExtend 64) ∧
       result (.slis t w) (scalarSource x (w.getLsbD 25) (w.extractLsb' 21 4) <<< 20 ||| (w.extractLsb' 0 20).zeroExtend 64)) ∧
     result (.saddi t w) (a + (w.extractLsb' 0 16).signExtend 64) ∧
     (w &&& 0xFF = 0 → result (.salu t w) (match (w.extractLsb' 8 3).toNat with
       | 0 => a + b
       | 1 => a - b
       | 2 => a &&& b
       | 3 => a ||| b
       | 4 => a ^^^ b
       | 5 => a <<< (b.toNat % 64)
       | 6 => a >>> (b.toNat % 64)
       | _ => a * b))) ∧
  (∀ (s : State) (t : TileId) (g : GroupId) (w : BitVec 26) (m : ModTable) (e : ModEntry), s.ready t g → w &&& 0xFFF = 0 →
     let x := s.settled t g
     let kind := (w.extractLsb' 12 4).toNat
     let j := (x.sreg (w.extractLsb' 16 4)).toNat % 128
     let i := (x.sreg (w.extractLsb' 16 4)).toNat / 256 % 128
     kind ≤ 6 → x.ctx (w.extractLsb' 20 2) = some m → m.entry? j = some e → e.q % 2 = 1 → 1 < e.q →
     (kind = 4 → j < i ∧ i < m.limbs.length ∧ i < 64) →
     ∃ v : Nat, s.issues t g (.ccld t w) (fun x => x.fly (s.sees t g).pipe 4 [.s (w.extractLsb' 22 4) (BitVec.ofNat 64 v)]) ∧
       v < 2 ^ 36 ∧ isConstant m kind e (m.entry? i) v)

/-- R268: LOOP arms its level, inner to every active one; with a count or a body of 0, or out of its order, it halts.
R138, R238, R240: WAIT takes K arrivals at once or pends, and halts where K is 0; the end-of-stage marker ends the member's stage at once when nothing
of it is left, or pends. What is left does not count a pending expansion, which is the model's choice (log 36); that a met WAIT covers the writes that
its arrivals name is how the model tells what a queue may have read (log 84).
R168, R296: PWLD loads a window, FLAGCLR clears W1C fields; a window that is malformed, or a field that is none, halts. -/
def Obligations.SequencerResults : Prop :=
  (∀ (s : State) (t : TileId) (g : GroupId) (w : BitVec 30), s.ready t g →
     let x := s.settled t g
     let n := (w.extractLsb' 28 2).toNat
     let stop := (s.sees t g).bundle.toNat + (w.extractLsb' 16 12).toNat
     let fits := w.extractLsb' 16 12 ≠ 0 ∧ w.extractLsb' 0 16 ≠ 0 ∧ (∀ k, k < 4 → (x.loops.toList.getD k {}).active = decide (k < n)) ∧
       (0 < n → stop ≤ (x.loops.toList.getD (n - 1) {}).stop)
     (fits → s.issues t g (.loop t w) (fun x => { x with
       l := x.l.setIfInBounds n (w.extractLsb' 0 16)
       loops := x.loops.setIfInBounds n { active := true, start := (s.sees t g).bundle.toNat + 1, stop := stop } })) ∧
     (¬ fits → s.refuses t g (.loop t w) 0 .operandRange)) ∧
  (∀ (s : State) (t : TileId) (g : GroupId) (w : BitVec 26), s.ready t g →
     let x := s.settled t g
     let c : BitVec 6 := w.extractLsb' 20 6
     let k : BitVec 16 := w.extractLsb' 4 16
     let left := x.flights ≠ [] ∨ x.reads ≠ [] ∨ x.dueHalts ≠ [] ∨ x.nma.tails ≠ [] ∨ x.nma.closes ≠ [] ∨
       x.nma.outbox ≠ [] ∨ (∃ q, q ∈ x.dma.queues.toList ∧ q ≠ []) ∨ ∃ r, r ∈ x.rings.toList ∧ r.armed = true ∧ r.done < r.pages
     let pends := fun (kind : PendKind) (x : Tile) => { x with pend := [{ kind := kind, wall := (s.sees t g).wall, bundle := (s.sees t g).bundle }] }
     (w &&& 0xF = 0 → k ≠ 0 → k ≤ x.arrival[c.toNat] →
       exec (.wait t w) s = .next { s with dev :=
         (s.dev.setTile t { x with arrival := x.arrival.set c.toNat (x.arrival[c.toNat] - k) }).cover t c k.toNat }) ∧
     (w &&& 0xF = 0 → x.arrival[c.toNat] < k → s.issues t g (.wait t w) (pends (.wait c k))) ∧
     (w &&& 0xF = 0 → k = 0 → s.refuses t g (.wait t w) 0 .operandRange) ∧
     (w = 0 → ¬ left → s.issues t g (.endst t w) (fun x => { x with done := true })) ∧
     (w = 0 → left → s.issues t g (.endst t w) (pends .marker))) ∧
  (∀ (s : State) (t : TileId) (g : GroupId) (w : BitVec 26), s.ready t g →
     let x := s.settled t g
     let a := (x.sreg (w.extractLsb' 19 4)).toNat
     let b := (x.sreg (w.extractLsb' 15 4)).toNat
     let lineRows := a / 2 ^ 15 % 2 ^ 11
     let stride := a / 2 ^ 26 % 2 ^ 15
     let scalar := w.getLsbD 23
     let bits : Word := (w.extractLsb' 8 16).zeroExtend 32
     (w &&& (if scalar then 0x7FF else 0x7FFF) = 0 → lineRows = 0 ∨ 1024 < lineRows ∨ stride < lineRows → s.refuses t g (.pwld t w) 0 .operandRange) ∧
     (w &&& 0xFF = 0 → w.extractLsb' 24 2 = 3 → s.refuses t g (.flagclr t w) 0 .reservedField) ∧
     (w &&& 0xFF = 0 → w.extractLsb' 24 2 ≠ 3 → bits &&& ~~~(flagFields (w.extractLsb' 24 2)) ≠ 0 → s.refuses t g (.flagclr t w) 0 .operandRange) ∧
     (w &&& (if scalar then 0x7FF else 0x7FFF) = 0 → 1 ≤ lineRows → lineRows ≤ 1024 → lineRows ≤ stride →
       s.issues t g (.pwld t w) (fun x => x.fly (s.sees t g).pipe 1 [.pad (w.extractLsb' 24 2)
         { base := BitVec.ofNat 15 a, lineRows := BitVec.ofNat 11 lineRows, lineStride := BitVec.ofNat 15 stride, lines := BitVec.ofNat 16 (a / 2 ^ 41)
           lo := BitVec.ofNat 16 b, hi := BitVec.ofNat 16 (b / 2 ^ 16), scalar := scalar
           value := if scalar then BitVec.ofNat 36 (x.sreg (w.extractLsb' 11 4)).toNat else 0 }])) ∧
     (w &&& 0xFF = 0 → w.extractLsb' 24 2 ≠ 3 → bits &&& ~~~(flagFields (w.extractLsb' 24 2)) = 0 →
       s.issues t g (.flagclr t w) (fun x => x.fly (s.sees t g).pipe 1 [.clear (w.extractLsb' 24 2) bits])))

/-- The state with the hazard detector on. -/
def Sys2Proof.Machine.State.detecting (s : State) : State := { s with dev := { s.dev with run := { s.dev.run with hazard := true } } }

/-- R308: instructions of every slot that write or read in each way a register may be named, with the slot, the bits that have to be 0 and the registers they
name as sources: third sources, the data of VST, masks, scalar selectors and the headers of HST, KARM and EXPAND among them. -/
def Sys2Proof.Machine.namesSources (t : TileId) (w : BitVec 26) : List (Instr × BitVec 2 × BitVec 26 × List RegName) :=
  let v := fun lo => RegName.v (w.extractLsb' lo 5)
  let a := fun lo => RegName.a (w.extractLsb' lo 4)
  let sc := fun lo => RegName.s (w.extractLsb' lo 4)
  let h := fun lo => RegName.h (w.extractLsb' lo 3)
  let either := fun bit lo => if w.getLsbD bit then a lo else sc lo
  let mask := if w.extractLsb' 8 3 = 0 then [] else [RegName.k (w.extractLsb' 8 3)]
  [(.vadd t w, 1, 0, [v 16, v 11, sc 0] ++ mask), (.vmad t w, 1, 0, [v 16, v 11, v 21, sc 0] ++ mask), (.vmsb t w, 1, 0, [v 16, v 11, v 21, sc 0] ++ mask),
   (.fadd t w, 1, 0x7F, [v 16, v 11] ++ mask), (.fma t w, 1, 0x7F, [v 16, v 11, v 21] ++ mask), (.vst t w, 1, 0x38FF, [a 17, v 21] ++ mask),
   (.salu t w, 0, 0xFF, [either 20 16, either 15 11]), (.hst t w, 0, 0xF, [h 23, a 19]), (.hld t w, 0, 0xF, [a 19]), (.karm t w, 0, 0x7FFF, [h 15]),
   (.expand t w, 0, 0x3F, [h 23, a 16, sc 6]), (.txp t w, 2, 0x3FFFF, [a 22, a 18]), (.mspill t w, 3, 0x1FFFFF, [a 21]),
   (.dsm t w, 3, 3, [a 21, a 17, a 13, sc 9, sc 3])]

/-- R273: NOP issues and leaves nothing but what was due.
R151, R152, R160, R240: DMAISS puts a copy of its descriptor, with the offsets of this cycle, at the end of its queue, or pends at a full one.
R308: with the hazard detector on, an instruction that names as a source a register which a write in flight of an earlier bundle has still to reach halts with
HAZARD, and nothing of it takes effect; any other goes as it does without. R164: so halts DMAISS where another descriptor of the stage writes a place of its
destination extent, which is recorded. -/
def Obligations.NopAndDescriptorIssue : Prop :=
  (∀ (s : State) (t : TileId) (g : GroupId) (slot : BitVec 2), s.ready t g → s.issues t g (.nop t slot) (fun x => x)) ∧
  (∀ (s : State) (t : TileId) (g : GroupId) (w : BitVec 26), s.ready t g → w &&& 0x3F = 0 →
     let x := s.settled t g
     let q : BitVec 2 := w.extractLsb' 24 2
     let index : BitVec 10 := w.extractLsb' 14 10
     let raw := Store.read (fun _ => 0) x.dma.descriptors index.toNat
     let src := x.areg (w.extractLsb' 10 4)
     let dst := x.areg (w.extractLsb' 6 4)
     let queue := x.dma.queues[q.toNat]
     descCodesOk raw = true → descCountsOk raw = true → offsetFits (dSrc raw) src = true → offsetFits (dDst raw) dst = true → descScatterOk raw = true →
     (queue.length < 32 → s.issues t g (.dmaiss t w) (fun x => { x with
       dma := { x.dma with queues := x.dma.queues.set q.toNat (queue ++ [{ index := index, bits := withOffsets raw src dst }]) } })) ∧
     (32 ≤ queue.length → s.issues t g (.dmaiss t w) (fun x => { x with
       dma := { x.dma with fullHeld := true }, raised := { x.raised with full := true }
       pend := [{ kind := .dma q index (withOffsets raw src dst), wall := (s.sees t g).wall, bundle := (s.sees t g).bundle }] }))) ∧
  (∀ (s : State) (t : TileId) (g : GroupId) (w : BitVec 26), s.ready t g →
     let late := fun (r : RegName) => ∃ f ∈ (s.settled t g).flights, f.issued < (s.sees t g).pipe ∧ ∃ d ∈ f.dests, d.reg = some r
     ∀ p ∈ namesSources t w, w &&& p.2.2.1 = 0 →
       ((∃ r ∈ p.2.2.2, late r) → s.detecting.refuses t g p.1 p.2.1 .hazard) ∧
       ((∀ r ∈ p.2.2.2, ¬ late r) → ∀ u : State, exec p.1 s = .next u → exec p.1 s.detecting = .next u.detecting)) ∧
  ∀ (s : State) (t : TileId) (g : GroupId) (w : BitVec 26), s.ready t g → w &&& 0x3F = 0 →
    let x := s.settled t g
    let q : BitVec 2 := w.extractLsb' 24 2
    let index : BitVec 10 := w.extractLsb' 14 10
    let raw := Store.read (fun _ => 0) x.dma.descriptors index.toNat
    let src := x.areg (w.extractLsb' 10 4)
    let dst := x.areg (w.extractLsb' 6 4)
    let queue := x.dma.queues[q.toNat]
    let job : DmaJob := { index := index, bits := withOffsets raw src dst }
    let extent := (s.dev.setTile t x).extent t job
    descCodesOk raw = true → descCountsOk raw = true → offsetFits (dSrc raw) src = true → offsetFits (dDst raw) dst = true → descScatterOk raw = true →
    (∀ f ∈ x.flights, ∀ d ∈ f.dests, d.reg ≠ some (.a (w.extractLsb' 10 4)) ∧ d.reg ≠ some (.a (w.extractLsb' 6 4))) → queue.length < 32 →
    ∃ d : Dev, s.detecting.answers (.dmaiss t w) d ∧ d.run.extents = s.dev.run.extents ++ extent.map (fun p => (g, p)) ∧
      (d.tile t).dma.queues = x.dma.queues.set q.toNat (queue ++ [job]) ∧ (∀ u, u ≠ t → d.tile u = s.dev.tile u) ∧ d.mem = s.dev.mem ∧
      ((∀ p ∈ extent, (g, p) ∉ s.dev.run.extents) → (d.tile t).halted = false ∧ d.run = { s.detecting.dev.run with extents := d.run.extents }) ∧
      ((∃ p ∈ extent, (g, p) ∈ s.dev.run.extents) → (d.tile t).halted = true ∧ (d.tile t).haltReason = .hazard ∧ (d.tile t).haltAddr = (s.sees t g).bundle)

/-- R130, R291: HLD takes a well-formed header from its row and HST puts one in a row, whose address becomes the home address. -/
def Obligations.HeaderMoves : Prop :=
  ∀ (s : State) (t : TileId) (g : GroupId) (w : BitVec 26), s.ready t g → w &&& 0xF = 0 →
    let x := s.settled t g
    let n : BitVec 3 := w.extractLsb' 23 3
    let row := (x.areg (w.extractLsb' 19 4)).toNat + (w.extractLsb' 4 15).toNat
    rowsOk s t g [row] →
    (∀ h, parseHeader ((x.rowAt row).seen.toNat % 2 ^ 512) = some h → x.headerOk h = true → noneStarved x [row] →
      s.issues t g (.hld t w) (fun x => { (x.fly (s.sees t g).pipe 7 [.hld n h (BitVec.ofNat 15 row)]).took (s.sees t g).pipe [row] [] with
        reads := x.reads ++ [rowRead s t g .s (.header false) row], named := x.named ||| BitVec.ofNat 8 (2 ^ n.toNat) })) ∧
    (noneInRing x [row] → s.issues t g (.hst t w) (fun x =>
      (x.fly (s.sees t g).pipe 2 [.row row { data := BitVec.ofNat 4608 (x.hreg n).hdr.bits }, .home n (BitVec.ofNat 15 row)]).took (s.sees t g).pipe [] [row]))

/-- R292: the instruction of a HOP class. -/
def Sys2Proof.Machine.hopInstr (c : HopClass) (t : TileId) (w : BitVec 22) : Instr :=
  match c with
  | .addsub => .hopAddsub t w
  | .mulcc => .hopMulcc t w
  | .mulpt => .hopMulpt t w
  | .relin => .hopRelin t w
  | .rotate => .hopRotate t w
  | .fntt => .hopFntt t w
  | .intt => .hopIntt t w
  | .transpose => .hopTranspose t w
  | .rescale => .hopRescale t w
  | .mulrescale => .hopMulrescale t w
  | .modswitch => .hopModswitch t w
  | .drop => .hopDrop t w
  | .modraise => .hopModraise t w
  | .ksext => .hopKsext t w
  | .invalidate => .hopInvalidate t w

/-- R39, R43: the fields in which class c's result differs from its first source a. `log` is LOG2Q of the limb a level operation drops, k the level
drop, sb and pb the second operand's scale and its POLYS, 0 for none. -/
def Sys2Proof.Machine.hopRules (c : HopClass) (log k sb pb : Nat) (a h : Header) : Prop :=
  h.level.toNat = (match c with
    | .rescale | .mulrescale | .modswitch => a.level.toNat - 1
    | .drop => a.level.toNat - k
    | .modraise => a.maxLevel.toNat
    | _ => a.level.toNat) ∧
  h.domain = (match c with | .fntt => true | .intt => false | _ => a.domain) ∧
  h.layout = (match c with | .transpose => !a.layout | _ => a.layout) ∧
  h.polys.toNat = (match c with
    | .addsub => max a.polys.toNat pb
    | .mulcc => 3
    | .mulrescale => if pb = 2 then 3 else a.polys.toNat
    | .relin => 2
    | _ => a.polys.toNat) ∧
  h.scale.toNat = if a.scheme = 1 then (match c with
    | .mulcc | .mulpt => a.scale.toNat + sb
    | .rescale => a.scale.toNat - log
    | .mulrescale => a.scale.toNat + sb - log
    | _ => a.scale.toNat) else 0

/-- R293: HOP INVALIDATE of a well-formed header.
R36, R39, R43, R44, R46, R293: HOP of every other class, when its checks hold. -/
def Obligations.HopResults : Prop :=
  (∀ (s : State) (t : TileId) (g : GroupId) (w : BitVec 22), s.ready t g → w &&& 0xFFFF = 0 →
     let x := s.settled t g
     let a := (x.hreg (hopHA w)).hdr
     a.wellFormed = true →
     s.issues t g (.hopInvalidate t w) (fun x => { x.fly (s.sees t g).pipe 4 [.hop (hopHD w) { a with valid := false, generation := a.generation + 1 } (some {})] with
       named := x.named ||| BitVec.ofNat 8 (2 ^ (hopHD w).toNat) })) ∧
  ∀ (s : State) (t : TileId) (g : GroupId) (w : BitVec 22) (c : HopClass) (m : ModTable), s.ready t g → c ≠ .invalidate →
    let x := s.settled t g
    let a := (x.hreg (hopHA w)).hdr
    let b := if hopBin w then some (x.hreg (hopHB w)).hdr else none
    let sx := (x.sreg (hopSX w)).toNat
    w &&& hopUnused c w = 0 → hopBinOk c w = true → (c = .drop → (hopImm w).toNat % 64 ≠ 0) →
    hopChecks (s.sees t g) x c (hopImm w) sx a b = .ok m →
    ∃ h tag, s.issues t g (hopInstr c t w) (fun x => { x.fly (s.sees t g).pipe 4 [.hop (hopHD w) h (some tag)] with
        named := x.named ||| BitVec.ofNat 8 (2 ^ (hopHD w).toNat) }) ∧
      h.generation = a.generation + 1 ∧ h.valid = true ∧ h.poison = (a.poison || (b.map (·.poison)).getD false) ∧
      (h.magic, h.scheme, h.logN, h.maxLevel, h.keyset, h.slots, h.limbBase, h.seeded, h.seed) =
        (a.magic, a.scheme, a.logN, a.maxLevel, a.keyset, a.slots, a.limbBase, a.seeded, a.seed) ∧
      hopRules c (droppedLog m a) ((hopImm w).toNat % 64) ((b.map (·.scale.toNat)).getD (sx % 2 ^ 16)) ((b.map (·.polys.toNat)).getD 0) a h ∧
      (c ≠ .ksext → tag = {}) ∧
      (c = .ksext → tag.kind.toNat = (hopImm w).toNat / 16 % 4 ∧ tag.galois.toNat = sx % 2 ^ 18 ∧ tag.digit.toNat = (hopImm w).toNat % 16)

/-- R39, R40, R42, R269: where the checks of R42 before it hold, the level precondition of a level operation halts its tile with LEVEL_EXHAUSTED, and
nothing of the instruction takes effect: RESCALE, MULRESCALE and MODSWITCH at level 0, DROP by more levels than the header has left. That MULRESCALE
takes the NTT domain is the model's reading (log 20).
R34, R42, R269: a source that is not well formed halts HOP INVALIDATE with HEADER_INVALID. -/
def Obligations.HeaderRefusals : Prop :=
  (∀ (s : State) (t : TileId) (g : GroupId) (w : BitVec 22) (c : HopClass) (m : ModTable), s.ready t g →
     let x := s.settled t g
     let a := (x.hreg (hopHA w)).hdr
     let b := (x.hreg (hopHB w)).hdr
     let k := (hopImm w).toNat % 64
     let passes := fun (h : Header) => h.wellFormed = true ∧ h.valid = true ∧ h.seeded = false ∧ ((s.sees t g).poisonHalt = true → h.poison = false) ∧
       x.contextOf h.keyset = some m ∧ h.fitsContext m = true ∧ h.logN = m.logN ∧ h.scheme = m.scheme
     w &&& hopUnused c w = 0 → hopBin w = decide (c = .mulrescale) → passes a → a.limbBase.toNat < 64 →
     (c = .mulrescale → passes b ∧ a.keyset = b.keyset ∧
       (a.scheme, a.logN, a.limbBase, a.level, a.domain, a.layout) = (b.scheme, b.logN, b.limbBase, b.level, b.domain, b.layout) ∧
       a.domain = true ∧ (a.polys = 2 ∧ b.polys = 2 ∨ b.polys = 1)) →
     (c = .rescale ∨ c = .mulrescale) ∧ a.scheme = 1 ∧ a.level = 0 ∨ c = .modswitch ∧ a.scheme ≠ 1 ∧ a.level = 0 ∨ c = .drop ∧ a.level.toNat < k →
     s.refuses t g (hopInstr c t w) 0 .levelExhausted) ∧
  ∀ (s : State) (t : TileId) (g : GroupId) (w : BitVec 22), s.ready t g → w &&& 0xFFFF = 0 →
    ((s.settled t g).hreg (hopHA w)).hdr.wellFormed = false → s.refuses t g (.hopInvalidate t w) 0 .headerInvalid

/-- R183, R185, R295: KARM latches its stream into an unarmed ring with empty slots.
R188, R178, R295: KREL releases a FULL head slot at the end of its cycle; EXPAND sends its request and names its destination. That the destination keeps
its tag (log 37), and that KARM takes a header of either SEEDED (log 73), are the model's readings. -/
def Obligations.RingResults : Prop :=
  (∀ (s : State) (t : TileId) (g : GroupId) (w : BitVec 26), s.ready t g → w &&& 0x7FFF = 0 →
     let x := s.settled t g
     let n : BitVec 2 := w.extractLsb' 24 2
     let d := Store.read (fun _ => 0) x.streams (w.extractLsb' 18 6).toNat
     let h := x.hreg (w.extractLsb' 15 3)
     let rows := stSlots d * (8 + 2 * keyS h.hdr.logN.toNat)
     d ≠ 0 → x.rings[n.toNat].armed = false → x.headerOk h.hdr = true → h.hdr.valid = true →
     quarterOf (stBase d) = quarterOf (stBase d + rows - 1) → (rowsFrom (stBase d) rows).all x.powered = true →
     ∃ r : Ring, s.issues t g (.karm t w) (fun x => { x with rings := x.rings.set n.toNat r }) ∧
       r.armed = true ∧ r.base = stBase d ∧ r.slots = List.replicate (stSlots d) .empty ∧ r.counter = stCounter d ∧
       r.first = stFirstDeadline d ∧ r.period = stPeriod d ∧ r.armCycle = (s.sees t g).sched ∧ r.keyset = h.hdr.keyset ∧ r.level = h.hdr.level ∧
       r.tag = h.tag ∧ r.fill = 0 ∧ r.done = 0 ∧ r.release = 0 ∧ r.leftover = x.rings[n.toNat].leftover) ∧
  (∀ (s : State) (t : TileId) (g : GroupId) (w : BitVec 26), s.ready t g →
     let x := s.settled t g
     let n : BitVec 2 := w.extractLsb' 24 2
     let r := x.rings[n.toNat]
     let h := (x.hreg (w.extractLsb' 23 3)).hdr
     let hd : BitVec 3 := w.extractLsb' 20 3
     let first := (x.areg (w.extractLsb' 16 4)).toNat
     (w &&& 0xFFFFFF = 0 → r.armed = true → r.slots.getD (r.release % r.slots.length) .empty = .full →
       s.issues t g (.krel t w) (fun x => x.fly (s.sees t g).pipe 1 [.release n])) ∧
     ∀ m, w &&& 0x3F = 0 → h.sourceOk true = true → ((s.sees t g).poisonHalt && h.poison) = false → x.contextOf h.keyset = some m →
       h.fitsContext m = true → h.logN = m.logN → h.scheme = m.scheme → (expandRows h first).all x.powered = true →
       ∃ e : Expansion, e.hdr = h ∧ e.row = first ∧ e.counter = w.extractLsb' 10 6 ∧ e.started = none ∧
         e.deadline = (s.sees t g).sched + (x.sreg (w.extractLsb' 6 4)).toNat % 2 ^ 24 ∧
         e.entries.map (·.1) = (List.range (h.level.toNat + 1)).map (h.limbBase.toNat + ·) ∧
         s.issues t g (.expand t w) (fun x => { x.fly (s.sees t g).pipe 4
             [.hop hd { h with seeded := false, seed := 0, generation := h.generation + 1, valid := true } none] with
           named := x.named ||| BitVec.ofNat 8 (2 ^ hd.toNat), expands := x.expands ++ [e] }))

/-- R60: the fixed sequence of folds and subtractions is reduction modulo the prime. -/
def Obligations.ReduceSequence : Prop :=
  ∀ q w : Nat, 2 ^ 29 < q → q < 2 ^ 36 → q % 2 ^ 18 = 1 → w < 2 ^ 73 → reduce60 q w = w % q

/- The T slot and the Transform Unit (R74 to R93, R297, R298). -/

/-- R75, R76, R133: what check 2 to 5 of R76 and the checks after them ask, of regions of n rows and of an extra table or index of k rows. -/
abbrev Sys2Proof.Machine.regionsOk (s : State) (t : TileId) (g : GroupId) (src dst n : Nat) (extra : Option (Nat × Nat)) : Prop :=
  let x := s.settled t g
  rowsOk s t g (rowsFrom src n ++ rowsFrom dst n ++ match extra with | some (r, k) => rowsFrom r k | none => []) ∧
  regionOk src n = true ∧ regionOk dst n = true ∧ (src = dst ∨ src + n ≤ dst ∨ dst + n ≤ src) ∧
  (∀ r k, extra = some (r, k) → regionOk r k = true ∧ (r + k ≤ dst ∨ dst + n ≤ r)) ∧
  noneStarved x (rowsFrom src 8) ∧ noneInRing x (rowsFrom dst n)

/-- R74, R80: the operation is in the unit, its first eight rows are requested in its issue cycle, and the others follow at eight a cycle. -/
def Sys2Proof.Machine.State.starts (s : State) (t : TileId) (g : GroupId) (c : Instr) (kind : TuKind) (src dst aux logN latency : Nat) (rows : List Nat)
    (prime : Option (Nat × Nat)) : Prop :=
  let pipe := (s.sees t g).pipe
  let x := s.settled t g
  ∃ op : TuOp, s.issues t g c (fun x => { x with
      tu := { x.tu with op := some op }, seq := x.seq + 1, reads := x.reads ++ (rows.take 8).map (rowRead s t g .t .transform) }) ∧
    op.kind = kind ∧ op.issued = pipe ∧ op.latency = latency ∧ op.seq = x.seq ∧ op.bundle = (s.sees t g).bundle ∧ op.src = src ∧ op.dst = dst ∧
    op.aux = aux ∧ op.logN = logN ∧ op.failed = false ∧ (∀ p, prime = some p → (op.q, op.psi) = p) ∧
    op.fetch.got = (rows.take 8).map (fun r => (r, x.rowAt r)) ∧ op.fetch.todo.flatMap (·.2) = rows.drop 8 ∧
    ∀ e ∈ op.fetch.todo, pipe < e.1 ∧ e.1 < pipe + (rows.length + 7) / 8 ∧ e.2.length ≤ 8

/-- R75 to R89, R297, R298: the transforms, the automorphism, the permutation and the block transpose as they issue. That the rows are requested in
ascending order from the issue cycle on, eight a cycle, is the model's choice (log 10): R133 fixes no order. -/
def Obligations.TransformUnitStarts : Prop :=
  ∀ (s : State) (t : TileId) (g : GroupId) (w : BitVec 26), s.ready t g →
    let x := s.settled t g
    let src := (x.areg (w.extractLsb' 22 4)).toNat
    let dst := (x.areg (w.extractLsb' 18 4)).toNat
    let entry := (x.sreg (w.extractLsb' 12 4)).toNat % 128
    let table := w.getLsbD 11
    (w &&& 0x3FFFF = 0 → regionsOk s t g src dst 128 none → s.starts t g (.txp t w) .txp src dst 0 14 48 (rowsFrom src 128) none) ∧
    ∀ (m : ModTable) (e : ModEntry), x.ctx (w.extractLsb' 16 2) = some m → m.entry? entry = some e →
      let logN := m.logN.toNat
      let n := 2 ^ (logN - 7)
      let stages := 2 ^ logN * logN / 1024 + 76
      let aux := (x.areg (w.extractLsb' 7 4)).toNat
      let index := (x.areg (w.extractLsb' 8 4)).toNat
      let r := (x.sreg (w.extractLsb' 8 4)).toNat % 2 ^ 18
      7 ≤ logN → 8 ≤ n →
      (table = false → w &&& 0x7FF = 0 → regionsOk s t g src dst n none →
        s.starts t g (.ntt t w) (.transform false false) src dst 0 logN stages (rowsFrom src n) (some (e.q, e.psi)) ∧
        s.starts t g (.intt t w) (.transform true false) src dst 0 logN stages (rowsFrom src n) (some (e.q, e.psi))) ∧
      (table = true → w &&& 0x7F = 0 → regionsOk s t g src dst n (some (aux, tableRows logN)) →
        let rows := rowsFrom src n ++ rowsFrom aux (tableRows logN)
        s.starts t g (.ntt t w) (.transform false true) src dst aux logN (stages + 2 ^ logN / 1024) rows (some (e.q, e.psi)) ∧
        s.starts t g (.intt t w) (.transform true true) src dst aux logN (stages + 2 ^ logN / 1024) rows (some (e.q, e.psi))) ∧
      (w &&& 0x7F = 0 → r % 2 = 1 → r < 2 ^ (logN + 1) → regionsOk s t g src dst n none →
        s.starts t g (.auto t w) (.auto r (w.getLsbD 7)) src dst 0 logN (2 ^ logN / 512 + 24) (rowsFrom src n) (some (e.q, e.psi))) ∧
      (w &&& 0xFF = 0 → regionsOk s t g src dst n (some (index, n)) →
        s.starts t g (.perm t w) .perm src dst index logN (3 * 2 ^ logN / 1024 + 24) (rowsFrom src n ++ rowsFrom index n) (some (e.q, e.psi)))

/-- R74, R237, R240: while only its marker freezes a group of one tile, the tile's units go through one more cycle; the schedule counter stands still.
`change` is what the end of the cycle leaves of what the tile has met. -/
def Sys2Proof.Machine.State.unitsGo (s : State) (t : TileId) (g : GroupId) (y : Tile) : Prop :=
  exec (.scheduleCycle g) s = .next { s with dev := (s.dev.setTile t y).setGroup g { s.dev.group g with
    pipe := (s.dev.group g).pipe + 1, issuedAt := some s.dev.tick.wall } }

/-- A group of one tile that only its marker freezes, in a cycle that is still to run. -/
abbrev Sys2Proof.Machine.State.turning (s : State) (t : TileId) (g : GroupId) : Prop :=
  s.dev.groupOf t = some g ∧ (s.dev.group g).members = [t] ∧ s.dev.cycleOpen (s.dev.group g) = true ∧ s.dev.marks (s.dev.group g) = true ∧
  (s.dev.correctionDue (s.dev.group g) = true → (s.dev.group g).eccFor = some (s.dev.group g).pipe) ∧
  (s.settled t g).halted = (s.dev.tile t).halted

/-- A tile of a group whose cycle is still to run, with an operation in its TU. -/
abbrev Sys2Proof.Machine.State.transforms (s : State) (t : TileId) (g : GroupId) (op : TuOp) : Prop :=
  s.dev.groupOf t = some g ∧ s.dev.cycleOpen (s.dev.group g) = true ∧
  (s.dev.correctionDue (s.dev.group g) = true → (s.dev.group g).eccFor = some (s.dev.group g).pipe) ∧
  (s.dev.tile t).halted = false ∧ (s.dev.tile t).wf = true ∧ (s.dev.tile t).tu.op = some op ∧ op.failed = false ∧ op.closed = false

/-- Element p of the rows that an operation of the TU writes when no fault lies in its data path. -/
def Sys2Proof.Machine.TuOp.element (op : TuOp) (p : Nat) : Residue := lane128 (tuRow op none (p / 128)).2.data (p % 128)

/-- R32, R77, R81, R93: a transform under derived twiddles leaves the transform of its source, canonical and in natural order; the close of one whose
identities hold counts it and leaves the limb store and the tile to what the steps put there. Which plane holds which block, what a part that the limb
does not fill holds, and a pass under tables that are no root's powers are the model's choice (log 9). -/
def Obligations.TransformResults : Prop :=
  (∀ (op : TuOp) (inverse : Bool), op.kind = .transform inverse false → 7 ≤ op.logN → 0 < op.q → op.q < 2 ^ 36 →
     let N := 2 ^ op.logN
     let a := fun i => (op.fetch.at op.src i).toNat
     ∀ k, k < N → (op.element k).toNat < op.q ∧
       if inverse then (op.element k).toNat = nInv op.q N * ((List.range N).map (fun i => a i * op.psi ^ ((2 * N - 1) * (2 * i + 1) * k))).sum % op.q
       else (op.element k).toNat = ((List.range N).map (fun i => a i * op.psi ^ ((2 * k + 1) * i))).sum % op.q) ∧
  ∀ (s : State) (t : TileId) (g : GroupId) (op : TuOp) (inverse table : Bool), s.transforms t g op → op.kind = .transform inverse table →
    op.issued + op.latency - 1 ≤ (s.sees t g).pipe →
    let x := s.dev.tile t
    let sides := invariantSides op inverse table none
    op.upset = none → check1Ok op inverse sides = true → check2Ok op inverse sides = true →
    exec (.transformInvariantClose t none) s = .next (s.put t { x with tu := { x.tu with
      op := some { op with closed := true }, count := x.tu.count + 1
      store := storeAfter op inverse table none, planes := planesAfter op inverse table none x.tu.planes } })

/-- R77: the inverse transform undoes the forward one, for a prime q and a root ψ with ψ^N = −1. -/
def Obligations.InverseUndoesForward : Prop :=
  ∀ (q psi logN : Nat) (a : Nat → Nat), q.Prime → q % 2 = 1 → 1 ≤ logN → psi ^ (2 ^ logN) % q = q - 1 →
    ∀ i, i < 2 ^ logN → inttAt q psi (2 ^ logN) (nttAt q psi (2 ^ logN) a) i = a i % q

/-- R82: one output element off by delta: the row that leaves holds it so, and its other elements as they are. The fault counts from where it is told, and
not once the row has left (log 10, the model's choice). A forward transform whose I1 would hold halts at its close with TRANSFORM_CHECK unless delta is a
multiple of q, and its destination stands as written. So does one whose checker has a_0 off by delta, by I1, or a_(N/2), by I2, for an odd q. -/
def Obligations.TransformUpsetCaught : Prop :=
  ∀ (s : State) (t : TileId) (g : GroupId) (op : TuOp) (pos : Nat) (delta : Residue) (table : Bool), s.transforms t g op →
    op.kind = .transform false table → 7 ≤ op.logN → 0 < op.q → op.q < 2 ^ 36 → pos < 2 ^ op.logN →
    let u : Upset := { outputs := [(pos, delta)] }
    let x := s.dev.tile t
    (op.upset = none → (s.sees t g).pipe < op.issued + op.latency - 1 →
      let met : TuOp := if op.written.testBit (pos / 128) then op else { op with upset := some u }
      exec (.transformInvariantClose t (some u)) s = .next (s.put t { x with tu := { x.tu with op := some met } })) ∧
    (op.written.testBit (pos / 128) = true → exec (.transformInvariantClose t (some u)) s = exec (.transformInvariantClose t none) s) ∧
    (∀ p, p < 2 ^ op.logN → (lane128 (tuRow op (some u) (p / 128)).2.data (p % 128)).toNat =
      if p = pos then ((op.element p).toNat + delta.toNat) % op.q else (op.element p).toNat) ∧
    (op.issued + op.latency - 1 ≤ (s.sees t g).pipe → delta.toNat % op.q ≠ 0 →
      let fails := fun (told : Option Upset) (check : Tu → Bool) => ∃ s', exec (.transformInvariantClose t told) s = .next s' ∧
        (s'.dev.tile t).halted = true ∧ (s'.dev.tile t).haltReason = .transformCheck ∧ (s'.dev.tile t).haltAddr = op.bundle ∧
        check (s'.dev.tile t).tu = true ∧ (s'.dev.tile t).tu.failEntry = BitVec.ofNat 7 op.entry ∧ (s'.dev.tile t).h = x.h ∧
        (s'.dev.tile t).scratch = x.scratch
      let sides := invariantSides op false table none
      (check1Ok op false sides = true → op.upset = some u → fails none (·.check1)) ∧
      (check1Ok op false sides = true → op.upset = none → op.q % 2 = 1 → fails (some { a0 := delta }) (·.check1)) ∧
      (check2Ok op false sides = true → op.upset = none → op.q % 2 = 1 → op.psi ^ 2 ^ op.logN % op.q = op.q - 1 →
        fails (some { ah := delta }) (·.check2)))

/-- The destination rows of an operation that `written` does not name. -/
def Sys2Proof.Machine.TuOp.left (op : TuOp) (written : Nat) : Nat := ((List.range op.regionRows).filter (fun c => !written.testBit c)).length

/-- Those of them that lie in bank b. -/
def Sys2Proof.Machine.TuOp.leftIn (op : TuOp) (written b : Nat) : Nat :=
  ((List.range op.regionRows).filter (fun c => !written.testBit c && bankOf (op.dst + c) == b)).length

/-- The rows that `written` names are in the banks. -/
def Sys2Proof.Machine.TuOp.heldIn (op : TuOp) (written : Nat) (x : Tile) : Prop :=
  ∀ c, c < op.regionRows → written.testBit c = true → x.rowAt (op.dst + c) = (tuRow op op.upset c).2

/-- R84, R87, R298: what the automorphism, the permutation and the block transpose compute. That an element which is not negated passes unreduced is the
model's reading (log 72).
R73, R74, R78, R80, R89, R93, R131: of a transform at most one destination row of a bank leaves the unit in a cycle, of another operation eight or all that
are left, all of them by its last writing cycle, and nothing else is written; when a transform's first pass is done the limb store holds its results, and the
tile each block in its turn; an automorphism, permutation or block transpose counts in its last cycle. Which rows leave in which cycle, and the cycles
of a transform's parts, are the model's choice (logs 9 and 10).
R88: a permutation is judged by its entries before any row is written. -/
def Obligations.TransformUnitLandings : Prop :=
  (∀ op : TuOp, 0 < op.q → op.q < 2 ^ 36 → 7 ≤ op.logN →
     let N := 2 ^ op.logN
     let source := op.fetch.at op.src
     let neg := fun (a r : Residue) => r.toNat < op.q ∧ (r.toNat + a.toNat) % op.q = 0
     (∀ r p, op.kind = .auto r true → r % 2 = 1 → r < 2 * N → p < N → op.element p = source ((r * (2 * p + 1) % (2 * N) - 1) / 2)) ∧
     (∀ r p, op.kind = .auto r false → r % 2 = 1 → r < 2 * N → p < N → ∃ i, i < N ∧
       (i * r % (2 * N) = p ∧ op.element p = source i ∨ i * r % (2 * N) = p + N ∧ neg (source i) (op.element p))) ∧
     (∀ p, op.kind = .perm → p < N → let e := permEntry op p
       if e / 2 ^ 35 % 2 = 1 then neg (source (e % 2 ^ 17)) (op.element p) else op.element p = source (e % 2 ^ 17)) ∧
     (∀ p, op.kind = .txp → p < 16384 → op.element p = lane128 (op.fetch.seen (op.src + p % 128)) (p / 128))) ∧
  (∀ (s : State) (t : TileId) (g : GroupId) (op : TuOp), s.turning t g →
     let x := s.settled t g
     let pipe := (s.sees t g).pipe
     x.wf = true → x.tu.op = some op → x.flights = [] → x.nma.op = none → x.nma.tails = [] → x.nma.dsm = none → x.nma.closes = [] →
     x.tuWrites op pipe = true → op.heldIn op.written x → pipe ≤ op.lastWrite →
     ∃ (y : Tile) (w : Nat), s.unitsGo t g y ∧ op.heldIn w y ∧
       (∀ r, r < op.dst ∨ op.dst + op.regionRows ≤ r → y.rowAt r = x.rowAt r) ∧ y.v = x.v ∧ y.a = x.a ∧ y.s = x.s ∧ y.k = x.k ∧ y.h = x.h ∧
       y.nma = x.nma ∧
       (pipe + 1 < op.issued + op.latency → y.tu = { x.tu with op := some { op with written := w }, store := y.tu.store, planes := y.tu.planes }) ∧
       ((∀ inverse table, op.kind ≠ .transform inverse table) →
         op.left w = op.left op.written - 8 ∧ y.tu.store = x.tu.store ∧ y.tu.planes = x.tu.planes) ∧
       (∀ inverse table, op.kind = .transform inverse table → (∀ c, op.written.testBit c = true → w.testBit c = true) ∧
         (∀ b, op.leftIn op.written b ≤ op.leftIn w b + 1 ∧
           (op.dst + op.regionRows ≤ 32768 → op.leftIn op.written b ≤ op.lastWrite + 1 - pipe → op.leftIn w b ≤ op.lastWrite - pipe)) ∧
         (op.storeFull inverse table = pipe → y.tu.store = storeAfter op inverse table op.upset) ∧
         (Store.wf (fun _ => 0) x.tu.planes = true → 12 ≤ op.logN → ∀ b, b < op.blocks → op.planeFull inverse table b = pipe →
           ∀ e, e ∈ planeBlock op inverse table op.upset b → Store.read (fun _ => 0) y.tu.planes e.1 = e.2)) ∧
       (op.issued + op.latency ≤ pipe + 1 → (∀ inverse table, op.kind ≠ .transform inverse table) →
         y.tu = { x.tu with op := none, count := x.tu.count + 1 })) ∧
  ∀ (s : State) (t : TileId) (g : GroupId) (op : TuOp), s.transforms t g op → op.kind = .perm →
    op.issued + 2 * 2 ^ op.logN / 1024 + 6 ≤ (s.sees t g).pipe →
    ((∀ k, k < 2 ^ op.logN → permEntryOk op.logN (permEntry op k) = true) → exec (.permIndexCheck t) s = .next s) ∧
    ((∃ k, k < 2 ^ op.logN ∧ permEntryOk op.logN (permEntry op k) = false) → ∃ s', exec (.permIndexCheck t) s = .next s' ∧
      (s'.dev.tile t).halted = true ∧ (s'.dev.tile t).haltReason = .operandRange ∧ (s'.dev.tile t).haltAddr = op.bundle ∧
      (s'.dev.tile t).scratch = (s.dev.tile t).scratch ∧ (s'.dev.tile t).tu.op = none)

/- The M slot and the Narrow Matrix Array (R95 to R127, R300 to R304). -/

/-- R101, R106: what the issue of an operation leaves of the array's kind, shape and reference exponents: an MMA under ZERO and an MRESUME set them. -/
def Sys2Proof.Machine.begun (x m : Nma) (kind : NmaKind) : Prop :=
  m = { x with accInt := m.accInt, accSmall := m.accSmall, xr := m.xr } ∧
  let sets := fun (int small : Bool) (xr : BitVec 16) => m.accInt = int ∧ m.accSmall = small ∧
    ∀ r : Fin 9, m.xr[r] = if int = true ∧ r.val < blockRows small then xr else x.xr[r]
  match kind with
  | .mma f int true _ _ _ xr _ _ => sets int f.small xr
  | .resume int small _ xr => sets int small xr
  | _ => m = x

/-- The operation is in the array, and it has made the requests of its issue cycle; those of the cycles after it are to come. -/
def Sys2Proof.Machine.State.occupies (s : State) (t : TileId) (g : GroupId) (c : Instr) (kind : NmaKind) (occupancy latency : Nat) (first : List Nat)
    (later : List (Nat × List Nat)) (sent : Sentinel → Sentinel → Prop) : Prop :=
  let x := s.settled t g
  ∃ (op : NmaOp) (m : Nma) (y : Sentinel), s.issues t g c (fun x => { x with
      nma := { m with op := some op }, seq := x.seq + 1, sent := y, reads := x.reads ++ first.map (rowRead s t g .m .matrix) }) ∧
    begun x.nma m kind ∧ sent x.sent y ∧
    op = { kind := kind, issued := (s.sees t g).pipe, occupancy := occupancy, latency := latency, seq := x.seq, bundle := (s.sees t g).bundle
           fetch := { todo := later, got := first.map (fun r => (r, x.rowAt r)) } }

/-- The sentinel draws nothing. -/
def Sys2Proof.Machine.noDraw (x y : Sentinel) : Prop := y = x

/-- Requests of k rows a cycle from the cycle after the first. -/
def Sys2Proof.Machine.laterRows (k pipe : Nat) (rows : List Nat) : List (Nat × List Nat) :=
  (chunksOf k (rows.drop k)).mapIdx (fun i rs => (pipe + 1 + i, rs))

/-- R105, R106, R116, R118, R300, R304: the operations that move accumulators, as they issue. MCHR meets a header it accepts. The order of the rows
requested and the cycle of MCHR's header check are the model's (log 10), and so is that MRESUME sets mode, shape and reference exponents as it issues
(log 19). -/
def Obligations.ArrayMovesStart : Prop :=
  ∀ (s : State) (t : TileId) (g : GroupId) (w : BitVec 26), s.ready t g →
    let x := s.settled t g
    let pipe := (s.sees t g).pipe
    let wide := (x.areg (w.extractLsb' 21 4)).toNat
    let wideR := (x.areg (w.extractLsb' 20 4)).toNat
    let rows := fun small => if small then 288 else 1152
    let free := fun reads writes => rowsOk s t g (reads ++ writes) ∧ noneStarved x (reads.take 8) ∧ noneInRing x writes
    let sc := x.sreg (w.extractLsb' 5 4)
    let i0 := sc.toNat / 2 ^ 32 % 16
    let nbr := sc.toNat / 2 ^ 36 % 16
    let n := rows x.nma.accSmall
    let starts := fun (c : Instr) (kind : NmaKind) (cycles : Nat) (reads : List Nat) =>
      s.occupies t g c kind cycles cycles (reads.take 8) (laterRows 8 pipe reads) noDraw
    (w &&& 0x1FFFFF = 0 → w.getLsbD 25 = true → free [] (rowsFrom wide n) → starts (.mspill t w) (.spill true wide) (n / 8 + 16) []) ∧
    (w &&& 0x1FFFFF = 0 → w.getLsbD 25 = false → free (rowsFrom wide n) (rowsFrom wide n) →
      starts (.mspill t w) (.spill false wide) (n / 8 + 16) (rowsFrom wide n)) ∧
    (w &&& 0xFFFF = 0 → free (rowsFrom wideR (rows (w.getLsbD 24))) [] →
      starts (.mresume t w) (.resume (w.getLsbD 25) (w.getLsbD 24) wideR (BitVec.ofNat 16 (x.sreg (w.extractLsb' 16 4)).toNat))
        (rows (w.getLsbD 24) / 8 + 16) (rowsFrom wideR (rows (w.getLsbD 24)))) ∧
    (1 ≤ nbr → i0 + nbr ≤ blockRows x.nma.accSmall →
      (w &&& 0x1F = 0 → (w.getLsbD 25 = true ∨ x.nma.lastHeader ≠ none) →
        starts (.mchs t w) (.send (w.getLsbD 25) wide (w.extractLsb' 15 6) (w.extractLsb' 9 6) (BitVec.ofNat 32 sc.toNat) i0 nbr) (8 * nbr + 12) []) ∧
      ∀ h, let reads := rowsFrom wide (1 + chainRows x.nma.accSmall i0 nbr)
        w &&& 0x21FFE1F = 0 → free reads [] → chainHeader? (x.rowAt wide).seen = some h →
        chainOk x.nma h (BitVec.ofNat 32 sc.toNat) i0 nbr = true →
        starts (.mchr t w) (.receive wide (BitVec.ofNat 32 sc.toNat) i0 nbr) (8 * nbr + 16) reads)

/-- The panel rows that block step b of an MMA reads: of A, but for pad rows, then of B (R94, R99). -/
def Sys2Proof.Machine.stepRows (f : Fmt) (a b : Nat) (pad : Option PadWindow) (step : Nat) : List Nat :=
  let u := if f.bits = 8 then 144 else 288
  let lo := step * u * f.bits / 128
  let n := (step * u + u - 1) * f.bits / 128 + 1 - lo
  (rowsFrom (a + lo) n).filter (fun r => !pad.any (fun p => p.pads r)) ++ rowsFrom (b + lo) n

/-- Of row requests those of cycle `pipe` and before, and those after it. -/
def Sys2Proof.Machine.asksNow (pipe : Nat) (reqs : List (Nat × List Nat)) : List Nat := (reqs.filter (fun p => decide (p.1 ≤ pipe))).flatMap (·.2)
def Sys2Proof.Machine.asksLater (pipe : Nat) (reqs : List (Nat × List Nat)) : List (Nat × List Nat) := reqs.filter (fun p => decide (pipe < p.1))

/-- R131: rows that a unit requests in runs, from a cycle on: all of them, in order, and in one cycle no two of a bank.
R94, R95, R101, R112, R301: MMA, as it issues, when the conditions of R101 and R301 hold. Its sentinel draws only where it is enabled and the shape is
288 by 288 (R112).
R107 to R110, R303: MEPI.
R120 to R123, R125, R302: DSM.
The model's choices are that an MMA sets mode, shape and reference exponents as it issues (log 19), the order of the rows requested (log 10), and the LFSR's
next state and how its bits draw a sample (log 14). -/
def Obligations.ArrayOperationsStart : Prop :=
  (∀ (c : Nat) (rows : List Nat), let reqs := runsFrom c rows
    reqs.flatMap (·.2) = rows ∧ reqs.map (·.1) = (List.range reqs.length).map (c + ·) ∧ reqs.length ≤ rows.length ∧
    ∀ p, p ∈ reqs → (p.2.map bankOf).Nodup) ∧
  ∀ (s : State) (t : TileId) (g : GroupId) (w : BitVec 26), s.ready t g →
    let x := s.settled t g
    let pipe := (s.sees t g).pipe
    (∀ f : Fmt, Fmt.ofCode (w.extractLsb' 23 3).toNat = some f → w &&& (if w.getLsbD 4 then 3 else 0xF) = 0 →
      let int := w.getLsbD 22
      let zero := w.getLsbD 21
      let a := (x.areg (w.extractLsb' 17 4)).toNat
      let b := (x.areg (w.extractLsb' 13 4)).toNat
      let nb := (x.sreg (w.extractLsb' 9 4)).toNat % 2 ^ 12
      let sx := (x.sreg (w.extractLsb' 5 4)).toNat
      let shadow := sx / 2 ^ 32 % 2 ^ 15
      let pad := if w.getLsbD 4 then some x.pads[(w.extractLsb' 2 2).toNat] else none
      let u := if f.bits = 8 then 144 else 288
      let cycles := if f.bits = 2 then 16 else 32
      let panel := (u * nb + 128 / f.bits - 1) / (128 / f.bits)
      nb ≠ 0 → (int = true → f ≠ .mxfp8) →
      (zero = true ∨ x.nma.accInt = int ∧ x.nma.accSmall = f.small ∧
        (int = true → ∀ r, r < blockRows f.small → x.nma.xr.toList.getD r 0 = BitVec.ofNat 16 sx)) →
      rowsOk s t g ((rowsFrom a panel).filter (fun r => !pad.any (fun p => p.pads r)) ++ rowsFrom b panel ++
        if x.sent.ctrl.getLsbD 1 then rowsFrom shadow ((u * nb + 15) / 16) else []) →
      let reqs := (List.range nb).flatMap (fun n => runsFrom (pipe + cycles * n) (stepRows f a b pad n))
      noneStarved x (asksNow pipe reqs) →
      s.occupies t g (.mma t w) (.mma f int zero a b nb (BitVec.ofNat 16 sx) shadow pad) (cycles * nb) (cycles * nb + if f.bits = 8 then 24 else 20)
        (asksNow pipe reqs) (asksLater pipe reqs)
        (fun old new => new = { old with lfsr := new.lfsr, sample := new.sample, drop := new.drop } ∧
          (old.ctrl.getLsbD 0 = false ∨ f.bits = 8 → new = old) ∧
          (old.ctrl.getLsbD 0 = true → f.bits ≠ 8 →
            let drawn := new.drop = (if old.sample.isSome then satInc old.drop else old.drop) ∧ ∃ y : SentSample, new.sample = some y ∧
              y.i < 288 ∧ y.j < 288 ∧ y.step = 0 ∧ (y.fmt, y.a, y.b, y.shadow, y.pad) = (f, a, b, shadow, pad) ∧ y.asked = (s.sees t g).wall
            new.lfsr = Config.lfsrNext old.lfsr ∧ (drawn ∨ new.sample = old.sample ∧ new.drop = old.drop) ∧
            (old.ctrl.toNat / (if old.ctrl.getLsbD 2 then 2 ^ 16 else 2 ^ 20) % 16 = 0 → drawn)))) ∧
    (∀ f : Fmt, Fmt.ofCode (w.extractLsb' 21 3).toNat = some f →
      let out : BitVec 2 := w.extractLsb' 24 2
      let merge := w.getLsbD 20
      let act : BitVec 2 := w.extractLsb' 6 2
      let sp : BitVec 4 := w.extractLsb' 8 4
      let s0 := (x.sreg sp).toNat
      let s1 := x.sreg (sp + 1)
      let s2 := (x.sreg (sp + 2)).toNat
      let entry := ctxEntry? (x.ctx (BitVec.ofNat 2 (s2 / 2 ^ 16))) (s2 / 2 ^ 8 % 128)
      let dst := (x.areg (w.extractLsb' 16 4)).toNat
      let wide := (x.areg (w.extractLsb' 12 4)).toNat
      let vec := fun lo => if s0.testBit (lo + 15) then some (s0 / 2 ^ lo % 2 ^ 15) else none
      let vecRows := fun v => match v with | some r => rowsFrom r (if x.nma.accSmall then 1 else 2) | none => []
      let buffer := if merge then rowsFrom wide (if x.nma.accSmall then 288 else 1152) else []
      let vecs := runsFrom pipe (vecRows (vec 0) ++ vecRows (vec 16))
      let reqs := vecs ++ (chunksOf (if x.nma.accSmall then 8 else 24) buffer).mapIdx (fun i rs => (pipe + vecs.length + i, rs))
      let writes := rowsFrom dst (epiRows out f x.nma.accSmall)
      w &&& ((if out = 0 then 0 else 0xE00000) ||| (if merge then 0 else 0xF000) ||| (if act = 2 then 0 else 0x3C) ||| 3) = 0 → out ≠ 3 →
      sp.toNat ≤ 13 → (act = 2 → w.extractLsb' 2 4 ≠ 0) → (out = 2 → s2 % 64 ≤ 62 ∧ entry ≠ none) →
      rowsOk s t g (buffer ++ vecRows (vec 0) ++ vecRows (vec 16) ++ writes) → noneStarved x (asksNow pipe reqs) → noneInRing x writes →
      let cycles := if out = 2 then 112 else 100
      s.occupies t g (.mepi t w) (.epilogue out f merge dst wide (vec 0) (vec 16) act (w.extractLsb' 2 4) (s1.extractLsb' 0 32) (s1.extractLsb' 32 32)
          (s2 % 64) ((entry.map (·.q)).getD 1)) cycles cycles (asksNow pipe reqs) (asksLater pipe reqs) noDraw) ∧
    (let dot := w.getLsbD 25
     let sk := (x.sreg (w.extractLsb' 9 4)).toNat
     let k := sk % 2 ^ 9
     let a := (x.areg (w.extractLsb' 21 4)).toNat
     let b := (x.areg (w.extractLsb' 17 4)).toNat
     let dst := (x.areg (w.extractLsb' 13 4)).toNat
     let sa := sk / 2 ^ 16 % 2 ^ 16
     let sb := sk / 2 ^ 32 % 2 ^ 16
     let entry := fun v => ctxEntry? (x.ctx (w.extractLsb' 7 2)) ((x.sreg (w.extractLsb' 3 4)).toNat % 128 + if w.getLsbD 2 then v else 0)
     let stepA := fun i => if dot then rowsFrom (a + i * sa) 8 else [a + i]
     let stepB := fun i => if dot then rowsFrom (b + i * sb) 8 else [b + i]
     let rowsA := (List.range k).flatMap stepA
     let rowsB := (List.range k).flatMap stepB
     let turn := fun i => if dot = false ∧ a % 8 = b % 8 then (i + if k % 8 = 1 then 2 else 1) % k else i
     let step := fun i => stepA i ++ stepB (turn i)
     w &&& 3 = 0 → 1 ≤ k → k ≤ 256 → (∀ v, v < 8 → entry v ≠ none) → dst % 8 = 0 →
     (dot = true → ∀ i, i < k → eightRowGroup (stepA i) = true ∧ eightRowGroup (stepB i) = true ∧ quarterOf (a + i * sa) ≠ quarterOf (b + i * sb)) →
     rowsOk s t g (rowsA ++ rowsB ++ rowsFrom dst 8) → noneStarved x (step 0) → noneInRing x (rowsFrom dst 8) →
     ∃ d : DsmOp, d = { dot := dot, k := k, rowsA := rowsA, rowsB := rowsB, dst := dst, qs := (List.range 8).map (fun v => ((entry v).map (·.q)).getD 0)
                        issued := pipe, seq := x.seq, bundle := (s.sees t g).bundle
                        fetch := { todo := (List.range (k - 1)).map (fun i => (pipe + (i + 1), step (i + 1)))
                                   got := (step 0).map (fun r => (r, x.rowAt r)) } } ∧
       s.issues t g (.dsm t w) (fun x => { x with
         nma := { x.nma with dsm := some d }, seq := x.seq + 1, reads := x.reads ++ (step 0).map (rowRead s t g .m .matrix) }) ∧
       (2 ≤ k → ∀ i, i < k → ((step i).map bankOf).Nodup))

/-- R121 to R123: the close stage writes, in row v of eight, the exact sums of K products modulo the prime of column v. -/
def Obligations.DsmResults : Prop :=
  ∀ (s : State) (t : TileId) (g : GroupId) (d : DsmOp), s.dev.groupOf t = some g → (s.dev.tile t).wf = true →
    let x := s.dev.tile t
    x.nma.closes = [d] → d.issued + d.k + 30 ≤ (s.sees t g).pipe → d.written = 0 → d.fetch.todo = [] → (∀ r ∈ x.reads, r.seq ≠ d.seq) →
    d.qs.length = 8 → (∀ q ∈ d.qs, 0 < q ∧ q < 2 ^ 36) → d.rowsA.length = (if d.dot then 8 * d.k else d.k) →
    d.rowsB.length = (if d.dot then 8 * d.k else d.k) →
    ∃ y, exec (.dsmClose t) s = .next (s.put t y) ∧
      y = { x with scratch := y.scratch, ceRows := y.ceRows, reads := y.reads, before := y.before, slotWrites := y.slotWrites, free := x.free + 1, nma := { x.nma with closes := [] } } ∧
      (∀ r, r < d.dst ∨ d.dst + 8 ≤ r → y.rowAt r = x.rowAt r) ∧
      ∀ v u, v < 8 → u < 128 →
        let rowA := fun k => d.fetch.seen (d.rowsA.getD (if d.dot then 8 * k + v else k) 0)
        let rowB := fun k => d.fetch.seen (d.rowsB.getD (if d.dot then 8 * k + v else k) 0)
        (lane128 (y.rowAt (d.dst + v)).data u).toNat =
          ((List.range d.k).map (fun k => (lane128 (rowA k) u).toNat * (lane128 (rowB k) (if d.dot then u else v)).toNat)).sum % d.qs.getD v 1

/-- R103, R104: an integer accumulator after one block step: a contribution P · 2^(Xa + Xb − 254 − 2F − XR) to nearest even, clamped. A block
that holds NaN adds nothing. -/
def Sys2Proof.Machine.intStep (f : Fmt) (xr : Int) (a b : Block) (acc : Int) : Int :=
  let d := (a.scale : Int) + b.scale - 254 - 2 * f.frac - xr
  let p := ((List.range 32).map (fun k => (a.elems.getD k ⟨0, false, false⟩).int * (b.elems.getD k ⟨0, false, false⟩).int)).sum
  let c := if 0 ≤ d then p * 2 ^ d.toNat else rneShiftInt p (-d).toNat
  if a.nan || b.nan then acc else max (-(2 ^ 31 - 1)) (min (2 ^ 31 - 1) (acc + c))

/-- R102, R104: an FP32 accumulator after one block step: the sum with P · 2^(Xa + Xb − 254 − 2F), formed exactly and rounded once. A block that holds NaN
makes it NaN. -/
def Sys2Proof.Machine.fpStep (f : Fmt) (a b : Block) (acc : Word) : Nat :=
  let p := ((List.range 32).map (fun k => (a.elems.getD k ⟨0, false, false⟩).int * (b.elems.getD k ⟨0, false, false⟩).int)).sum
  if a.nan || b.nan then 0x7FC00000
  else (fp32.encode ((fp32.decode acc.toNat).add (.num (decide (p < 0)) p.natAbs ((a.scale : Int) + b.scale - 254 - 2 * f.frac)))).bits

/-- An operation of the array other than MMA and DSM in the last cycle of its occupancy, its rows all delivered and nothing else in the tile's units. -/
abbrev Sys2Proof.Machine.State.arrayEnds (s : State) (t : TileId) (g : GroupId) (op : NmaOp) : Prop :=
  let x := s.settled t g
  s.turning t g ∧ x.wf = true ∧ x.flights = [] ∧ x.tu.op = none ∧ x.nma.op = some op ∧ x.nma.tails = [] ∧ x.nma.dsm = none ∧ x.nma.closes = [] ∧
  op.failed = false ∧ op.fetch.todo = [] ∧ (∀ r ∈ x.reads, r.seq ≠ op.seq) ∧ (s.sees t g).pipe + 1 = op.issued + op.occupancy

/-- Of the n result rows from `first` on, those that have left the array are in the banks, and of the others no bank has more than k. -/
abbrev Sys2Proof.Machine.NmaOp.nearlyOut (op : NmaOp) (x : Tile) (first n k : Nat) : Prop :=
  (∀ c, c < n → op.written.testBit c = true → x.rowAt (first + c) = ((op.rowsOut x.nma).rows.getD c (0, {})).2) ∧
  ∀ b, b < 32 → ((List.range n).filter (fun c => !op.written.testBit c && bankOf (first + c) == b)).length ≤ k

/-- The cycle runs, leaves every row but n from `first` on and the registers as they are, and `left` of the tile. -/
def Sys2Proof.Machine.State.leaves (s : State) (t : TileId) (g : GroupId) (first n : Nat) (left : Tile → Prop) : Prop :=
  let x := s.settled t g
  ∃ y, s.unitsGo t g y ∧ (∀ r, r < first ∨ first + n ≤ r → y.rowAt r = x.rowAt r) ∧ y.v = x.v ∧ y.k = x.k ∧ y.s = x.s ∧ y.a = x.a ∧ y.h = x.h ∧ left y

/-- Word n of `width` bits, `per` of them to a row, from row `first` on. -/
def Sys2Proof.Machine.wordIn (rows : Nat → SectorBits) (first width per n : Nat) : Nat := (rows (first + n / per)).toNat / 2 ^ (width * (n % per)) % 2 ^ width

/-- R107: element (i, j) of the epilogue before its conversion to the output format. -/
def Sys2Proof.Machine.epiValue (m : Nma) (seen : Nat → SectorBits) (merge : Bool) (wide : Nat) (sc bi : Option Nat) (act : BitVec 2) (k : BitVec 4)
    (lo hi : Word) (i j : Nat) : Nat :=
  let n := (if m.accSmall then 144 else 288) * i + j
  let buf := wordIn seen wide 64 72 n
  let acc := accAt m.acc n
  let sum : Int := acc.toInt + if merge then (BitVec.ofNat 64 buf).toInt else 0
  let src : Fp :=
    if m.accInt then .num (decide (sum < 0)) sum.natAbs (m.xr.toList.getD (i / 32) 0).toInt
    else if merge then (fp64.decode buf).add (fp32.decode acc.toNat) else fp32.decode acc.toNat
  let vec := fun (r : Option Nat) (absent : Nat) => match r with | some r => wordIn seen r 32 144 i | none => absent
  let v := (fAdd (fMul (fp32.encode src).bits (vec sc 0x3F800000)).bits (vec bi 0)).bits
  let x := fp32.decode v
  match act.toNat with
  | 0 => v
  | 1 => if x.isNan then 0x7FC00000 else if (Fp.num false 0 0).lt x then v else 0
  | 2 => if x.isNan || x.lt (.num false 0 0) then (fp32.encode (x.mul (.num false 1 (-(k.toNat : Int))))).bits else v
  | _ => (fMin (fMax v lo.toNat).bits hi.toNat).bits

/-- R108: the number that a finite or infinite FP32 value is taken as. -/
def Sys2Proof.Machine.taken (bits : Nat) : ℚ :=
  match fp32.decode bits with
  | .num neg m e => (if neg then -1 else 1) * m * (2 : ℚ) ^ e
  | .inf neg => (if neg then -1 else 1) * (2 ^ 24 - 1) * (2 : ℚ) ^ 104
  | .nan => 0

/-- R100 to R104: what block step b of an MMA adds to the accumulators, INT32 and FP32. That it is there at the end of cycle i + S · (b + 1) + (L − O) − 1 is the
model's reading (log 19): R95 and R125 give the last cycle alone.
R108: the scale of an output block, and elements that no code of the format is nearer to.
R105 to R110, R116 to R119: what MSPILL, MRESUME, MEPI, MCHS and MCHR leave at the end of their last cycle. Which result rows stand before it in which
cycle is the model's choice (log 10), the flags of MSPILL's FP64 sums (log 79) and XR of an FP32 packet (log 88) too. -/
def Obligations.IntegerMmaResults : Prop :=
  (∀ (s : State) (t : TileId) (g : GroupId) (op : NmaOp) (f : Fmt) (int zero : Bool) (a b nb : Nat) (xr : BitVec 16) (shadow : Nat) (pad : Option PadWindow),
     s.turning t g →
     let x := s.settled t g
     let pipe := (s.sees t g).pipe
     let u := if f.bits = 8 then 144 else 288
     let cycles := if f.bits = 2 then 16 else 32
     x.flights = [] → x.tu.op = none → x.nma.dsm = none → x.nma.closes = [] →
     (x.nma.op = some op ∧ x.nma.tails = [] ∨ x.nma.op = none ∧ x.nma.tails = [op]) → op.failed = false →
     op.kind = .mma f int zero a b nb xr shadow pad → op.steps < nb →
     op.issued + cycles * (op.steps + 1) + (op.latency - op.occupancy) = pipe + 1 →
     ∃ y, s.unitsGo t g y ∧ y.scratch = x.scratch ∧ y.v = x.v ∧ y.s = x.s ∧ y.a = x.a ∧ y.h = x.h ∧
       (x.nma.op = some op → pipe + 1 < op.issued + op.occupancy → y.nma.op = some { op with steps := op.steps + 1 } ∧ y.nma.tails = []) ∧
       ((x.nma.op = none ∨ op.issued + op.occupancy ≤ pipe + 1) → y.nma.op = none ∧
         y.nma.tails = if op.steps + 1 < nb then [{ op with steps := op.steps + 1 }] else []) ∧
       ∀ i j, i < u → j < u →
         let acc := if zero = true ∧ op.steps = 0 then 0 else accAt x.nma.acc (u * i + j)
         let blockA := panelBlock f op.fetch pad a i op.steps
         let blockB := panelBlock f op.fetch none b j op.steps
         (int = true → (accAt y.nma.acc (u * i + j)).toInt = intStep f xr.toInt blockA blockB acc.toInt) ∧
         (int = false → (accAt y.nma.acc (u * i + j)).toNat = fpStep f blockA blockB acc)) ∧
  (∀ (f : Fmt) (xs : List Nat), xs.length ≤ 32 → (∀ v ∈ xs, (fp32.decode v).isNan = false) →
     let o := narrowBlock f xs
     let grid := fun c => ((f.elem c).int : ℚ) * (2 : ℚ) ^ (-(f.frac : Int)) * (2 : ℚ) ^ ((o.scale : Int) - 127)
     ((∀ v ∈ xs, taken v = 0) → o.scale = 0 ∧ ∀ k, o.codes.getD k 0 = 0) ∧
     ((∃ v ∈ xs, taken v ≠ 0) → (∀ k, xs.length ≤ k → o.codes.getD k 0 = 0) ∧
       (∃ e : Int, (o.scale : Int) = max 0 (min 254 (e - f.emax + 127)) ∧ (∀ v ∈ xs, |taken v| < (2 : ℚ) ^ (e + 1)) ∧ ∃ v ∈ xs, (2 : ℚ) ^ e ≤ |taken v|) ∧
       ∀ k, k < xs.length → ∀ c, c < 2 ^ f.bits → (f.elem c).nan = false →
         |taken (xs.getD k 0) - grid (o.codes.getD k 0)| ≤ |taken (xs.getD k 0) - grid c|)) ∧
  ∀ (s : State) (t : TileId) (g : GroupId) (op : NmaOp), s.arrayEnds t g op →
    let x := s.settled t g
    let m := x.nma
    let u := if m.accSmall then 144 else 288
    let seen := op.fetch.seen
    (∀ init wide, op.kind = .spill init wide → let n := if m.accSmall then 288 else 1152
      (init = false → ∀ c, c < n → ∃ p ∈ op.fetch.got, p.1 = wide + c) → op.nearlyOut x wide n 1 →
      s.leaves t g wide n (fun y => y.nma = { m with op := none, acc := [], flags := y.nma.flags } ∧ (m.accInt = true → y.nma.flags = m.flags) ∧
        ∀ k, k < u * u →
          let buf := wordIn seen wide 64 72 k
          let acc := accAt m.acc k
          let v := wordIn (fun r => (y.rowAt r).data) wide 64 72 k
          (m.accInt = true → (BitVec.ofNat 64 v).toInt =
            if init then acc.toInt else max (-(2 ^ 63 - 1)) (min (2 ^ 63 - 1) ((BitVec.ofNat 64 buf).toInt + acc.toInt))) ∧
          (m.accInt = false → v = (fp64.encode (if init then fp32.decode acc.toNat else (fp64.decode buf).add (fp32.decode acc.toNat))).bits))) ∧
    (∀ int small wide xr, op.kind = .resume int small wide xr → let u := if small then 144 else 288
      let buf := fun k => wordIn seen wide 64 72 k
      s.leaves t g 0 0 (fun y => y.nma = { m with op := none, acc := y.nma.acc, flags := y.nma.flags, sat := y.nma.sat } ∧
        (∀ k, k < u * u →
          (int = true → (accAt y.nma.acc k).toInt = max (-(2 ^ 31 - 1)) (min (2 ^ 31 - 1) (BitVec.ofNat 64 (buf k)).toInt)) ∧
          (int = false → (accAt y.nma.acc k).toNat = (fp32.encode (fp64.decode (buf k))).bits)) ∧
        ∀ r : Fin 9, y.nma.sat[r] = satAdd m.sat[r] ((List.range (u * u)).filter (fun k =>
          k / (32 * u) == r.val && int && decide (2 ^ 31 - 1 < (BitVec.ofNat 64 (buf k)).toInt.natAbs))).length)) ∧
    (∀ out f merge dst wide sc bi act k lo hi delta q, op.kind = .epilogue out f merge dst wide sc bi act k lo hi delta q → out ≠ 3 →
      (out = 2 → 0 < q ∧ q < 2 ^ 36) →
      let n := epiRows out f m.accSmall
      op.nearlyOut x dst n (if merge = true ∧ m.accSmall = false then 2 else 1) →
      let e := epiValue m seen merge wide sc bi act k lo hi
      let block := fun r j => narrowBlock f (((List.range 32).filter (fun k => decide (32 * r + k < u))).map (fun k => e (32 * r + k) j))
      s.leaves t g dst n (fun y => y.nma = { m with op := none, flags := y.nma.flags, sat := y.nma.sat } ∧
        (out ≠ 0 → y.nma.sat = m.sat) ∧
        (out = 1 → ∀ i j, i < u → j < u →
          wordIn (fun r => (y.rowAt r).data) dst 32 144 (u * j + i) = if (fp32.decode (e i j)).isNan then 0x7FC00000 else e i j) ∧
        (out = 2 → ∀ i j, i < u → j < u → let p := u * j + i
          let lim : Int := 2 ^ 62 - 1
          ((lane128 (y.rowAt (dst + p / 128)).data (p % 128)).toNat : Int) = match fp32.decode (e i j) with
            | .nan => 0
            | .inf neg => (if neg then -lim else lim) % (q : Int)
            | .num neg m e => max (-lim) (min lim (nearestInt neg m (e + delta))) % (q : Int)) ∧
        (out = 0 → (∀ r j, r < blockRows m.accSmall → j < u → let p := r * u + j
          let row := (y.rowAt (dst + p / (128 / f.bits))).data.toNat
          let place := p % (128 / f.bits)
          row / 2 ^ (4096 + 8 * place) % 2 ^ 8 = (block r j).scale ∧
          ∀ k, k < 32 → row / 2 ^ (f.bits * (32 * place + k)) % 2 ^ f.bits = (block r j).codes.getD k 0) ∧
          ∀ r : Fin 9, y.nma.sat[r] = satAdd m.sat[r] (if r.val < blockRows m.accSmall then ((List.range u).map (fun j => (block r j).sats)).sum else 0)))) ∧
    (∀ first row tile counter chain i0 nbr, op.kind = .send first row tile counter chain i0 nbr → 1 ≤ nbr → i0 + nbr ≤ blockRows m.accSmall →
      (first = false → m.lastHeader ≠ none) →
      let count := min (u * u) ((i0 + nbr) * 32 * u) - i0 * 32 * u
      s.leaves t g 0 0 (fun y => ∃ (p : ChainPacket) (h : ChainHeader), y.nma = { m with op := none, outbox := m.outbox ++ [p] } ∧
        p.tile = tile ∧ p.counter = counter ∧ p.row = row ∧ p.landed = 0 ∧ p.rows.length = 1 + (count + 143) / 144 ∧
        chainHeader? (p.rows.getD 0 0) = some h ∧ (first = false → m.lastHeader = some h) ∧
        (first = true → h.chainId = chain ∧ h.int = m.accInt ∧ h.small = m.accSmall ∧ h.rescaled = false ∧ h.overflow = false ∧ h.esc = 0 ∧ h.i0.toNat = i0 ∧
          h.nbr.toNat = nbr ∧ h.hops = 0 ∧ (m.accInt = false → h.xr = 0) ∧
          (m.accInt = true → (∃ r, i0 ≤ r ∧ r < i0 + nbr ∧ m.xr.toList.getD r 0 = h.xr) ∧
            ∀ r, i0 ≤ r → r < i0 + nbr → (m.xr.toList.getD r 0).toInt ≤ h.xr.toInt)) ∧
        ∀ k, k < count → let n := i0 * 32 * u + k
          let acc := accAt m.acc n
          let v : Word := BitVec.ofNat 32 (wordIn (fun r => p.rows.getD r 0) 1 32 144 k)
          v.toInt = if first = true ∧ m.accInt = true then rneShiftInt acc.toInt (h.xr.toInt - (m.xr.toList.getD (n / (32 * u)) 0).toInt).toNat else acc.toInt)) ∧
    ∀ row chain i0 nbr h, op.kind = .receive row chain i0 nbr → 1 ≤ nbr → i0 + nbr ≤ blockRows m.accSmall → chainHeader? (seen row) = some h →
      chainOk m h chain i0 nbr = true →
      let start := i0 * 32 * u
      let stop := min (u * u) ((i0 + nbr) * 32 * u)
      let input := fun n => BitVec.ofNat 32 (wordIn seen (row + 1) 32 144 (n - start))
      let old := fun n => accAt m.acc n
      s.leaves t g 0 0 (fun y =>
        y.nma = { m with op := none, acc := y.nma.acc, xr := y.nma.xr, flags := y.nma.flags, sat := y.nma.sat, lastHeader := y.nma.lastHeader } ∧
        (∀ n, n < start ∨ stop ≤ n ∧ n < u * u → accAt y.nma.acc n = old n) ∧
        (m.accInt = false → y.nma.lastHeader = some { h with hops := h.hops + 1 } ∧ y.nma.xr = m.xr ∧ y.dueHalts = x.dueHalts ∧
          ∀ n, start ≤ n → n < stop → (accAt y.nma.acc n).toNat = (fAdd (input n).toNat (old n).toNat).bits) ∧
        (m.accInt = true → ∀ X : Int, h.xr.toInt ≤ X → (∀ r, i0 ≤ r → r < i0 + nbr → (m.xr.toList.getD r 0).toInt ≤ X) →
          (X = h.xr.toInt ∨ ∃ r, i0 ≤ r ∧ r < i0 + nbr ∧ X = (m.xr.toList.getD r 0).toInt) →
          let sum := fun n => rneShiftInt (input n).toInt (X - h.xr.toInt).toNat + rneShiftInt (old n).toInt (X - (m.xr.toList.getD (n / (32 * u)) 0).toInt).toNat
          let big := ∃ n, start ≤ n ∧ n < stop ∧ 2 ^ 31 - 1 < (sum n).natAbs
          let after := fun (esc sat : Bool) (value : Int → Int) =>
            let X' : BitVec 16 := BitVec.ofInt 16 (if esc then X + 4 else X)
            (∀ n, start ≤ n → n < stop → (accAt y.nma.acc n).toInt = value (sum n)) ∧ y.nma.sat = m.sat ∧
            (∀ r : Fin 9, y.nma.xr[r] = if i0 ≤ r.val ∧ r.val < i0 + nbr then X' else m.xr[r]) ∧
            y.nma.flags = m.flags ||| (if esc then 0x40 else 0) ||| (if sat then 0x80 else 0) ∧
            y.nma.lastHeader = some { h with esc := if esc then h.esc + 1 else h.esc, rescaled := h.rescaled || esc, overflow := h.overflow || sat,
                                             xr := X', hops := h.hops + 1 } ∧
            y.dueHalts = x.dueHalts ++ if sat && (s.sees t g).overflowHalt then
              [{ due := (s.sees t g).pipe + 1, seq := op.seq, reason := .accumOverflow, bundle := op.bundle, slot := .m }] else []
          (¬ big → after false false id) ∧ (big → h.esc.toNat < 4 → after true false (fun v => rneShiftInt v 4)) ∧
          (big → 4 ≤ h.esc.toNat → after false true (fun v => max (-(2 ^ 31 - 1)) (min (2 ^ 31 - 1) v)))))

/- Command packets (R325 to R348). -/

/-- Packet c is the next command, passes the state test, and is well formed for opcode `n` with these lengths and inline bits (R325, R332). -/
abbrev Sys2Proof.Machine.State.commands (s : State) (c : Packet) (f : Fetched) (n : Nat) (param reply : Option Nat) (inline : Nat) : Prop :=
  s.offers c f ∧ c.opcode = n ∧ c.fieldsOk param reply inline = true

/-- The command completes with a status, and has changed the device so. -/
def Sys2Proof.Machine.State.completes (s : State) (i : Instr) (f : Fetched) (change : Dev → Dev) (st : Status) (detail : List Byte) : Prop :=
  s.answers i ((change (s.taken f)).complete f false st detail)

/-- The packet of a command row. -/
def Sys2Proof.Instr.packet? : Instr → Option (Packet × Nat)
  | .identify c => some (c, 0x01) | .getFeatures c => some (c, 0x02) | .loadImage c _ _ => some (c, 0x10) | .unloadImage c => some (c, 0x11)
  | .unbindKeyset c => some (c, 0x13) | .stageKeys c => some (c, 0x14) | .retirePage c => some (c, 0x15)
  | .start c => some (c, 0x20) | .stop c => some (c, 0x21) | .abort c => some (c, 0x22) | .resume c => some (c, 0x23) | .setTick c => some (c, 0x24)
  | .openStream c => some (c, 0x30) | .closeStream c => some (c, 0x31) | .runToCount c => some (c, 0x40) | .dumpState c _ => some (c, 0x41)
  | .setDebug c => some (c, 0x42) | .readLog c => some (c, 0x50) | .clearLog c => some (c, 0x51) | .channelTest c _ => some (c, 0x60)
  | .setHash c => some (c, 0x61) | .pkeOpen c => some (c, 0x70) | .pkeClose c => some (c, 0x72) | .sanitize c => some (c, 0x73)
  | .peerConfig c _ => some (c, 0x80) | .reducePlan c _ => some (c, 0x81)
  | _ => none

/-- R332, R333: a command that its state does not admit completes with BAD_PARAM or STATE, and one with a reserved header bit set with BAD_PARAM;
nothing else changes. -/
def Obligations.CommandsTurnedAway : Prop :=
  ∀ (s : State) (i : Instr) (c : Packet) (f : Fetched) (n : Nat), i.packet? = some (c, n) → c.opcode = n → s.dev.host.fetched = [f] → f.packet = c →
    s.dev.host.nextCmd = some f →
    (field c.bits.toNat 10 22 ≠ 0 → s.completes i f (fun d => d) .badParam noDetail) ∧
    (accepts n s.dev.run.state = false →
      s.completes i f (fun d => d) .badParam noDetail ∨ s.completes i f (fun d => d) .state noDetail)

/-- R326 to R329: the record of a command that completes: STATUS, state, opcode, COMMAND_ID, SQ_HEAD and SQID, PHASE, then DETAIL, in the entry at
CQ_TAIL; the tail moves on, PHASE flips as it wraps, an interrupt follows COAL + 1 records, and reserved entries are given back.
R326, R352: a second entry that ACK = 1 reserved and no PENDING record took goes to the records that wait for room. -/
def Obligations.CompletionRecords : Prop :=
  ∀ (d : Dev) (f : Fetched) (wasPending : Bool) (st : Status) (detail : List Byte), (d.ring f.cq).cqEnable = true → (d.ring f.cq).fails ≠ some 0 →
    detail.length = 20 →
    let r := d.ring f.cq
    let d' := d.finalRecord f wasPending st detail
    d.complete f wasPending st detail = (if f.packet.ack = true ∧ wasPending = false then d'.entriesFreed f.cq else d') ∧
    ((∀ n, (d.stream n).isOpen = true → (d.stream n).cq ≠ f.cq) → d.complete f wasPending st detail = d') ∧
    let r' := d'.ring f.cq
    let signals := r.ie = true ∧ r.coal.toNat ≤ r.unsignalled
    ∃ bytes, bytes.length = 32 ∧ byteAt bytes 0 = st.code ∧ byteAt bytes 1 = d.run.state.code ∧ byteAt bytes 2 = f.packet.opcode ∧
      byteAt bytes 3 = r.phase.toNat ∧ leAt bytes 4 4 = f.packet.commandId ∧ leAt bytes 8 2 = f.head.toNat ∧ leAt bytes 10 2 = f.packet.sq.toNat ∧
      bytes.drop 12 = detail ∧
      (d'.host.out = d.host.out ++ [.record f.cq r.cqTail.toNat (r.cqTaken.toNat + 32 * r.cqTail.toNat) bytes] ∨
        signals ∧ d'.host.out = d.host.out ++ [.record f.cq r.cqTail.toNat (r.cqTaken.toNat + 32 * r.cqTail.toNat) bytes, .message r.vector]) ∧
      r'.cqTail = (if r.cqTail.toNat + 1 = ringSize r.cqSize then 0 else r.cqTail + 1) ∧
      (r'.phase = r.phase ↔ r.cqTail.toNat + 1 ≠ ringSize r.cqSize) ∧ r'.used = r.used + 1 ∧
      r'.reserved = r.reserved - (if f.packet.ack = true ∧ wasPending = false then 2 else 1) ∧
      (signals → r'.unsignalled = 0) ∧ (¬ signals → r'.unsignalled = r.unsignalled + 1) ∧
      d' = { d with host := { d.host with rings := d'.host.rings, out := d'.host.out, pba := d'.host.pba } } ∧
      ∀ n, n ≠ f.cq → d'.ring n = d.ring n

/-- R335, R343, R307, R313: IDENTIFY, GET_FEATURES, READ_LOG, CLEAR_LOG, SET_DEBUG and DUMP_STATE. READ_LOG's third DETAIL word where no entry is
returned (log 54), and dumped rows without their poison (log 59), are the model's choice. -/
def Obligations.InformationCommands : Prop :=
  ∀ (s : State) (c : Packet) (f : Fetched),
    (s.commands c f 0x01 none (some 128) 0 → ∃ reply : List Byte, reply.length = 128 ∧
      reply.take 16 = [0x48, 0x58, 0x2D, 0x39, 0x36, 0x34, 0x30, 0x2D, 0x4D, 0x35, 0x30, 0, 0, 0, 0, 0] ∧ byteAt reply 16 = 0xA1 ∧
      byteAt reply 17 = s.dev.pins.moduleId.toNat ∧ byteAt reply 18 = s.dev.host.linkWidth.toNat ∧ byteAt reply 19 = s.dev.host.linkRate.toNat ∧
      leAt reply 20 4 = (if s.dev.sec.fwRunning ∧ s.dev.run.state ≠ .boot then s.dev.sec.fwVersion.toNat else 0) ∧ leAt reply 24 4 = s.dev.sec.fwSvn.toNat ∧ reply.drop 64 = List.replicate 64 0 ∧
      s.completes (.identify c) f (fun d => d.emit (.reply c.replyPtr reply)) .ok noDetail) ∧
    (s.commands c f 0x02 none (some 256) 0 → ∃ reply : List Byte, reply.length = 256 ∧
      (∀ k, k < 64 → leAt reply (4 * k) 4 = (s.dev.readReg (4 * k)).toNat) ∧
      s.completes (.getFeatures c) f (fun d => d.emit (.reply c.replyPtr reply)) .ok noDetail) ∧
    (let l := s.dev.log
     let start := max (c.inl 0 4) (l.next - l.entries.length)
     let n := min (c.inl 4 2) (l.next - start)
     s.commands c f 0x50 none (some (32 * c.inl 4 2)) (inlBytes 0 6) → 1 ≤ c.inl 4 2 → c.inl 4 2 ≤ 4096 →
      s.completes (.readLog c) f (fun d => d.emit (.reply c.replyPtr
          (((l.entries.drop (start - (l.next - l.entries.length))).take n).flatMap LogEntry.bytes))) .ok
        (detailOf [(0, n), (4, start), (8, start + n)])) ∧
    (s.commands c f 0x51 none none 0 →
      s.completes (.clearLog c) f (fun d => { d with log := { d.log with entries := [], ack := d.log.next, lost := [] } }) .ok noDetail) ∧
    (∀ im, s.dev.run.image = some im → im.debug = true → s.commands c f 0x42 none none 1 →
      s.completes (.setDebug c) f (fun d => { d with run := { d.run with hazardNext := (c.inl 0 1).testBit 0 } }) .ok noDetail) ∧
    (∀ bs im, s.dev.run.image = some im → s.commands c f 0x41 (some c.paramLen) (some 0) 0 → dumpBlockOk (some bs) c.paramLen = true →
      (byteAt bs 0 = 0xFF ∨ im.tileMask.getLsbD (byteAt bs 0) = true) →
      (∀ r ∈ dumpRanges bs, ∀ k ∈ rowsFrom r.1 r.2, (s.dev.tile (BitVec.ofNat 6 (byteAt bs 0))).powered k = true) →
      (s.dev.dump bs).length ≤ c.replyLen →
      s.completes (.dumpState c (some bs)) f (fun d => d.emit (.reply c.replyPtr (s.dev.dump bs))) .ok noDetail)

/-- R345 to R347, R310, R311: a run accepted: the device is RUNNING, the run waits for its boundary, and the command pends. -/
def Sys2Proof.Machine.State.runs (s : State) (i : Instr) (f : Fetched) (k : JobKind) (resume : Bool) (target : Option (TileId × Nat × Nat)) (d : Dev) : Prop :=
  s.answers i d ∧ d.run.state = .running ∧ d.run.toBegin = some resume ∧ d.run.resumed = resume ∧ d.run.target = (if resume then none else target) ∧
  d.run.resumable = false ∧ d.run.image = s.dev.run.image ∧ d.host.jobs = s.dev.host.jobs ++ [{ kind := k, cmd := f }] ∧
  ((s.dev.ring f.cq).fails ≠ some 0 → d.log.next = s.dev.log.next + 1) ∧ d.mem = s.dev.mem ∧ d.tick = s.dev.tick ∧
  d.peer = { s.dev.peer with plans := if resume then s.dev.peer.plans else s.dev.peer.plans.map (fun p => p.map (fun x => { x with digestLogged := [] })) } ∧
  d.sec = s.dev.sec ∧ d.pke = s.dev.pke

/-- R71, R345: what a new run clears in a tile, of the image or not, its registers and scratchpad staying. -/
def Sys2Proof.Machine.startsAt (x y : Tile) : Prop :=
  y.halted = false ∧ y.haltReason = .none ∧ y.haltMore = false ∧ y.haltSeq = 0 ∧ y.mveFlags = 0 ∧ y.tu.count = 0 ∧ y.nma.flags = 0 ∧ y.nma.lastHeader = none ∧
  y.sent.exceed = 0 ∧ y.sent.drop = 0 ∧ y.sent.fault = 0 ∧ y.dma.count = 0 ∧ y.dma.errKind = 0 ∧ y.arrival = Vector.replicate 64 0 ∧
  y.ceEngine = 0 ∧ y.ceOther = 0 ∧ y.poisonLatch = false ∧ (∀ r ∈ y.rings.toList, r.armed = false ∧ r.leftover = false) ∧
  y.v = x.v ∧ y.k = x.k ∧ y.s = x.s ∧ y.a = x.a ∧ y.l = x.l ∧ y.h = x.h ∧ y.scratch = x.scratch ∧ y.imem = x.imem ∧ y.mctx = x.mctx ∧ y.nma.acc = x.nma.acc

/-- R345 to R347, R310: START, RESUME and RUN_TO_COUNT of an image whose key sets are resident and whose plan the budget covers; STOP in RUNNING and in
STOPPING.
R348, R270, R167, R193: ABORT stops the tiles at once (log 5). While what channels and ports had accepted has still to land it pends (log 46); else the device
enters HALTED, and each START, RESUME, STOP and RUN_TO_COUNT that waited completes with ABORTED and its own DETAIL, then ABORT itself. A tile that had not
halted records ABORTED, and one that had sets MORE; that HALT_ADDR then names its program counter is the model's reading (log 42), and so is the DETAIL of a
STOP that ABORT ends. -/
def Obligations.RunAndAbortCommands : Prop :=
  (∀ (s : State) (c : Packet) (f : Fetched) (im : Image), s.dev.run.image = some im →
     (s.dev.keysResident im = true → im.peak ≤ s.dev.power.budget →
       let fresh := fun (d : Dev) => ∀ t, startsAt (s.dev.tile t) (d.tile t)
       (s.commands c f 0x20 none none 0 → ∃ d : Dev, s.runs (.start c) f .start false none d ∧ fresh d) ∧
       (s.commands c f 0x23 none none 0 → s.dev.run.resumable = true → ∃ d : Dev, s.runs (.resume c) f .resume true none d ∧ d.tiles = s.dev.tiles) ∧
       (let t := BitVec.ofNat 6 (c.inl 0 1)
        s.commands c f 0x40 none none (inlBytes 0 1 + inlBytes 4 8) → c.inl 0 1 < 64 → s.dev.countOk t (c.inl 4 4) (c.inl 8 4) = true →
         ∃ d : Dev, s.runs (.runToCount c) f (.runToCount t) false (some (t, c.inl 4 4, c.inl 8 4)) d ∧ fresh d)) ∧
     (s.commands c f 0x21 none none 0 →
       (s.dev.run.state = .stopping → s.answers (.stop c) ((s.taken f).becomePending f .stop)) ∧
       (s.dev.run.ending ≠ none → s.answers (.stop c) ((s.taken f).becomePending f .stop)) ∧
       (s.dev.run.state = .running → s.dev.run.ending = none → ∃ d : Dev, s.answers (.stop c) d ∧ d.run.state = .stopping ∧
         d.host.jobs = s.dev.host.jobs ++ [{ kind := .stop, cmd := f }] ∧ d.tiles = s.dev.tiles ∧ d.mem = s.dev.mem ∧
         ((s.dev.ring f.cq).fails ≠ some 0 → d.log.next = s.dev.log.next + 1)))) ∧
  (∀ (s : State) (c : Packet) (f : Fetched), s.commands c f 0x22 none none 0 →
     let waits := (s.taken f).becomePending f (.abort s.dev.tick.runTick s.dev.tick.cycle)
     let stopped := waits.stopTiles .abort
     (s.dev.run.ending ≠ none → s.answers (.abort c) waits) ∧
     (s.dev.run.ending = none → stopped.stillLands = true → s.answers (.abort c) stopped ∧ stopped.run.ending = some .abort) ∧
     (s.dev.run.ending = none → stopped.stillLands = false → ∃ e : Dev, e.host.jobs = waits.host.jobs ∧ e.run.state = .halted ∧
       e.run.lastTick = s.dev.run.lastTick ∧
       let e1 := e.finishAll (fun k => match k with | .start | .resume => true | _ => false) .aborted (fun _ => noDetail)
       let e2 := e1.finishAll (fun k => match k with | .stop => true | _ => false) .aborted
         (fun _ => e1.stopDetail (e1.run.lastTick.getD 0xFFFFFFFF))
       let e3 := e2.finishAll (fun k => match k with | .runToCount _ => true | _ => false) .aborted
         (fun j => match j.kind with | .runToCount t => e2.countDetail t | _ => noDetail)
       let d := e3.finishAll (fun k => match k with | .abort _ _ => true | _ => false) .aborted
         (fun j => match j.kind with | .abort n cycle => detailOf [(0, n % 2 ^ 32), (4, cycle)] | _ => noDetail)
       s.answers (.abort c) d ∧ d.run.state = .halted ∧ d.run.resumable = false ∧ d.run.target = none ∧ d.run.toBegin = none ∧ d.tick.inRun = false ∧
       (∀ j ∈ d.host.jobs, j ∈ s.dev.host.jobs ∧ match j.kind with | .start | .resume | .stop | .abort _ _ | .runToCount _ => False | _ => True) ∧
       (∀ p ∈ d.peer.plans.toList, ∀ x, p = some x → x.instances = []) ∧
       ∀ t, s.dev.inImage t = true →
         let x := s.dev.tile t
         let y := d.tile t
         y.dma.queues = Vector.replicate 4 [] ∧ (∀ r ∈ y.rings.toList, r.armed = false) ∧ y.expands = [] ∧ y.arrival = Vector.replicate 64 0 ∧
         (x.halted = true → y.haltReason = x.haltReason ∧ y.haltMore = true) ∧
         (x.halted = false → y.haltReason = .aborted ∧ y.haltAddr = BitVec.ofNat 14 x.pc)))

/-- R264, R265, R336, R337, R403: LOAD_IMAGE of an image that passes its checks, signed or not, and of one whose signature does not verify or is missing;
and UNLOAD_IMAGE. -/
def Obligations.ImageCommands : Prop :=
  ∀ (s : State) (c : Packet) (f : Fetched),
    (∀ (bs img : List Byte) (l : Loaded), s.commands c f 0x10 (some c.paramLen) none 0 → loadBlockOk (some bs) c.paramLen = true →
      s.dev.host.jobs = [] → (loadLen (leNat bs) + 65087) / 65088 ≤ s.dev.freeKeyPages → img.length = loadLen (leNat bs) →
      (secLen (leNat img) 10 ≠ 0 → s.dev.pke.session = none) → s.dev.imageSignature img (leNat img) = true → s.dev.checkImage (leNat img) img.length (leNat bs) (sha384 img) = .ok l →
      l.image.planPeak ≤ s.dev.power.budget →
      ∃ d : Dev, s.answers (.loadImage c (some bs) (some img)) (d.complete f false .ok (detailOf [(4, 0xFFFFFFFF)])) ∧
        d.run.state = .loaded ∧ d.run.image = some l.image ∧ d.run.resumable = false ∧ d.tiles = l.tiles ∧ d.mem.hashNext = none ∧
        d.power.planPeak = l.image.planPeak ∧ (∀ g, (d.group g).members = l.image.members g) ∧
        (∃ rest, d.tick = { s.dev.tick with next := some (l.image.period, rest) }) ∧ d.keys = s.dev.keys ∧ d.peer = s.dev.peer) ∧
    (∀ (bs img : List Byte), s.commands c f 0x10 (some c.paramLen) none 0 → loadBlockOk (some bs) c.paramLen = true → s.dev.host.jobs = [] →
      (loadLen (leNat bs) + 65087) / 65088 ≤ s.dev.freeKeyPages → img.length = loadLen (leNat bs) → (secLen (leNat img) 10 ≠ 0 → s.dev.pke.session = none) →
      s.dev.imageSignature img (leNat img) = false → s.answers (.loadImage c (some bs) (some img))
        ((if secLen (leNat img) 10 = 0 then s.taken f else (s.taken f).firmwarePke).complete f false .authFail (detailOf [(0, 1), (4, 0xFFFFFFFF)]))) ∧
    (∀ im, s.dev.run.image = some im → s.commands c f 0x11 none none 0 →
      ∃ d : Dev, s.answers (.unloadImage c) (d.complete f false .ok noDetail) ∧ d.run.state = .ready ∧ d.run.image = none ∧ d.run.resumable = false ∧
        (∀ n, (d.stream n).isOpen = false) ∧ (∀ p ∈ d.peer.plans.toList, p = none) ∧ (∀ g, (d.group g).members = []) ∧
        (∀ t, im.tileMask.getLsbD t.toNat = true → (d.tile t).scratch = [] ∧ (d.tile t).segments = 0 ∧ (d.tile t).v = (State.reset.dev.tile t).v ∧
          (d.tile t).s = (State.reset.dev.tile t).s ∧ (d.tile t).nma.acc = []) ∧
        d.mem = s.dev.mem ∧ d.keys = s.dev.keys)

/-- R203, R206, R213, R214, R227, R207, R340, R341: SET_TICK and SET_HASH, CHANNEL_TEST and its end, RETIRE_PAGE. The cap of 1,024 retired pages is the
spec's; what a changed KEY_PAGES leaves of the data region is undefined. That what is undefined reads as a free value without poison, and which of an
uncorrectable codeword and a mismatch CH_ERR shows (log 3), that RETIRE_PAGE of the far tier ignores CHANNEL (log 80), and that tested pages of the key region
keep what they hold and PASSES of BANDWIDTH stands at 255 (log 89) are the model's choice. -/
def Obligations.MemoryCommands : Prop :=
  ∀ (s : State) (c : Packet) (f : Fetched),
    (let p := c.inl 4 4
     s.commands c f 0x24 none none (3 + inlBytes 4 4) → 40000 ≤ p → p ≤ 40000000 → p % 8000 = 0 →
      (∀ im, s.dev.run.image = some im → im.period = p) → (∀ j ∈ s.dev.host.jobs, j.kind ≠ .setTick) →
      s.answers (.setTick c) (({ s.taken f with tick := { s.dev.tick with next := some (p, (c.inl 0 1).testBit 0, (c.inl 0 1).testBit 1) } }).becomePending f
        .setTick)) ∧
    (let pages := c.inl 12 4
     s.commands c f 0x61 none none (inlBytes 0 8 + 2 ^ 64 + inlBytes 12 4) → pages % 1024 = 0 → pages ≤ 32768 → s.dev.testing = false →
      (pages ≠ s.dev.mem.keyPages → s.dev.nearCopies = false ∧ ∀ e ∈ s.dev.keys.valid, e.far = true) →
      ∃ m, s.completes (.setHash c) f (fun d => { d with mem := m }) .ok noDetail ∧ m.keyPages = pages ∧
        m.hashNext = some (BitVec.ofNat 64 (c.inl 0 8), (c.inl 8 1).testBit 0) ∧ m.hashSeed = s.dev.mem.hashSeed ∧ m.hashRows = s.dev.mem.hashRows ∧
        m.far = s.dev.mem.far ∧ m.channels = s.dev.mem.channels ∧ m.retiredNear = s.dev.mem.retiredNear ∧
        (pages = s.dev.mem.keyPages → ∀ p o, m.peekNear p o = s.dev.mem.peekNear p o) ∧
        (pages ≠ s.dev.mem.keyPages → m.remap = [] ∧ ∀ p o, pageLocal p < 40960 - pages → o < 113 → p ∉ m.retiredNear →
          m.peekNear p o = { data := Config.nearUndefined (s.dev.mem.epochs + 1) (p * 113 + o) })) ∧
    (∀ b : List Byte, let mask := testMask b
      s.commands c f 0x60 (some 64) none 0 → testBlockOk b = true → s.dev.testing = false →
      (destructive (testPattern b) = true → s.dev.keys.runInRange mask (testFirst b) (testPages b) = false) →
      ∃ m, s.answers (.channelTest c (some b)) (({ s.taken f with mem := m }).becomePending f
          (.channelTest mask (BitVec.ofNat 8 (testPattern b)) (testFirst b) (testPages b) (leAt b 48 4))) ∧
        m = { s.dev.mem with channels := m.channels } ∧
        ∀ n, n < 256 → (mask.getLsbD n = false → m.channel n = s.dev.mem.channel n) ∧
          (mask.getLsbD n = true → (m.channel n).state = 3 ∧ (m.channel n).tgBusy = true ∧ (m.channel n).tgMismatch = 0 ∧
            (m.channel n).tgPattern = BitVec.ofNat 4 (testPattern b))) ∧
    (∀ (j : Job) (mask : BitVec 256) (pattern : Byte) (first pages passes : Nat) (results : List TestResult) (micros : Word), s.dev.host.jobs = [j] →
      j.kind = .channelTest mask pattern first pages passes →
      let inRange := fun (p : Nat) => mask.getLsbD (pageChannel p) = true ∧ first ≤ pageLocal p ∧ pageLocal p < first + pages
      let rounds := match pattern.toNat with | 1 => 1 | 3 => 4 | 7 => passes | _ => 2
      ((∀ r ∈ results, r.ue = []) →
        ∃ (m : Mem) (count : Nat) (sum : Nat), s.answers (.channelTestComplete results micros)
            (({ s.dev with mem := m }).finish j .ok (detailOf [(0, count), (4, sum), (8, micros.toNat)])).pumpAll ∧
          sum < 2 ^ 32 ∧ (destructive pattern.toNat = false → count = 0 ∧ sum = 0) ∧
          (destructive pattern.toNat = true → (results.map (·.channel)).Nodup →
            (count = 0 ↔ ∀ r ∈ results, mask.getLsbD r.channel.toNat = true → r.mismatches = 0) ∧
            ∀ r ∈ results, mask.getLsbD r.channel.toNat = true → (m.channel r.channel.toNat).tgMismatch = r.mismatches) ∧
          (∀ n, n < 256 → (mask.getLsbD n = false → m.channel n = s.dev.mem.channel n) ∧
            (mask.getLsbD n = true → (m.channel n).state = 2 ∧ (m.channel n).tgBusy = false ∧
              (m.channel n).tgPasses = BitVec.ofNat 8 (min 255 rounds) ∧ (destructive pattern.toNat = false → (m.channel n).tgMismatch = 0) ∧
              (s.dev.mem.retiredNear = [] → (m.channel n).retiredHits = (s.dev.mem.channel n).retiredHits) ∧
              ∀ p, s.dev.mem.retiredNear = [p] → pageChannel p = n → inRange p → (m.channel n).retiredHits =
                satAdd (s.dev.mem.channel n).retiredHits (113 * rounds))) ∧
          (destructive pattern.toNat = false → m.near = s.dev.mem.near) ∧
          (destructive pattern.toNat = true → ∀ p o, o < 113 → p ∉ s.dev.mem.retiredNear →
            (inRange p → pageLocal p < s.dev.mem.dataPages → m.peekNear p o = { data := Config.nearUndefined (s.dev.mem.epochs + 1) (p * 113 + o) }) ∧
            (s.dev.mem.wf = true → ¬ inRange p ∨ s.dev.mem.dataPages ≤ pageLocal p → m.peekNear p o = s.dev.mem.peekNear p o))) ∧
      ∀ (r : TestResult) (page o : Nat) (ue : BitVec 32), let p := 40960 * r.channel.toNat + page
        results = [r] → r.ue = [(page, o, ue)] → ue ≠ 0 → destructive pattern.toNat = false → page < 40960 → inRange p → o < 113 →
        p ∉ s.dev.mem.retiredNear → s.dev.mem.wf = true →
        ∃ (e : Dev) (detail : List Byte), s.answers (.channelTestComplete results micros) (e.finish j .ok detail).pumpAll ∧
          e.log.next = s.dev.log.next + 1 ∧ e.run = s.dev.run ∧ e.tiles = s.dev.tiles ∧
          (e.mem.peekNear p o).poison = (s.dev.mem.peekNear p o).poison ||| ue ∧ (e.mem.peekNear p o).data = (s.dev.mem.peekNear p o).data ∧
          (∀ k, k ≠ p * 113 + o → Store.read e.mem.nearDefault e.mem.near k = Store.read s.dev.mem.nearDefault s.dev.mem.near k) ∧
          let x := e.mem.channel r.channel.toNat
          x.state = 2 ∧ x.ue = satAdd (s.dev.mem.channel r.channel.toNat).ue ((List.range 32).countP (fun i => ue.getLsbD i)) ∧
          (r.mismatches = 0 → (x.errPage, x.errSector, x.errKind) = (BitVec.ofNat 16 page, BitVec.ofNat 7 o, 1))) ∧
    (let far := c.inl 0 1 = 1
     let p := if far then c.inl 4 4 else 40960 * c.inl 1 1 + c.inl 4 4
     let key := (decide far, p)
     s.commands c f 0x15 none none (inlBytes 0 2 + inlBytes 4 4) → c.inl 0 1 < 2 → (far → p < s.dev.mem.farPages) → (¬ far → c.inl 4 4 < 40960) →
      s.dev.testing = false →
      (s.dev.run.state = .loaded → ∀ e ∈ s.dev.keys.valid, e.includes (decide far) p = true → s.dev.streamsUse e = false) →
      (key ∈ s.dev.flash.retired ∨ s.dev.flash.retired.length < 1024) →
      ∃ (d : Dev) (logical : Nat), s.answers (.retirePage c) (d.complete f false .ok (detailOf [(0, logical), (4, d.flash.retired.length)])) ∧
        key ∈ d.flash.retired ∧ (∀ k, k ∈ d.flash.retired ↔ k = key ∨ k ∈ s.dev.flash.retired) ∧
        (if far then p ∈ d.mem.retiredFar else p ∈ d.mem.retiredNear) ∧ (∀ e ∈ d.keys.valid, e.includes (decide far) p = false) ∧
        (∀ e ∈ s.dev.keys.valid, e.includes (decide far) p = false → e ∈ d.keys.valid) ∧ d.mem.near = s.dev.mem.near ∧ d.mem.far = s.dev.mem.far ∧
        d.run = s.dev.run ∧ d.tiles = s.dev.tiles)

/-- R350, R354: OPEN_STREAM, and CLOSE_STREAM with and without records that wait. -/
def Obligations.StreamCommands : Prop :=
  ∀ (s : State) (c : Packet) (f : Fetched), let n := BitVec.ofNat 6 (c.inl 0 1)
    s.dev.closing n = false →
    (s.commands c f 0x30 none none (inlBytes 0 23) → openRanges c = true → (s.dev.stream n).isOpen = false → (s.taken f).openOk c = true →
      ∃ x : Stream, s.completes (.openStream c) f (fun d => d.setStream n x) .ok noDetail ∧ x.isOpen = true ∧ x.output = (c.inl 1 1).testBit 0 ∧
        x.notify = (c.inl 1 1).testBit 1 ∧ x.region = c.inl 2 1 ∧ x.cq.toNat = c.inl 3 1 ∧ x.first = c.inl 4 4 ∧ x.sectors = c.inl 8 4 ∧
        x.slots = c.inl 12 2 ∧ x.period = c.inl 14 2 ∧ x.phase = c.inl 16 4 ∧ x.hold = c.inl 20 2 ∧ x.source.toNat = c.inl 22 1 ∧
        x.hostCount = 0 ∧ x.devCount = 0 ∧ x.backlog = [] ∧
        (x.dbErr, x.starvedCount, x.lappedCount) = ((s.dev.stream n).dbErr, (s.dev.stream n).starvedCount, (s.dev.stream n).lappedCount)) ∧
    (s.commands c f 0x31 none none (inlBytes 0 1) → c.inl 0 1 < 64 → (s.dev.stream n).isOpen = true →
      ((s.dev.stream n).backlog = [] →
        s.completes (.closeStream c) f (fun d => d.setStream n { s.dev.stream n with isOpen := false }) .ok
          (detailOf [(0, (s.dev.stream n).devCount.toNat)])) ∧
      ((s.dev.stream n).backlog ≠ [] → ((s.taken f).ring (s.dev.stream n).cq).room = 0 →
        s.answers (.closeStream c) ((s.taken f).becomePending f (.closeStream n))))

/-- R338 to R340, R403, R411: BIND_KEYSET of a set whose signature, where it has one or needs one, does not verify, and of one that passes its checks; R174,
R175, R179, R180: the end of its copy, with what its pages then hold; UNBIND_KEYSET and STAGE_KEYS. Where runs are placed is free (log 29). -/
def Obligations.KeyCommands : Prop :=
  ∀ (s : State) (c : Packet) (f : Fetched),
    (∀ (b : List Byte) (places : List Nat), let m := bindTable b
      let base := if bindSigned b then (s.taken f).firmwarePke else s.taken f
      let passes := ((∃ o, s.dev.sec.owner = some o ∧ o.policy.getLsbD 1 = true) → bindSigned b = true) ∧
        (bindSigned b = true → sectionVerifies s.dev.sec.owner (b.drop (b.length - 104)) (b.take (b.length - 104)) = true)
      s.commands c f 0x12 (some c.paramLen) none 0 → b.length = c.paramLen → 32 ≤ b.length → bindLen b = b.length → s.dev.host.jobs = [] →
      (bindSigned b = true → s.dev.pke.session = none) →
      (¬ passes → s.answers (.bindKeyset c (some b)) (base.complete f false .authFail (detailOf [(1, 0xFF), (4, 0xFFFF), (12, s.dev.keys.used)]))) ∧
      (passes → tableFails b m = none → s.dev.dirCheck b m = none → s.dev.bindSpace b m = some places →
      ∃ dir, s.answers (.bindKeyset c (some b)) (({ base with free := s.dev.free + 1 }).becomePending f (.bind m.keyset (bindFar b) m (bindDnum b) dir [])) ∧
        dir.length = bindDigits b ∧ ∀ k, k < bindDigits b → ∃ e, dir[k]? = some e ∧ e.1.toNat = byteAt b (bindDirAt b + 64 * k) ∧
          e.2.1.toNat = leAt b (bindDirAt b + 64 * k + 4) 4 ∧ e.2.2.1.toNat = byteAt b (bindDirAt b + 64 * k + 1) ∧ some e.2.2.2.2 = places[k]?)) ∧
    (∀ (j : Job) (id : Word) (far : Bool) (m : ModTable) (dnum : Nat) (dir : List (BitVec 4 × BitVec 18 × BitVec 4 × BitVec 256 × Nat))
        (page : Nat → List Byte), s.dev.host.jobs = [j] → j.kind = .bind id far m dnum dir [] → j.begun = [] → s.dev.running = false →
      (far = false → s.dev.held = [] ∧ s.dev.quietWindow = true ∧ s.dev.power.short = false ∧ ∀ n, n < 256 → s.dev.refreshing n = false ∧ s.dev.linkHeld [4 + n / 64] = false) →
      (far = true → s.dev.mem.farDown = 0) → Store.wf (fun _ => none) s.dev.keys.krt = true → s.dev.keys.used + dir.length ≤ 65536 →
      (∀ k e, k < dir.length * m.runPages → dir[k / m.runPages]? = some e → pageFails m dnum e.1 e.2.1 e.2.2.1 (some (page k)) = 0) →
      ∃ d : Dev, s.answers (.bindCopyComplete ((List.range (dir.length * m.runPages)).map (fun k => (k, some (page k))))) (d.finish j .ok (detailOf [(1, 0xFF), (4, 0xFFFF), (12, d.keys.used)])).pumpAll ∧
        (d.keys.set? m.keyset).isSome = true ∧ (∀ x, s.dev.keys.set? m.keyset = some x → d.keys.set? m.keyset = some x) ∧
        (∀ e ∈ dir, ∃ x ∈ d.keys.valid, x.keyset = m.keyset ∧ x.kind = e.1 ∧ x.galois = e.2.1 ∧ x.digit = e.2.2.1 ∧ x.seed = e.2.2.2.1 ∧ x.far = far) ∧
        (∀ x ∈ s.dev.keys.valid, x ∈ d.keys.valid) ∧
        (let place := fun k e => e.2.2.2.2 + k % m.runPages
         let at_ := fun (k : Nat) (e : BitVec 4 × BitVec 18 × BitVec 4 × BitVec 256 × Nat) (o : Nat) =>
           if far then d.mem.peekFar (113 * place k e + o) else d.mem.peekNear (linearPhys (place k e)) o
         let chunks := if m.logN = 17 then 16 else if m.logN = 16 then 8 else if m.logN = 15 then 4 else if m.logN = 14 then 2 else 1
         let pos := fun k => k % m.runPages / chunks
         s.dev.mem.wf = true → 12 ≤ m.logN.toNat → m.logN.toNat ≤ 17 →
         (∀ k k' e e', k < k' → k' < dir.length * m.runPages → dir[k / m.runPages]? = some e → dir[k' / m.runPages]? = some e' →
           if far then place k e ≠ place k' e' else linearPhys (place k e) ≠ linearPhys (place k' e')) →
         ∀ k e, k < dir.length * m.runPages → dir[k / m.runPages]? = some e →
           (if far then place k e ∉ s.dev.mem.retiredFar else linearPhys (place k e) ∉ s.dev.mem.retiredNear) →
           (at_ k e 0).data.toNat = (0x31504B48 + m.keyset.toNat * 2 ^ 32 + e.1.toNat * 2 ^ 64 + e.2.2.1.toNat * 2 ^ 72 + dnum * 2 ^ 80 +
             (if pos k < m.limbs.length then pos k else 64 + pos k - m.limbs.length) * 2 ^ 88 + e.2.1.toNat * 2 ^ 96 +
             (if m.logN = 12 then 0 else 64 * (k % m.runPages % chunks)) * 2 ^ 128 + (if m.logN = 12 then 32 else 64) * 2 ^ 144 + m.logN.toNat * 2 ^ 152 +
             (e.2.2.2.1.toNat % 2 ^ 64) * 2 ^ 160) % 2 ^ 4608 ∧ (at_ k e 0).poison = 0 ∧
           ∀ o, o < (if m.logN = 12 then 32 else 64) → at_ k e (o + 1) = { data := sectorOfBytes (((page k).drop (576 * (o + 1))).take 576) }) ∧
        d = { s.dev with mem := { s.dev.mem with near := d.mem.near, far := d.mem.far, channels := d.mem.channels }, keys := { s.dev.keys with krt := d.keys.krt, bound := d.keys.bound }
                         free := s.dev.free + 1 }) ∧
    (let id := BitVec.ofNat 32 (c.inl 0 4)
     s.commands c f 0x13 none none (inlBytes 0 4) → s.dev.keysetBusy id = false → (s.dev.keys.set? id).isSome = true →
      ((s.dev.run.state = .loaded ∨ s.dev.running = true) → s.dev.declares id = false ∧ s.dev.planNames id = false) →
      ∃ k : Keys, s.completes (.unbindKeyset c) f (fun d => { d with keys := k }) .ok noDetail ∧ k.set? id = none ∧
        (∀ e ∈ k.valid, e.keyset ≠ id) ∧ (∀ e ∈ s.dev.keys.valid, e.keyset ≠ id → e ∈ k.valid) ∧
        (∀ e ∈ s.dev.keys.valid, e.keyset = id → ∃ x, some x ∈ k.krt.map (·.2) ∧ x = { e with valid := false, seed := 0 }) ∧
        (∀ p ∈ k.krt, ∀ x, p.2 = some x → x.keyset = id → x.seed = 0) ∧
        k = { s.dev.keys with krt := k.krt, bound := k.bound }) ∧
    (let id := BitVec.ofNat 32 (c.inl 0 4)
     let far := (c.inl 4 1).testBit 0
     let moves := (s.dev.stageNamed c).filter (fun e => e.2.far != far)
     s.commands c f 0x14 none none (inlBytes 0 7 + inlBytes 8 4) → c.inl 4 1 < 4 → c.inl 8 4 < 2 ^ 18 →
      ((c.inl 4 1).testBit 1 = true → c.inl 5 2 = 0 ∧ c.inl 8 4 = 0) →
      ((c.inl 4 1).testBit 1 = false → 1 ≤ c.inl 5 1 ∧ c.inl 5 1 ≤ 3 ∧ (c.inl 6 1 < 16 ∨ c.inl 6 1 = 255)) → s.dev.host.jobs = [] → (s.dev.keys.set? id).isSome = true → moves ≠ [] →
      (far = true → 0 < s.dev.mem.farPages) → ∀ places : List Nat, placeRuns (s.dev.keySpace far).1 (s.dev.keySpace far).2 s.dev.freeValue (s.dev.busyRuns far)
        (moves.map (fun e => e.2.pages.toNat)) = some places →
      s.answers (.stageKeys c) (({ s.taken f with free := s.dev.free + 1 }).becomePending f (.stage id far ((moves.map Prod.fst).zip places) [])))

/-- R359, R365, R367, R374, R415, R416: PEER_CONFIG and its timeout, REDUCE_PLAN, SANITIZE, its end with the log it leaves, and a write of it that fails. What hardware has set
in REDUCE_STATUS in the Nucleus cycle of an install stays (R7). That DEVICE_FAULT comes from firmware (log 34) is the model's reading; that RETRAINS and BAD_PKT last through a PEER_CONFIG, and REPLAYS does not, is the
model's choice (log 35), and so is it that the far-tier pages counted leave out the retired ones (log 62). -/
def Obligations.PeerAndSanitizeCommands : Prop :=
  ∀ (s : State) (c : Packet) (f : Fetched),
    (∀ b : List Byte, let cfg := peerCfgOf b
      s.commands c f 0x80 (some 32) none 0 → peerBlockOk b = true → cfg.ok s.dev.pins.moduleId.toNat = true →
      let ports := s.dev.peer.ports.mapIdx (fun k p =>
        ({ state := if cfg.enable.getLsbD k then .training else .disabled, retrains := p.retrains, badPkt := p.badPkt } : Port))
      let set := fun (d : Dev) => { d with peer := { d.peer with config := some cfg, ports := ports } }
      (cfg.enable = 0 → s.completes (.peerConfig c (some b)) f set .ok noDetail) ∧
      (cfg.enable ≠ 0 → let d := set (s.taken f)
        s.answers (.peerConfig c (some b)) { d with host := { d.host with jobs := d.host.jobs ++ [{ kind := .peerConfig, cmd := f }] } })) ∧
    (∀ j : Job, j.kind = .peerConfig → s.dev.host.jobs = [j] → s.dev.host.fetched = [] →
      s.answers .peerConfigTimeout (s.dev.finish j .ok (detailOf [(0, (s.dev.port 0).state.code), (1, (s.dev.port 1).state.code),
        (2, (s.dev.port 2).state.code), (3, (s.dev.port 3).state.code),
        (4, (s.dev.port 0).slow.toNat + 2 * (s.dev.port 1).slow.toNat + 4 * (s.dev.port 2).slow.toNat + 8 * (s.dev.port 3).slow.toNat)]))) ∧
    (∀ (b : List Byte) (im : Image), s.commands c f 0x81 (some c.paramLen) none 0 → b.length = c.paramLen → planBlockOk b = true →
      s.dev.run.image = some im → s.dev.planOk im b = true →
      ∃ p : Peer, s.completes (.reducePlan c (some b)) f (fun d => { d with peer := p }) .ok noDetail ∧
        (∃ x, p.plans.toList.getD (planId b) none = some x ∧ x.block = b ∧ x.digest.toNat = leAt (sha384 b) 0 4 ∧ x.instances = []) ∧
        (let n := planId b
         let y := p.status.toList.getD n {}
         let marked := fun (x : Nat × Nat × Word) => s.dev.tick.running = true ∧ sameNucleus x.1 s.dev.tick.wall = true ∧ x.2.1 = 0x1200 + 4 * n
         ((∀ x ∈ s.dev.fresh, ¬ marked x) → y = {}) ∧
         ∀ x ∈ s.dev.fresh, marked x → (x.2.2.getLsbD 1 = true → y.missing = true) ∧ (x.2.2.getLsbD 2 = true → y.late = true) ∧
           (x.2.2.getLsbD 3 = true → y.digest = true) ∧ (x.2.2.getLsbD 4 = true → y.backupUsed = true) ∧ (x.2.2.getLsbD 16 = true → y.latePkts ≠ 0)) ∧
        (∀ n, n ≠ planId b → p.plans.toList.getD n none = s.dev.peer.plans.toList.getD n none ∧
          p.status.toList.getD n {} = s.dev.peer.status.toList.getD n {}) ∧ p.ports = s.dev.peer.ports ∧ p.config = s.dev.peer.config) ∧
    (s.commands c f 0x73 none none 1 → s.dev.host.jobs = [] →
      ∃ d : Dev, s.answers (.sanitize c) d ∧ d.run.state = .sanitizing ∧ d.flash.sanitize = some ((c.inl 0 1).testBit 0) ∧
        d.host.jobs = [{ kind := .sanitize ((c.inl 0 1).testBit 0) (s.dev.run.state == .faulted), cmd := f }] ∧ d.pke.mem = [] ∧ d.pke.session = none ∧
        d.keys.bound = [] ∧ d.keys.valid = [] ∧ (∀ e ∈ d.keys.krt, ∀ x, e.2 = some x → x.seed = 0) ∧
        ((s.dev.run.state = .loaded ∨ s.dev.run.state = .halted) → d.run.image = none) ∧ (∀ p ∈ d.peer.plans.toList, p = none) ∧ d.mem = s.dev.mem) ∧
    ∀ (ms : Word) (far : Bool), s.dev.run.state = .sanitizing → s.dev.flash.sanitize = some far →
      (let near := 10485760 - s.dev.mem.retiredNear.length
       let mapped := s.dev.mem.farPages - (s.dev.mem.retiredFar.filter (fun p => decide (p < s.dev.mem.farPages))).length
       ∃ d : Dev, (s.dev.host.jobs = [] → s.answers (.sanitizeComplete ms false) d.pumpAll) ∧
        (∀ j x y, s.dev.host.jobs = [j] → j.kind = .sanitize x y → s.answers (.sanitizeComplete ms false)
          (d.finish j .ok (detailOf [(0, near), (4, if far then mapped else 0), (8, ms.toNat)])).pumpAll) ∧
        d.host.jobs = s.dev.host.jobs ∧ d.run.state = (if s.dev.pins.faultCause = 0 then .ready else .faulted) ∧
        d.flash.sanitize = none ∧ d.mem.near = [] ∧ d.mem.remap = [] ∧ d.sec.drbg = 1 ∧ d.sec.reseeds = 0 ∧
        (∀ p o, p ∉ d.mem.retiredNear → d.mem.peekNear p o = {}) ∧ (far = true → ∀ x, x / 113 ∉ d.mem.retiredFar → d.mem.peekFar x = {}) ∧
        (far = false → d.mem.far = s.dev.mem.far) ∧
        d.log.ack = s.dev.log.next ∧ d.log.next = s.dev.log.next + 2 ∧ d.log.lost = [] ∧
        (∃ a b : LogEntry, d.log.entries = [a, b] ∧
          (a.source = 0x44 ∧ a.code = 0x09 ∧ a.severity = 1 ∧ a.data = logData [(16, near), (20, if far then mapped else 0)]) ∧
          b.source = 0x44 ∧ b.code = 0x03 ∧ b.severity = 0 ∧ b.data = logData [(16, 7), (17, d.run.state.code), (18, 0x73)]) ∧
        (∀ t, (d.tile t).scratch = [] ∧ (d.tile t).v = (State.reset.dev.tile t).v ∧ (d.tile t).k = (State.reset.dev.tile t).k ∧
          (d.tile t).s = (State.reset.dev.tile t).s ∧ (d.tile t).a = (State.reset.dev.tile t).a ∧ (d.tile t).h = (State.reset.dev.tile t).h ∧
          (d.tile t).nma.acc = [] ∧ (d.tile t).streams = [] ∧ (d.tile t).dma.descriptors = [])) ∧
      ∃ d e : Dev, (s.dev.host.jobs = [] → e = d) ∧
        (∀ j x y, s.dev.host.jobs = [j] → j.kind = .sanitize x y → e = d.finish j .deviceFault noDetail) ∧
        (s.dev.host.jobs = [] ∨ (∃ j x y, s.dev.host.jobs = [j] ∧ j.kind = .sanitize x y) →
          s.answers (.sanitizeComplete ms true) (({ e with pins := { e.pins with faultCause := 9, faultUnit := 0, faultAtBoot := false } }).event
            srcFirmware evDeviceFault [(16, 9), (17, 0), (20, s.dev.tick.runTick % 2 ^ 32)]).pumpAll) ∧
        d.run.state = .faulted ∧ d.flash = s.dev.flash ∧ d.mem = s.dev.mem ∧ d.tiles = s.dev.tiles ∧ d.host.jobs = s.dev.host.jobs

/- The big-number engine and the responder (R400 to R411). -/

/-- The generator after a request: it reseeds after 2^20 of them (R412). -/
def Sys2Proof.Machine.Sec.afterDraw (x : Sec) : Sec :=
  { x with draws := x.draws + 1
           requests := if x.requests + 1 < 1048576 then x.requests + 1 else 0
           reseeds := if x.requests + 1 < 1048576 then x.reseeds else satInc x.reseeds }

/-- A PKE_OP whose block passes R407 in an open session of length code l: its outputs land from slot D on, LAST_RESULT is its code, DETAIL holds
the code and its time, and code 7 counts and logs a fault (R410). -/
def Sys2Proof.Machine.State.pkeResult (s : State) (i : Instr) (f : Fetched) (bs : List Byte) (l : Nat) (code : Nat) (outs : List Nat) (change : Dev → Dev) : Prop :=
  ∃ mem : Sparse Nat, (∀ n, Store.read pkeDefault mem n = if byteAt bs 5 ≤ n ∧ n < byteAt bs 5 + outs.length then outs.getD (n - byteAt bs 5) 0 else s.dev.pke.slot n) ∧
    s.completes i f (fun d =>
        let d := change d
        let d : Dev := { d with pke := { d.pke with mem := mem, last := BitVec.ofNat 8 code } }
        if code = 7 then
          ({ d with pke := { d.pke with faults := satInc d.pke.faults } }).event srcPke evPkeFault [(16, byteAt bs 0), (17, d.pke.owner.code)]
        else d) .ok
      (detailOf [(0, code), (4, pkeTime (byteAt bs 0) l)])

/-- R405, R406, R411: PKE_OPEN, PKE_CLOSE and PKE_IDLE_CLOSE. That a close takes with it what firmware waits for is the model's reading (log 48). -/
def Obligations.PkeSessions : Prop :=
  ∀ (s : State) (c : Packet) (f : Fetched),
    (∀ len stride slots, s.commands c f 0x70 none none (inlBytes 0 1) → pkeShape (c.inl 0 1) = some (len, stride, slots) → s.dev.pke.session = none →
      s.completes (.pkeOpen c) f (fun d => { d with pke := { d.pke with owner := .host, session := some (BitVec.ofNat 3 (c.inl 0 1)), mem := [] } }) .ok
        (detailOf [(0, slots), (2, stride)])) ∧
    (∀ l, s.commands c f 0x72 none none 0 → s.dev.pke.session = some l →
      s.completes (.pkeClose c) f (fun d => { d with pke := { d.pke with owner := .none, session := none, mem := [], work := false } }) .ok noDetail) ∧
    (∀ l, s.dev.pke.session = some l → s.dev.pke.work = true →
      s.answers .pkeIdleClose ((({ s.dev with pke := { s.dev.pke with owner := .none, session := none, mem := [], work := false, idleClosed := true } }).mark
        0x6000C 0x40).event srcPke evPkeIdleClose []))

/-- R407, R409, R410: LOAD, STORE, ZERO, RANDOM and the modular operations on operands in range: an operation without a fault inside it (`u` 0)
gives its result, and one whose result fails its own check gives code 7 and a zero. Random numbers are free (log 13); that a fault flips bits of the
first output before its check (log 87), and what an operation without a reply does with the reply's fields (log 80), are the model's choice. -/
def Obligations.PkeArithmetic : Prop :=
  ∀ (s : State) (c : Packet) (f : Fetched) (bs : List Byte) (l : BitVec 3), s.dev.pke.session = some l → s.commands c f 0x71 (some c.paramLen) (some 0) 0 →
    Store.wf pkeDefault s.dev.pke.mem = true → bs.length = c.paramLen → pkeFieldsOk bs = true → pkeBlockOk bs l.toNat = true →
    let a := s.dev.pke.slot (byteAt bs 1)
    let b := s.dev.pke.slot (byteAt bs 2)
    let m := s.dev.pke.slot (byteAt bs 4)
    let op := fun (n : Nat) (i : Instr) (outs : List Nat) => byteAt bs 0 = n → s.pkeResult i f bs l.toNat 0 outs (fun d => d)
    let value := fun (n : Nat) (i : PkeRun → Instr) (x : Nat) => byteAt bs 0 = n → ∀ u, s.pkeResult (i { block := some bs, upset := u }) f bs l.toNat
      (if x ^^^ u < m then 0 else 7) [if x ^^^ u < m then x ^^^ u else 0] (fun d => d)
    op 0x01 (.pkeLoad c (some bs)) [leNat (bs.drop 16)] ∧ op 0x03 (.pkeZero c (some bs)) [0] ∧
    (byteAt bs 0 = 0x02 → pkeLen l.toNat / 8 ≤ c.replyLen → s.pkeResult (.pkeStore c (some bs)) f bs l.toNat 0 []
      (fun d => d.emit (.reply c.replyPtr (leBytes (pkeLen l.toNat / 8) a)))) ∧
    (byteAt bs 0 = 0x04 → s.pkeResult (.pkeRandom c (some bs)) f bs l.toNat 0 [s.dev.random (pkeLen l.toNat)]
      (fun d => { d with sec := s.dev.sec.afterDraw })) ∧
    (3 ≤ m → m % 2 = 1 →
      (a < m → b < m → value 0x10 (Instr.pkeModadd c) ((a + b) % m) ∧ value 0x12 (Instr.pkeModmul c) (a * b % m) ∧
        ∃ x, x < m ∧ (x + b) % m = a ∧ value 0x11 (Instr.pkeModsub c) x) ∧
      (a < m → value 0x13 (Instr.pkeModexp c) (a ^ b % m)) ∧
      (a < m → Nat.gcd a m = 1 → byteAt bs 0 = 0x14 → ∃ x, x < m ∧ a * x % m = 1 ∧ ∀ u,
        s.pkeResult (.pkeModinv c { block := some bs, upset := u }) f bs l.toNat (if u = 0 then 0 else 7) [if u = 0 then x else 0] (fun d => d)) ∧
      value 0x15 (Instr.pkeModred c) ((a * 2 ^ pkeLen l.toNat + b) % m)) ∧
    (m % 2 = 0 → ∀ x : PkeRun, x.block = some bs →
      ∀ i ∈ [Instr.pkeModadd c x, .pkeModsub c x, .pkeModmul c x, .pkeModexp c x, .pkeModinv c x, .pkeModred c x],
      byteAt bs 0 = (match i with | .pkeModadd .. => 0x10 | .pkeModsub .. => 0x11 | .pkeModmul .. => 0x12 | .pkeModexp .. => 0x13 | .pkeModinv .. => 0x14 | _ => 0x15) →
      s.pkeResult i f bs l.toNat 1 [0] (fun d => d))

/-- R407, R409, R410: the operations on curves. A scalar of 1 to n − 1 times a point on the curve that is not (0, 0); a key and a signature under a
drawn secret, which is free (log 13); ECDSA_VERIFY says whether a signature verifies. A result that fails its own check is code 7, with zeros in its
place; that a fault inside an operation flips the bits `u` of its first output is the model's choice (log 87). -/
def Obligations.PkeCurves : Prop :=
  ∀ (s : State) (c : Packet) (f : Fetched) (bs : List Byte) (l : BitVec 3) (u : Nat), s.dev.pke.session = some l → s.commands c f 0x71 (some c.paramLen) (some 0) 0 →
    Store.wf pkeDefault s.dev.pke.mem = true → bs.length = c.paramLen → pkeFieldsOk bs = true → pkeBlockOk bs l.toNat = true →
    let run : PkeRun := { block := some bs, upset := u }
    let C := pkeCurve l.toNat
    let a := s.dev.pke.slot (byteAt bs 1)
    let b := fun k => s.dev.pke.slot (byteAt bs 2 + k)
    let draw := s.dev.random (pkeLen l.toNat + 64) % (C.n - 1) + 1
    let drew := fun (d : Dev) => { d with sec := s.dev.sec.afterDraw }
    let struck := fun (P : Nat × Nat) => (P.1 ^^^ u, P.2)
    let good := fun (P : Nat × Nat) => C.on P.1 P.2 && P != (0, 0)
    let checked := fun (i : Instr) (ok : Bool) (outs : List Nat) (change : Dev → Dev) =>
      s.pkeResult i f bs l.toNat (if ok then 0 else 7) (if ok then outs else List.replicate outs.length 0) change
    (byteAt bs 0 = 0x20 → let P := struck (pointXy (C.mul draw (some (C.gx, C.gy))))
      checked (.pkeEckeygen c run) (good P) [draw, P.1, P.2] drew) ∧
    (let P := struck (pointXy (C.mul a (some (b 0, b 1))))
     1 ≤ a → a < C.n → good (b 0, b 1) = true →
      (byteAt bs 0 = 0x21 → checked (.pkeEcmul c run) (good P) [P.1, P.2] (fun d => d)) ∧
      (byteAt bs 0 = 0x22 → checked (.pkeEcdh c run) (good P) [P.1] (fun d => d))) ∧
    (byteAt bs 0 = 0x23 → let e := a % C.n
      let sg := struck (C.sign e (b 0) draw)
      1 ≤ b 0 → b 0 < C.n →
      checked (.pkeEcdsaSign c run) (C.verifies e (pointXy (C.mul (b 0) (some (C.gx, C.gy)))) sg.1 sg.2) [sg.1, sg.2] drew) ∧
    (byteAt bs 0 = 0x24 → let r := s.dev.pke.slot (byteAt bs 3)
      let v := s.dev.pke.slot (byteAt bs 3 + 1)
      s.pkeResult (.pkeEcdsaVerify c (some bs)) f bs l.toNat
        (if good (b 0, b 1) = true then (if C.verifies (a % C.n) (b 0, b 1) r v = true then 0 else 4) else 3) [] (fun d => d))

/-- A response: it is sent, kept for CHUNK_GET, and joins the transcript. -/
def Sys2Proof.Machine.State.responds (s : State) (i : Instr) (name : String) (request response : List Byte) (sec : Sec) (change : Dev → Dev) : Prop :=
  s.answers i (let d := change s.dev
    { d with sec := { sec with chunkOut := response, transcript := sec.transcript ++ request ++ response }
             host := { d.host with out := d.host.out ++ [.spdm name response] } })

/-- R399 to R401: the SPDM responder, once the negotiation before the request is done. Codes and layouts are those of DSP0274 (log 15), signatures and
nonces free (logs 12 and 13). A request of another version is answered with an error (log 15), and once the generator has failed nothing random is
produced: CHALLENGE is answered with an error (R413; its code log 15). That a CHALLENGE turned away counts as work that waits (log 48), and that
firmware's use of the engine wipes it (log 65), are the model's readings. -/
def Obligations.SpdmResponses : Prop :=
  ∀ (s : State), s.dev.run.state ≠ .boot → s.dev.sec.fwRunning = true →
    let x := s.dev.sec
    let same := fun (d : Dev) => d
    let chain := x.chain s.dev.flash
    let wiped := fun (d : Dev) => { d with pke := { d.pke with owner := .none, mem := [] } }
    let signed := fun (i : Instr) (name : String) (request body : List Byte) => ∃ nonce signature, nonce.length = 32 ∧
      s.responds i name request (body ++ nonce ++ signature) x.afterDraw wiped
    s.responds .getVersion "VERSION" [rqVersion] [0x00, 0x12, 0x00, 0x13]
      { x with spdmVersion := true, spdmCaps := false, spdmAlgs := false, chunkIn := [], transcript := [] } same ∧
    (x.spdmVersion = true → s.responds .getCapabilities "CAPABILITIES" [rqCapabilities] (leBytes 4 0x20016) { x with spdmCaps := true, spdmAlgs := false } same) ∧
    (x.spdmCaps = true →
      s.responds (.negotiateAlgorithms true true true) "ALGORITHMS" [rqAlgorithms] ([1] ++ leBytes 4 4 ++ leBytes 4 0x80 ++ leBytes 4 2)
        { x with spdmAlgs := true } same ∧
      (∀ chunk, s.answers (.chunkSend false chunk) { s.dev with
        sec := { x with chunkIn := x.chunkIn ++ chunk }, host := { s.dev.host with out := s.dev.host.out ++ [.spdm "CHUNK_SEND_ACK" []] } }) ∧
      (∀ chunk, let whole := x.chunkIn ++ chunk
        whole.getD 0 0 ≠ 0x12 → whole.getD 0 0 ≠ 0x13 → (whole.getD 1 0 = rqVersion → whole.getD 0 0 ≠ 0x10) → s.answers (.chunkSend true chunk) { s.dev with
          sec := { x with chunkIn := [] }
          host := { s.dev.host with out := s.dev.host.out ++ [.spdm "CHUNK_SEND_ACK" [], .spdm "ERROR" [0x41, whole.getD 1 0]] } }) ∧
      (∀ size : BitVec 16, x.chunkOut ≠ [] → s.answers (.chunkGet size) { s.dev with
        sec := { x with chunkOut := x.chunkOut.drop size.toNat }
        host := { s.dev.host with out := s.dev.host.out ++ [.spdm "CHUNK_RESPONSE" (x.chunkOut.take size.toNat)] } })) ∧
    (x.spdmAlgs = true →
      s.responds .getDigests "DIGESTS" [rqDigests] (1 :: sha384 chain) x same ∧
      (∀ offset length : BitVec 16, offset.toNat < chain.length → let part := (chain.drop offset.toNat).take length.toNat
        s.responds (.getCertificate 0 offset length) "CERTIFICATE" ([rqCertificate, 0] ++ leBytes 2 offset.toNat ++ leBytes 2 length.toNat)
          ([0] ++ leBytes 2 part.length ++ leBytes 2 (chain.length - offset.toNat - part.length) ++ part) x same) ∧
      s.responds (.getMeasurements 0 none) "MEASUREMENTS" [rqMeasurements, 0] [6] x same ∧
      (∀ i : Byte, 1 ≤ i.toNat → i.toNat ≤ 6 →
        s.responds (.getMeasurements i none) "MEASUREMENTS" [rqMeasurements, i] (s.dev.measurementBlock i.toNat) x same) ∧
      (s.dev.pke.session = none → x.drbg ≠ 1 → ∀ nonce, s.answers (.challenge 0 nonce) { s.dev with
        host := { s.dev.host with out := s.dev.host.out ++ [.spdm "ERROR" [0x05, rqChallenge]] } }) ∧
      (s.dev.pke.session = none → x.drbg = 1 → ∀ nonce, signed (.challenge 0 nonce) "CHALLENGE_AUTH" ([rqChallenge, 0] ++ nonce) (0 :: sha384 chain)) ∧
      (∀ l, s.dev.pke.session = some l → ∀ nonce, s.answers (.challenge 0 nonce) { s.dev with
        pke := { s.dev.pke with work := true }, host := { s.dev.host with out := s.dev.host.out ++ [.spdm "ERROR" [0x03, rqChallenge]] } }))

/- The tick and the lock groups (R224 to R253). -/

/-- R226 to R231, R139: TICK_BOUNDARY. A SET_TICK that takes effect there decides whether TICK_OUT pulses there. That what landed in the cycle before is counted before the leftover check, and that expansions outlast the boundary,
is the model's choice (log 85).
R228, R230: edges of an external tick, and a missing one. Which of the two cycles of the spec's range an edge lands in is free (log 27). -/
def Obligations.TickEvents : Prop :=
  (∀ (s : State), s.dev.tick.boundaryDue = true → s.dev.host.jobs = [] →
     let k := s.dev.tick
     ∃ d : Dev, s.answers .tickBoundary d.pumpAll ∧ d.tick.number = k.number + 1 ∧ d.tick.cycle = 0 ∧ d.tick.next = none ∧ d.tick.stageStarted = false ∧
       d.tick.deadlineDone = false ∧ d.tick.lastLen = k.cycle ∧ d.tick.edgeNext = false ∧ d.tick.wall = k.wall ∧
       d.tick.edgeAt = (if k.edgeNext = true ∧ d.tick.external = true then some d.tick.period else none) ∧
       (k.next = none → d.tick.period = k.period ∧ d.tick.external = k.external ∧ d.tick.outEn = k.outEn) ∧
       (∀ p e o, k.next = some (p, e, o) → d.tick.period = p ∧ d.tick.external = e ∧ d.tick.outEn = o) ∧
       (d.tick.external = false → d.tick.outEn = true → Output.tickOut (s.dev.pins.slew.extractLsb' 0 2) ∈ d.host.out) ∧
       (∀ n, n < 256 → (d.mem.channel n).served = 0 ∧ (d.mem.channel n).transitUsed = 0 ∧
         (d.mem.channel n).lastServed = (s.dev.mem.channel n).served) ∧
       d.mem.refreshPin = s.dev.mem.refreshPinNext.getD s.dev.mem.refreshPin ∧ d.mem.transitPin = s.dev.mem.transitPinNext.getD s.dev.mem.transitPin ∧
       (s.dev.running = false → d.tick.runTick = k.runTick ∧ d.tick.inRun = false ∧ d.tiles = s.dev.tiles ∧ d.mem.near = s.dev.mem.near) ∧
       (∀ im, s.dev.run.state = .running → s.dev.run.image = some im → s.dev.run.stopDue = false → s.dev.run.stopDrain = false →
         d.tick.inRun = true ∧ d.run.state = .running ∧
         (∀ r, s.dev.run.toBegin = some r → d.run.toBegin = none ∧ d.tick.runTick = if r then k.runTick + 1 else 0) ∧
         (s.dev.run.toBegin = none → d.tick.runTick = k.runTick + 1) ∧
         ∀ t, im.tileMask.getLsbD t.toNat = true → let risen := ((s.dev.tile t).arrivals k.wall).arrival
           (d.tile t).arrival = Vector.replicate 64 0 ∧ (d.tile t).arriving = [] ∧ (d.tile t).expands = (s.dev.tile t).expands ∧ (d.tile t).named = 0 ∧
           ((d.tile t).arrivalLeftover = true ↔ (s.dev.tile t).arrivalLeftover = true ∨ ∃ c : Fin 64, risen[c] ≠ 0) ∧
           (∀ r ∈ (d.tile t).rings.toList, r.armed = false))) ∧
  (∀ (s : State), s.dev.tick.running = true → s.dev.tick.external = true →
     let k := s.dev.tick
     (∃ (b : Nat) (d : Dev), (b = k.cycle + 4 ∨ b = k.cycle + 5) ∧ s.answers .tickInEdge d ∧ d.free = s.dev.free + 1 ∧ d.tick.fallback = false ∧
       d.tick.cycle = k.cycle ∧ d.tick.number = k.number ∧ d.tiles = s.dev.tiles ∧ d.mem = s.dev.mem ∧
       (k.outEn = true → Output.tickOut (s.dev.pins.slew.extractLsb' 0 2) ∈ d.host.out) ∧
       (b < k.period → d.tick.early = true ∧ d.tick.edgeAt = some k.period ∧ d.log.next = s.dev.log.next + 1) ∧
       (k.period ≤ b → (∀ b0, k.edgeAt = some b0 → b ≤ b0) →
         d.tick.early = k.early ∧ d.tick.edgeAt = some (k.edgeAt.getD b) ∧ d.tick.edgeNext = k.edgeNext ∧ d.log = s.dev.log) ∧
       (k.period ≤ b → ∀ b0, k.edgeAt = some b0 → b0 < b →
         d.tick.early = true ∧ d.tick.edgeAt = some b0 ∧ d.tick.edgeNext = true ∧ d.log.next = s.dev.log.next + 1)) ∧
     (k.fallback = false → k.edgeAt = none → 2 * k.period ≤ k.cycle →
       s.answers .tickInLost ((({ s.dev with tick := { k with lost := true, fallback := true, edgeAt := some k.cycle } }).mark 0x1024 2).event srcTick
         evTickInLost [])))

/-- R231, R232, R253, R345, R346: STAGE_START of a tick whose stages run; the first of a run completes the pending START or RESUME.
R245, R246, R248 to R251, R310, R346: the stage deadline with every group at its end, with one that overran under SKIP and without it, and with a tile
that has halted; the cycle in which RUN_TO_COUNT's tile reaches its count, which holds the other groups; the entry to HALTED then; the end of a STOP,
in LOADED with its DETAIL, or in HALTED where a tile has halted in the drain.
When within R246's 64 cycles another group is held is the model's choice (log 24). -/
def Obligations.StageAndRunEvents : Prop :=
  (∀ (s : State) (im : Image), s.dev.run.image = some im → s.dev.running = true → s.dev.tick.inRun = true → s.dev.tick.stageStarted = false →
     s.dev.tick.deadlineDone = false → 2048 ≤ s.dev.tick.cycle → s.dev.tick.installEnd ≤ s.dev.tick.cycle → s.dev.run.stopDrain = false →
     s.dev.skipWaits = false →
     ∃ d : Dev, (s.dev.host.jobs = [] → s.answers .stageStart d.pumpAll) ∧
       (∀ j, s.dev.host.jobs = [j] → (j.kind = .start ∨ j.kind = .resume) → s.answers .stageStart (d.finish j .ok noDetail).pumpAll) ∧
       d.host.jobs = s.dev.host.jobs ∧ d.tick.stageStarted = true ∧ d.run.begun = true ∧ d.run.lastTick = some s.dev.tick.runTick ∧
       d.run.state = s.dev.run.state ∧ ((∀ g, (s.dev.group g).skipped = none) → d.mem = s.dev.mem) ∧
       (2048 < s.dev.tick.cycle → d.tick.drainExtended = true ∧ d.log.next = s.dev.log.next + 1) ∧
       (s.dev.tick.cycle = 2048 → d.log = s.dev.log) ∧
       (∀ g, (s.dev.group g).active = false → d.group g = { s.dev.group g with ecWait := 0, ecEcc := 0, ecPwr := 0, ecDrain := 0, skipped := none }) ∧
       (∀ g n st r, (s.dev.group g).skipped = some n → im.stages[n]? = some st → r ∈ st.outputs → refSpace r = 1 →
         let x := s.dev.tile (BitVec.ofNat 6 (refTile r))
         x.wf = true → x.powered (refAddr r) = true → ((d.tile (BitVec.ofNat 6 (refTile r))).rowAt (refAddr r)).data.getLsbD 171 = true) ∧
       (∀ g, (s.dev.group g).active = true → (d.group g).started = true ∧ (d.group g).ended = false ∧ (d.group g).counter = 0 ∧ (d.group g).ecWait = 0 ∧
         (d.group g).ecEcc = 0 ∧ (d.group g).ecPwr = 0 ∧ (d.group g).ecDrain = BitVec.ofNat 32 (s.dev.tick.cycle - 2048) ∧ (d.group g).heldFrom = (s.dev.group g).heldFrom ∧
         ∀ t st e, im.tileMask.getLsbD t.toNat = true → s.dev.groupOf t = some g → im.stages[(s.dev.group g).stage]? = some st →
           st.entries.find? (fun e => e.tile == t) = some e →
           (d.tile t).pc = e.entry ∧ (d.tile t).done = false ∧ (d.tile t).arrival = Vector.replicate 64 0 ∧ (d.tile t).loops = Vector.replicate 4 {} ∧
           (d.tile t).v = (s.dev.tile t).v ∧ (d.tile t).a = (s.dev.tile t).a ∧
           ((∀ g, (s.dev.group g).skipped = none) → (d.tile t).scratch = (s.dev.tile t).scratch))) ∧
  (∀ (s : State) (im : Image), s.dev.run.image = some im → s.dev.running = true →
     let late := fun (g : GroupId) => (s.dev.group g).active = true ∧ (s.dev.group g).ended = false
     (s.dev.tick.inRun = true → s.dev.run.stopDrain = false → s.dev.tick.deadlineDone = false → s.dev.tick.period ≤ s.dev.tick.cycle →
       ∃ d : Dev, s.answers .stageDeadline d.pumpAll ∧ d.tick.deadlineDone = true ∧
         (∀ g, late g → (d.group g).overrun = true ∧ (d.group g).overruns = satInc (s.dev.group g).overruns) ∧
         ((∃ t, im.tileMask.getLsbD t.toNat = true ∧ (s.dev.tile t).halted = true) → d.run.state = .halted) ∧
         ((∀ t, (s.dev.tile t).halted = false) →
           ((∀ g, ¬ late g) → d.run.state = s.dev.run.state ∧ d.tiles = s.dev.tiles ∧ d.log = s.dev.log ∧
             d.run.stopDue = (s.dev.run.state == .stopping)) ∧
           ((∃ g, late g) → im.skip = true → d.run.state = s.dev.run.state ∧ d.run.skipTicks = s.dev.run.skipTicks ++ [s.dev.tick.runTick] ∧
             d.tick.overrun = true ∧ ∀ g, late g → (d.group g).skipped = some (s.dev.group g).stage ∧ (d.group g).started = false) ∧
           ((∃ g, late g) → im.skip = false → d.run.state = .halted ∧ d.tick.overrun = true ∧
             ∀ g, late g → ∀ t ∈ (s.dev.group g).members, (d.tile t).halted = true ∧ (d.tile t).haltReason = .tickOverrun))) ∧
     (∀ t, s.dev.run.countReached = true → s.dev.allHeld = true → (s.dev.tile t).halted = true → (s.dev.tile t).haltReason = .countReached →
       ∃ d : Dev, s.answers (.countReached t) d.pumpAll ∧ d.run.state = .halted ∧ d.run.resumable = false ∧ d.run.target = none ∧
         (d.tile t).haltReason = .countReached ∧ d.mem = s.dev.mem) ∧
     (∀ (t : TileId) (g : GroupId) (c : Nat), let x := s.dev.group g
       s.dev.groupOf t = some g → x.members = [t] → s.dev.run.target = some (t, s.dev.tick.runTick, c) → x.counter = c → s.dev.run.haltOrder.1 = 0 →
       s.dev.staged x = true → s.dev.frozen x = false → x.issuedAt ≠ some s.dev.tick.wall → (s.dev.correctionDue x = true → x.eccFor = some x.pipe) →
       (s.dev.tile t).halted = false → (s.settled t g).halted = false →
       ∃ d : Dev, s.answers (.scheduleCycle g) d ∧ d.run.countReached = true ∧ (d.tile t).halted = true ∧ (d.tile t).haltReason = .countReached ∧
         (d.tile t).haltAddr = BitVec.ofNat 14 (s.settled t g).pc ∧ (d.group g).heldCount = some (c + 3) ∧ (d.group g).counter = c + 1 ∧
         (∀ k, k ≠ g → (s.dev.group k).members ≠ [] → ∃ h, (d.group k).heldFrom = some h ∧ h ≤ s.dev.tick.wall + 64 ∧
           ((s.dev.group k).heldFrom = none → s.dev.tick.wall < h)) ∧
         d.run.state = s.dev.run.state ∧ d.mem = s.dev.mem ∧ ∀ u, u ≠ t → d.tile u = s.dev.tile u) ∧
     (s.dev.run.state = .stopping → s.dev.run.stopDrain = true → s.dev.tick.inRun = true → s.dev.tick.stageStarted = false →
       s.dev.tick.deadlineDone = false → 2048 ≤ s.dev.tick.cycle → s.dev.tick.installEnd ≤ s.dev.tick.cycle → (∀ g, (s.dev.group g).skipped = none) →
       ((∀ t, (s.dev.tile t).halted = false) →
         ∃ d0 d : Dev, s.answers .stageStart d.pumpAll ∧ d.run.state = .loaded ∧ d.run.resumable = true ∧ d.run.stopDrain = false ∧ d.tick.inRun = false ∧
           d0.host.jobs = s.dev.host.jobs ∧ d.tick.runTick = s.dev.tick.runTick ∧
           d = d0.finishAll (fun k => match k with | .stop => true | _ => false) .ok
             (fun _ => detailOf [(0, DevState.loaded.code), (4, s.dev.tick.runTick % 2 ^ 32)]) ∧
           (∀ j ∈ d.host.jobs, j.kind ≠ .stop) ∧ d.mem = s.dev.mem ∧
           ∀ t, d.tile t = if s.dev.inImage t then { s.dev.tile t with arrival := Vector.replicate 64 0, arriving := [] } else s.dev.tile t) ∧
       ((∃ t, s.dev.inImage t = true ∧ (s.dev.tile t).halted = true) →
         ∃ d : Dev, s.answers .stageStart d.pumpAll ∧ d.run.state = .halted ∧ d.run.resumable = false ∧ d.run.stopDrain = false ∧ d.tick.inRun = false ∧
           (∀ j ∈ d.host.jobs, j.kind ≠ .stop) ∧ d.mem = s.dev.mem)))

/-- R237 to R243, R267: a schedule cycle of a group; in a group of one tile, a bundle of four NOPs moves it to the next one. A wait completes, times out; a
stage ends; a throttle expires. That WAIT_LIMIT times out held DMA issues and markers too is the model's choice (log 36), and so are the arrivals that a wait
covers (log 84). -/
def Obligations.GroupCycles : Prop :=
  ∀ (s : State) (g : GroupId), let x := s.dev.group g
    (s.dev.staged x = true → s.dev.frozen x = false → x.issuedAt ≠ some s.dev.tick.wall → (s.dev.correctionDue x = true → x.eccFor = some x.pipe) →
      ∃ d : Dev, s.answers (.scheduleCycle g) d ∧ (d.group g).counter = x.counter + 1 ∧ (d.group g).pipe = x.pipe + 1 ∧
        (d.group g).issuedAt = some s.dev.tick.wall ∧ d.mem = s.dev.mem ∧ d.keys = s.dev.keys ∧ d.tick = s.dev.tick ∧
        (∀ t, t ∉ x.members → d.tile t = s.dev.tile t) ∧
        ∀ t, x.members = [t] → s.ready t g → s.dev.run.target = none → Store.read bundleDefault (s.settled t g).imem (s.settled t g).pc = 0 →
          (∀ l ∈ (s.settled t g).loops.toList, l.active = false) → (s.settled t g).pc + 1 < 16384 →
          d.tile t = ({ s.settled t g with pc := (s.settled t g).pc + 1, lastIssued := BitVec.ofNat 14 (s.dev.tile t).pc } : Tile).endCycle
            { s.sees t g with bundle := BitVec.ofNat 14 ((s.settled t g).pc + 1) }) ∧
    (∀ t, s.turning t g → s.unitsGo t g ((s.settled t g).endCycle (s.sees t g))) ∧
    (s.dev.staged x = true → (∀ t ∈ x.members, (s.dev.tile t).done = true) →
      s.answers (.stageEnd g) { s.dev.setGroup g { x with ended := true, endWall := s.dev.tick.wall } with
        tick := { s.dev.tick with lastEnd := some s.dev.tick.cycle } }) ∧
    (∃ y : Group, s.answers (.throttleExpiry g) (s.dev.setGroup g y) ∧ y = { x with throttles := y.throttles } ∧
      ∀ p, p ∈ y.throttles ↔ p ∈ x.throttles ∧ s.dev.tick.wall ≤ p.2) ∧
    (∀ (t : TileId) (p : Pending), s.dev.running = true → (s.dev.tile t).halted = false → s.dev.run.hazard = false → (s.dev.tile t).pend = [p] →
      (∀ c k, p.kind = .wait c k → p.wall < s.dev.tick.wall → (s.dev.tile t).taken = [] → k.toNat ≤ (s.dev.tile t).arrival[c.toNat].toNat →
        s.answers (.pendingWaitComplete t) ((s.dev.setTile t { s.dev.tile t with
          pend := [], holds := (s.dev.tile t).holds ++ [(p.wall + 3, s.dev.tick.wall + 2, false)]
          arrival := (s.dev.tile t).arrival.set c.toNat ((s.dev.tile t).arrival[c.toNat] - k) }).cover t c k.toNat)) ∧
      (s.dev.groupOf t = some g → x.waitLimit ≠ 0 → p.wall + 3 + x.waitLimit ≤ s.dev.tick.wall →
        ∃ d : Dev, s.answers (.arrivalTimeout t) d ∧ (d.tile t).halted = true ∧ (d.tile t).haltReason = .arrivalTimeout ∧
          (d.tile t).haltAddr = p.bundle ∧ (d.tile t).arrival = (s.dev.tile t).arrival ∧ (d.tile t).scratch = (s.dev.tile t).scratch ∧
          (∀ u, u ≠ t → d.tile u = s.dev.tile u) ∧ d.log.next = s.dev.log.next + 1 ∧ d.mem = s.dev.mem))

/-- R52, R59, R71, R132, R141, R143, R144, R241, R291: a result that is due lands, and nothing else; a row reaches its unit clean, poisoned, or
uncorrectable; one that the row ECC corrects is held back, and counts when it is delivered. That a row both poisoned and uncorrectable halts with
UNCORRECTABLE (log 79), and that MVE_FLAGS rise when a result lands (log 88), is the model's choice. -/
def Obligations.ResultsLand : Prop :=
  ∀ (s : State) (t : TileId) (g : GroupId), s.dev.groupOf t = some g → let x := s.dev.tile t
    (∀ (fl : Flight) (dest : Dest), x.wf = true → x.flights = [fl] → fl.due < (s.sees t g).pipe → fl.dests = [dest] →
      ∃ y : Tile, s.answers (.engineWriteback t) (s.dev.setTile t y) ∧ y.flights = [] ∧ match dest with
        | .v n v m => y = { x with flights := [], v := x.v.set n.toNat (y.vreg n) } ∧
          ∀ j, j < 1024 → lane (y.vreg n) j = if m.getLsbD j then lane v j else lane (x.vreg n) j
        | .k n v m => y = { x with flights := [], k := x.k.set n.toNat (y.kreg n) } ∧
          ∀ j, (y.kreg n).getLsbD j = if m.getLsbD j then v.getLsbD j else (x.kreg n).getLsbD j
        | .s n v => y = { x with flights := [], s := x.s.set n.toNat v }
        | .a n v => y = { x with flights := [], a := x.a.set n.toNat v }
        | .hop n h tag => y = { x with flights := [], h := x.h.set n.toNat (y.hreg n), poisonLatch := false } ∧
          (y.hreg n).hdr = { h with poison := h.poison || x.poisonLatch } ∧ (y.hreg n).home = (x.hreg n).home ∧ (y.hreg n).tag = tag.getD (x.hreg n).tag
        | .hld n h home => y = { x with flights := [], h := x.h.set n.toNat { hdr := h, home := home, tag := {} } }
        | .home n row => y = { x with flights := [], h := x.h.set n.toNat { x.hreg n with home := row } }
        | .row r v =>
          y = { x with flights := [], scratch := y.scratch, ceRows := x.ceRows.filter (· != r), slotWrites := x.slotWrites ++ [bankOf r], before := y.before
                       reads := x.reads.map (fun z => if z.row = r then { z with writes := z.writes + 1 } else z) } ∧
          y.before.find? (fun p => p.1 == r) = some ((x.before.find? (fun p => p.1 == r)).getD (r, x.rowAt r, x.ceRows.contains r)) ∧
          ∀ q, y.rowAt q = if q = r then v else x.rowAt q
        | .mve bits => y = { x with flights := [], mveFlags := x.mveFlags ||| bits, raised := { x.raised with mve := x.raised.mve ||| bits } }
        | .clear reg bits => (reg = 0 → y = { x with flights := [], mveFlags := x.mveFlags &&& ~~~(bits &&& ~~~x.raised.mve) }) ∧
          (reg = 1 → y = { x with flights := [], nma := { x.nma with flags := x.nma.flags &&& ~~~(bits &&& ~~~x.raised.nma) } }) ∧
          (reg = 2 → y = ({ x with flights := [] } : Tile).clearScr (bits &&& ~~~x.raised.scr))
        | .pad n w => y = { x with flights := [], pads := x.pads.set n.toNat w }
        | .release r => y = { x with flights := [], rings := y.rings } ∧ (y.rings[r.toNat]).release = (x.rings[r.toNat]).release + 1) ∧
    (∀ r : RowRead, x.reads = [r] → r.judged = false → r.due ≤ (s.dev.group g).pipe → s.dev.cycleOpen (s.dev.group g) = true →
      (s.dev.correctionDue (s.dev.group g) = true → (s.dev.group g).eccFor = some (s.dev.group g).pipe) → x.halted = false →
      let marked := if r.writes ≠ 0 ∨ x.ceRows.contains r.row = true then x.ceRows else r.row :: x.ceRows
      (∃ d : Dev, s.answers (.engineRowDelivery t .uncorrectable) d ∧ (d.tile t).halted = true ∧ (d.tile t).haltReason = .uncorrectable ∧
        (d.tile t).haltAddr = r.bundle ∧ (d.tile t).errRow = BitVec.ofNat 15 r.row ∧ (d.tile t).errKind = 1 ∧ (d.tile t).scratch = x.scratch) ∧
      (r.corrected = false →
      let late := { r with corrected := true, judged := true }
      s.answers (.engineRowDelivery t .corrected) (s.dev.setTile t { x with reads := [late], ceRows := marked }) ∧
      (r.reader ≠ .header true → r.poisoned = false → s.answers (.engineRowDelivery t .clean) (s.dev.setTile t { x with reads := [] })) ∧
      (r.reader ≠ .header true → r.poisoned = false →
        ({ x with reads := [late] } : Tile).meet (s.sees t g) (.read late) =
          { x with reads := [], ceEngine := satInc x.ceEngine, scrCe := true, raised := { x.raised with scr := x.raised.scr ||| 1 }
                   ceRows := marked }) ∧
      (r.reader ≠ .header true → r.poisoned = true → (s.sees t g).poisonHalt = false → s.answers (.engineRowDelivery t .clean)
        (s.dev.setTile t { x with reads := [], errRow := BitVec.ofNat 15 r.row, errPort := 0, errKind := 2, poisonLatch := true })) ∧
      (r.reader = .header true → r.poisoned = false → ∃ d : Dev, s.answers (.engineRowDelivery t .clean) d ∧ (d.tile t).halted = true ∧
        (d.tile t).haltReason = .headerInvalid ∧ (d.tile t).haltAddr = r.bundle ∧ (d.tile t).h = x.h) ∧
      (r.poisoned = true → (s.sees t g).poisonHalt = true → ∃ d : Dev, s.answers (.engineRowDelivery t .clean) d ∧ (d.tile t).halted = true ∧
        (d.tile t).haltReason = .poisonRead ∧ (d.tile t).haltAddr = r.bundle ∧ (d.tile t).scratch = x.scratch))) ∧
    (∀ held r : RowRead, x.reads = [held, r] → held.judged = true → r.judged = false → r.due ≤ (s.dev.group g).pipe →
      s.dev.cycleOpen (s.dev.group g) = true → (s.dev.correctionDue (s.dev.group g) = true → (s.dev.group g).eccFor = some (s.dev.group g).pipe) →
      x.halted = false → ∃ d : Dev, s.answers (.engineRowDelivery t .uncorrectable) d ∧ (d.tile t).halted = true ∧
        (d.tile t).haltReason = .uncorrectable ∧ (d.tile t).haltAddr = r.bundle ∧ (d.tile t).errRow = BitVec.ofNat 15 r.row ∧ (d.tile t).reads = [held])

/- Data in motion (R116, R142 to R165, R186 to R191, R197 to R222). -/

/-- The tile whose DMA queue q is `js`, otherwise as before. -/
def Sys2Proof.Machine.State.queued (s : State) (t : TileId) (q : BitVec 2) (js : List DmaJob) : Tile := (s.dev.tile t).setQueue q js

/-- R131, R135, R136, R142 to R144, R154, R156, R160, R165, R197, R206, R217, R218: a queue requests its list's rows and an element; data comes through the
port of a scratchpad (clean, corrected, uncorrectable), from the near and the far tier, or poisoned when the far tier times out; a write of less than a row reads
the row first; and an element lands, with the arrival of its tile and the end of its descriptor. The model's choices are what a sector holds whose write is lost
(log 4), the order of a list's rows and elements and the port's order (log 18), which elements go on when queues do not (log 46), which reads R163 leaves
undefined (log 84) and when what lands counts (log 85). -/
def Obligations.TransfersMove : Prop :=
  ∀ (s : State) (t : TileId) (q : BitVec 2) (j : DmaJob) (rest : List DmaJob), s.dev.linkHeld [0, 1, 2, 3, 4, 5, 6, 7] = false →
    let w := s.dev.tick.wall
    let goes := fun (x : Xfer) => s.dev.queueRuns = true ∨ x.accepted t = true
    (s.dev.tile t).queue q = j :: rest → j.failed = false → j.stopped = false →
    (s.dev.queueRuns = true → (s.dev.tile t).halted = false → j.cursor < descTotal j.bits → j.lastAsked ≠ some w →
      (∀ (a b : Int) (src dst : Place), j.listRead w = true → element j.bits j.listData j.cursor = .move a b →
        resolve t (s.dev.tile t).dma.owners (dSrc j.bits) a = .ok src → resolve t (s.dev.tile t).dma.owners (dDst j.bits) b = .ok dst →
        s.dev.placeError src = none → s.dev.placeError dst = none →
        ∃ x : Xfer, x.src = src ∧ x.dst = dst ∧ x.ordinal = j.cursor ∧ x.data = none ∧ x.asked = w ∧ s.answers (.dmaElementRequest t q)
          (s.dev.setTile t (s.queued t q ({ j with cursor := j.cursor + 1, xfers := j.xfers ++ [x], lastAsked := some w } :: rest)))) ∧
      (∀ r, j.listRead w = false → (listRows j.bits)[j.listAsked.length]? = some r → (s.dev.tile t).powered r = true →
        s.answers (.dmaElementRequest t q)
          (s.dev.setTile t (s.queued t q ({ j with listAsked := j.listAsked ++ [w], lastAsked := some w } :: rest))))) ∧
    (∀ (r : Nat) (p : PortReq), s.dev.queueRuns = true → j.listReq t w = some (r, p) → s.dev.portGrants p = true → s.dev.uncovered t q (.scratch t r) p.asked = false →
      let row := (s.dev.tile t).bankRow w r
      row.1.poison = 0 → row.2 = false → s.answers (.dmaReadReturn t q false 0) (s.dev.setTile t
        (((s.dev.tile t).takeSlot w (bankOf r) false).setQueue q ({ j with list := j.list ++ [(w, row.1.data)] } :: rest)))) ∧
    (∀ (x : Xfer) (u : TileId) (r : Nat), goes x → j.listReq t w = none → j.xfers = [x] → x.data = none → x.src = .scratch u r → x.asked + 8 ≤ w →
      s.dev.portGrants ⟨u, bankOf r, false, false, x.asked⟩ = true → s.dev.uncovered t q x.src x.asked = false →
      ((s.dev.tile u).bankRow w r).1.poison = 0 → ((s.dev.tile u).bankRow w r).2 = false →
      let row := ((s.dev.tile u).bankRow w r).1
      let got := fun (y : Tile) (poison : BitVec 64) (ready : Nat) (d : Dev) =>
        d = (s.dev.setTile u y).setTile t (((s.dev.setTile u y).tile t).setQueue q
          ({ j with xfers := [{ x with data := some { data := row.data, poison := poison }, ready := ready }] } :: rest))
      let y := (s.dev.tile u).takeSlot w (bankOf r) false
      (∃ d : Dev, s.answers (.dmaReadReturn t q false 0) d ∧ got y 0 w d) ∧
      (∃ d : Dev, s.answers (.dmaReadReturn t q true 0) d ∧ got (y.ceRead r (!y.writtenIn w r)) 0 (w + 2) d) ∧
      (∀ ue : BitVec 64, ue ≠ 0 → ∃ d : Dev, s.answers (.dmaReadReturn t q false ue) d ∧ (d.tile u).errRow = BitVec.ofNat 15 r ∧ (d.tile u).errPort = 2 ∧
        (d.tile u).errKind = 1 ∧ (d.tile u).ueForwarded = true ∧ d.log.next = s.dev.log.next + 1 ∧
        (d.tile t).queue q = { j with xfers := [{ x with data := some { data := row.data, poison := ue }, ready := w }] } :: rest)) ∧
    (∀ (x : Xfer) (p : Payload) (u : TileId) (r : Nat), goes x → j.listReq t w = none → j.xfers = [x] → x.data = some p → x.dst = .scratch u r →
      x.partial_ = true →
      x.merged = none → x.ready ≤ w → s.dev.portGrants ⟨u, bankOf r, false, u != t, x.ready⟩ = true →
      ((s.dev.tile u).bankRow w r).1.poison = 0 → ((s.dev.tile u).bankRow w r).2 = false →
      let y := (s.dev.tile u).takeSlot w (bankOf r) false
      s.answers (.dmaReadReturn t q false 0) ((s.dev.setTile u y).setTile t (((s.dev.setTile u y).tile t).setQueue q
        ({ j with xfers := [{ x with merged := some (w, ((s.dev.tile u).bankRow w r).1.patch x.off x.len p) }] } :: rest)))) ∧
    (∀ (x : Xfer) (p : Place → Bool), s.dev.waitingOn p = some (t, q, j, x) → s.dev.uncovered t q x.src x.asked = false →
      let got := fun (d : Dev) (data : SectorBits) (poison : BitVec 32) =>
        d.setTile t ((s.dev.tile t).setHead q (j.update { x with data := some { data := data, poison := spreadPoison poison }, ready := w }))
      (∀ (c : BitVec 8) (page : BitVec 16) (o : BitVec 7), let ph := physPage c.toNat page.toNat
        (p = fun z => match z with | .near v => s.dev.mem.nearKey v == (ph, o.toNat) | _ => false) →
        s.dev.mustWait s.dev.held (.fetch (s.dev.pathOf t x.src) c page o {}) = false →
        let y := s.dev.mem.peekNear ph o.toNat
        ∃ m, s.answers (.nearReadReturn c page o 0 0) (got { s.dev with mem := m } y.data y.poison) ∧ m = { s.dev.mem with channels := m.channels } ∧
          (page.toNat < 40960 → (m.channel c.toNat).served = (s.dev.mem.channel c.toNat).served + 1)) ∧
      (∀ sector, (p = fun z => match z with | .far v => v == sector | _ => false) →
        let y := s.dev.mem.peekFar sector
        (s.dev.mem.farLinkDown (sector / 113) = false → ∀ lines, s.answers (.farReadReturn sector lines) (got s.dev y.data (y.poison ||| linePoison lines))) ∧
        s.answers (.farReadTimeout sector) (got (s.dev.event srcFar evFarTimeout [(16, sector / 113), (20, sector % 113)]) y.data allPoison))) ∧
    (∀ (x : Xfer) (p : Payload), goes x → j.xfers = [x] → x.data = some p → descTotal j.bits ≤ j.cursor → x.off = 0 → x.len = 576 →
      (∀ y ∈ s.dev.run.stageWrites, y.place = x.dst → y.tile = t ∧ y.queue = q) → s.dev.readElsewhere t q x.dst = false →
      let ends := fun (d : Dev) (u : TileId) => s.answers (.dmaWriteLand t q) d ∧ (d.tile t).queue q = rest ∧
        (d.tile t).dma.count = (s.dev.tile t).dma.count + 1 ∧
        (dNoArrival j.bits = false → (d.tile u).arriving = (s.dev.tile u).arriving ++ [(w, dArrival j.bits)]) ∧
        (dNoArrival j.bits = true → (d.tile u).arriving = (s.dev.tile u).arriving) ∧ ∀ v, v ≠ t → v ≠ u → d.tile v = s.dev.tile v
      (∀ u r, x.dst = .scratch u r → refSpace (dDst j.bits) ≠ 2 → refSpace (dDst j.bits) ≠ 3 → x.merged = none → x.ready + 4 ≤ w →
        s.dev.portGrants ⟨u, bankOf r, true, u != t, x.ready⟩ = true → (s.dev.tile u).ringHolds r = false → (s.dev.tile u).wf = true →
        ∃ d : Dev, ends d u ∧ (d.tile u).rowAt r = { data := p.data, poison := p.poison } ∧ (∀ r', r' ≠ r → (d.tile u).rowAt r' = (s.dev.tile u).rowAt r') ∧
          d.mem = s.dev.mem) ∧
      (∀ sector, let k := s.dev.mem.nearKey sector
        x.dst = .near sector → refSpace (dDst j.bits) = 2 → x.ready ≤ w → s.dev.refreshing (pageChannel k.1) = false →
        (∀ h ∈ s.dev.held, pageChannel k.1 ∉ s.dev.channelsOf h) → s.dev.mem.wf = true → k.1 ∉ s.dev.mem.retiredNear →
        ∃ d : Dev, ends d t ∧ d.mem.peekNear k.1 k.2 = { data := p.data, poison := gatherPoison p.poison } ∧
          ∀ r, (d.tile t).rowAt r = (s.dev.tile t).rowAt r) ∧
      (∀ sector, x.dst = .far sector → refSpace (dDst j.bits) = 3 → x.ready ≤ w → s.dev.mem.wf = true → sector / 113 ∉ s.dev.mem.retiredFar →
        s.dev.mem.farLinkDown (sector / 113) = false →
        ∃ d : Dev, ends d t ∧ d.mem.peekFar sector = { data := p.data, poison := gatherPoison p.poison } ∧
          ∀ r, (d.tile t).rowAt r = (s.dev.tile t).rowAt r)) ∧
    (∀ sector, s.dev.mem.farValid sector = true → ∃ v : SectorBits, s.answers (.farWriteLost sector)
      (({ s.dev with mem := s.dev.mem.writeFar sector { data := v }, free := s.dev.free + 1 }).event srcFar evFarWriteLost [(16, sector / 113)]))

/-- R116, R137, R146, R206, R208, R211, R212: a chain packet lands on its tile; an accumulate adds into a near-tier sector, lane by lane modulo q, in 32-bit
integers or in FP32, and one that finds its channel in a refresh slot waits. How a packet's rows land one after the other (log 18) and in which order
accesses that wait are served (log 86) is the model's choice. -/
def Obligations.PacketsAndAccumulates : Prop :=
  ∀ (s : State),
    (∀ (t : TileId) (p : ChainPacket) (rest : List ChainPacket), (s.dev.tile t).nma.outbox = p :: rest → p.tile ≠ t → p.rows ≠ [] →
      s.dev.linkHeld [0, 1, 2, 3] = false → s.dev.portsOpen p.tile = true →
      s.dev.completes ⟨p.tile, p.ready, (rowsFrom p.row p.rows.length).drop p.landed⟩ = true →
      (∀ k, k < p.rows.length → (s.dev.tile p.tile).powered (p.row + k) = true) → (s.dev.tile p.tile).wf = true →
      ∃ d : Dev, s.answers (.chainPacketLand t) d ∧ (d.tile t).nma.outbox = rest ∧
        (d.tile p.tile).arriving = (s.dev.tile p.tile).arriving ++ [(s.dev.tick.wall, p.counter)] ∧
        (∀ r, (d.tile p.tile).rowAt r = if h : p.row + p.landed ≤ r ∧ r < p.row + p.rows.length then { data := p.rows[r - p.row], poison := 0 } else (s.dev.tile p.tile).rowAt r) ∧
        (∀ u, u ≠ t → u ≠ p.tile → d.tile u = s.dev.tile u) ∧ d.mem = s.dev.mem) ∧
    (∀ (op : AccOp) (sector : Nat) (operand : SectorBits) (poison : BitVec 32) (prime : Residue) (ecc : SectorEcc), s.dev.mem.nearValid sector = true →
      s.dev.pins.tripped = false →
      let h : Held := .accumulate op sector operand poison prime ecc
      (s.dev.mustWait s.dev.held h = true → s.answers (.accumulate op sector operand { operand := poison, target := ecc } prime) { s.dev with held := s.dev.held ++ [h] }) ∧
      let key := s.dev.mem.nearKey sector
      let old := s.dev.mem.peekNear key.1 key.2
      (s.dev.mustWait s.dev.held h = false → s.dev.mem.wf = true → key.1 ∉ s.dev.mem.retiredNear →
      ∃ d : Dev, s.answers (.accumulate op sector operand { operand := poison, target := ecc } prime) d ∧
        d = { s.dev with mem := { s.dev.mem with near := d.mem.near, channels := d.mem.channels }, fresh := d.fresh, log := d.log, host := d.host } ∧
        (ecc.ue = 0 → d.log = s.dev.log ∧ d.host = s.dev.host) ∧
        (∀ p o, o < 113 → (p, o) ≠ key → d.mem.peekNear p o = s.dev.mem.peekNear p o) ∧
        let new := d.mem.peekNear key.1 key.2
        new.poison = old.poison ||| ecc.ue ||| poison ∧ (match op with
          | .modAdd => 0 < prime.toNat → ∀ i, i < 128 →
              (lane128 new.data i).toNat = ((lane128 old.data i).toNat + (lane128 operand i).toNat) % prime.toNat
          | .int32Add => ∀ i, i < 144 → new.data.extractLsb' (32 * i) 32 = old.data.extractLsb' (32 * i) 32 + operand.extractLsb' (32 * i) 32
          | .fp32Add => ∀ i, i < 144 → (new.data.extractLsb' (32 * i) 32).toNat =
              (fAdd (old.data.extractLsb' (32 * i) 32).toNat (operand.extractLsb' (32 * i) 32).toNat).bits)))

/-- What sector o of page i of a key run holds (R179). -/
def Sys2Proof.Machine.Mem.keyAt (m : Mem) (e : KrtEntry) (i o : Nat) : Sector :=
  if e.far then m.peekFar (113 * e.farPage i + o) else m.peekNear (e.nearPage i) o

/-- A sector as a read gives it that finds some codewords uncorrectable or poisoned on the way (R206, R218). -/
def Sys2Proof.Machine.Sector.readAs (x : Sector) (found : BitVec 32) : Sector := { x with poison := x.poison ||| found }

/-- What a read of sector o of page i of a key run adds to its poison (R206, R207, R218). -/
def Sys2Proof.Machine.Mem.keyPoison (m : Mem) (e : KrtEntry) (i : Nat) (f : PageFindings) (o : Nat) : BitVec 32 :=
  if e.far then (if f.timeouts.contains o then allPoison else linePoison (pageLines f o))
  else if m.retiredNear.contains (e.nearPage i) then 0 else (pageEcc f o).ue

/-- R205, R208 to R210, R219 to R222: refresh slots, stack temperatures and their timer, the corrected-error rate, the hot channel, a swap with a cold page
that is free (log 28), a full remap table, and the sectors of a page of STAGE_KEYS that Transit's slots let it copy: a page lands with its last one. R385,
R448: at 110 °C the module trips. The model's choices are that a hot stack overrides PIN = 1 on every stack (log 26), the seconds that MEM_CE_RATE counts by
(log 45), that what a page's reads meet is free (log 66), that a STAGE_KEYS whose last page lands in a run goes on pending (log 51), and that the trip falls in
the row that brings the reading (log 87). -/
def Obligations.MemoryEvents : Prop :=
  ∀ (s : State),
    (∀ n : BitVec 8, s.dev.refreshDue n.toNat = true →
      s.answers (.refreshSlot n) (s.dev.onMem (fun m => m.onChannel n.toNat (fun c =>
        { c with refreshEnd := s.dev.tick.wall + 240, refreshLast := s.dev.tick.wall })))) ∧
    (∀ (k : BitVec 3) (temp : Byte), s.dev.pins.up = true → 110 ≤ temp.toNat → s.answers (.extendedRefreshEntry k temp) s.dev.trip) ∧
    (∀ (k : BitVec 3) (temp : Byte), s.dev.pins.up = true → temp.toNat < 110 → let x := s.dev.mem.stackOf[k.toNat]
      ∃ d : Dev, s.answers (.extendedRefreshEntry k temp) d ∧ d.mem.stackOf[k.toNat].temperature = temp ∧
        (d.mem.stackOf[k.toNat].hot = true ↔ 85 < temp.toNat ∨ x.hot = true ∧ 82 ≤ temp.toNat) ∧
        (d.mem.stackOf[k.toNat].timer = true ↔ x.timer = true ∨ 85 < temp.toNat ∧ x.temperature.toNat ≤ 85 ∧ x.extended = false) ∧
        d.mem.stackOf[k.toNat].extended = x.extended ∧ d.mem.channels = s.dev.mem.channels ∧ d.mem.near = s.dev.mem.near ∧
        (s.dev.mem.refreshPin = 1 → 85 < temp.toNat → d.mem.overridden = true) ∧
        d.log.next = s.dev.log.next + (if 95 < temp.toNat ∧ x.temperature.toNat ≤ 95 then 1 else 0)) ∧
    (∀ k : BitVec 3, s.dev.mem.stackOf[k.toNat].timer = true → ∃ m, s.answers (.extendedRateTimer k) { s.dev with mem := m } ∧
      m = { s.dev.mem with stackOf := m.stackOf, channels := m.channels } ∧ m.stackOf[k.toNat].timer = false ∧
      (let all := s.dev.mem.refreshPin = 1 ∧ s.dev.mem.anyHot = true
       let rate := fun i => all ∨ s.dev.mem.refreshPin ≠ 1 ∧ i = k.toNat
       (∀ i : Fin 8, (rate i.val → m.stackOf[i].extended = true) ∧ (¬ rate i.val → m.stackOf[i].extended = s.dev.mem.stackOf[i].extended)) ∧
       ∀ n, n < 256 → (rate (n / 32) → m.channel n = { s.dev.mem.channel n with extended := true }) ∧
         (¬ rate (n / 32) → m.channel n = s.dev.mem.channel n))) ∧
    (∀ n : BitVec 8, let c := s.dev.mem.channel n.toNat
      1024 ≤ c.ceSecond → c.ceLogged = false → c.ceSec = s.dev.log.time / 80000000000000 →
      s.answers (.memCeRate n) ((s.dev.onMem (fun m => m.onChannel n.toNat (fun c => { c with ceLogged := true }))).event (0x40 + n.toNat / 64) evMemCeRate
        [(16, n.toNat), (20, c.ceSecond)])) ∧
    (s.dev.tick.running = true → s.dev.mem.hotJudged = false → s.dev.tick.number ≠ 0 →
      ∃ (d : Dev) (b : Nat), b < 256 ∧ s.answers .transitHotDetect d ∧ d.mem.hotJudged = true ∧
        (∀ n, n < 256 → (s.dev.mem.channel n).lastServed ≤ (s.dev.mem.channel b).lastServed) ∧
        (∀ n, n < 256 → n ≠ b → (d.mem.channel n).hotTicks = 0) ∧
        (let total := ((List.range 256).map (fun n => (s.dev.mem.channel n).lastServed)).sum
         let hot := 4 * total < 256 * (s.dev.mem.channel b).lastServed ∧ s.dev.tick.lastLen ≤ 50 * (s.dev.mem.channel b).lastServed
         (hot → (d.mem.channel b).hotTicks = (s.dev.mem.channel b).hotTicks + 1) ∧ (¬ hot → (d.mem.channel b).hotTicks = 0)) ∧
        (d.mem.hotValid = true ↔ 256 ≤ (d.mem.channel b).hotTicks) ∧ (d.mem.hotValid = true → d.mem.hot.toNat = b) ∧ d.mem.near = s.dev.mem.near) ∧
    (∀ (x : Nat × Nat) (q gp gq : Nat), let m := s.dev.mem
      let p := physPage m.hot.toNat x.1
      s.dev.quietWindow = true → m.hotValid = true → m.transitPin = false → m.tableFull = false → s.dev.power.short = false →
      m.singlePage m.hot.toNat = none → m.leastLoaded ≠ m.hot.toNat → s.dev.mustWait s.dev.held (.swap m.hot.toNat m.leastLoaded) = false →
      s.dev.held.any Held.isSwap = false →
      s.dev.transitRoom m.hot.toNat 226 = true → s.dev.transitRoom m.leastLoaded 226 = true →
      m.hotPage m.hot.toNat = some x → m.coldPage m.leastLoaded s.dev.freeValue = some q → m.logical p = some gp → m.logical q = some gq →
      (gp ≠ gq → p ≠ q → m.remap.length + 2 < 16384 → p ∉ m.retiredNear → q ∉ m.retiredNear → m.wf = true →
        ∃ d : Dev, s.answers .transitSwap d ∧
          d = { s.dev with mem := d.mem, free := s.dev.free + 1, fresh := d.fresh, log := d.log, host := d.host } ∧
          d.mem.place gp = q ∧ d.mem.place gq = p ∧
          (∀ o, o < 113 → d.mem.peekNear q o = (m.peekNear p o).readAs (pageEcc (s.dev.findings 0) o).ue ∧
            d.mem.peekNear p o = (m.peekNear q o).readAs (pageEcc (s.dev.findings 1) o).ue) ∧
          (d.mem.channel m.hot.toNat).transitUsed = (m.channel m.hot.toNat).transitUsed + 226) ∧
      (m.remap.length = 16384 → m.remap.any (fun e => e.1 == gp) = false →
        s.answers .transitSwap (({ s.dev with mem := { m with tableFull := true } }).event srcFirmware evTransitTableFull []))) ∧
    (∀ (jb : Job) (id : Word) (far : Bool) (moves : List (Nat × Nat)) (landed : List Nat) (n : Nat) (e : KrtEntry) (first i : Nat) (b : BoundSet),
      s.dev.host.jobs = [jb] → jb.kind = .stage id far moves landed → landed.length < stageTotal s.dev.keys moves → s.dev.keys.set? id = some b →
      s.dev.nextStaged far moves landed = some (n, e, first, i) → s.dev.running = true →
      (e.far = true → s.dev.mem.farLinkDown (e.farPage i) = false) →
      let ch := stageChannel far e first i
      let all := keyS b.table.logN.toNat + 1
      let a := jb.copied n
      let k := s.dev.moverSlots ch (all - a)
      s.dev.mustWait s.dev.held (.move ch n) = false →
      ∃ d : Dev, s.answers .stagingPageCopy d.pumpAll ∧ d.keys = s.dev.keys ∧ d.tiles = s.dev.tiles ∧
        d.host.jobs = [if a + k < all then { jb with begun := setCopied jb.begun n (a + k) } else { jb with kind := .stage id far moves (landed ++ [n]) }] ∧
        (d.mem.channel ch).transitUsed = (s.dev.mem.channel ch).transitUsed + k ∧
        (far = false → s.dev.mem.wf = true → linearPhys (first + i) ∉ s.dev.mem.retiredNear → ∀ o, a ≤ o → o < a + k →
          d.mem.peekNear (linearPhys (first + i)) o = (s.dev.mem.keyAt e i o).readAs (s.dev.mem.keyPoison e i (s.dev.findings 0) o)) ∧
        (far = true → s.dev.mem.wf = true → first + i ∉ s.dev.mem.retiredFar → s.dev.mem.farLinkDown (first + i) = false →
          ∀ o, a ≤ o → o < a + k → d.mem.peekFar (113 * (first + i) + o) = (s.dev.mem.keyAt e i o).readAs (s.dev.mem.keyPoison e i (s.dev.findings 0) o)))

/-- R176: block b of the output of SHAKE256 on m, of rate 136 bytes. -/
def Sys2Proof.Machine.shakeOut (m : List Byte) (b : Nat) : List Byte := shakeBlock (keccakF^[b] (shakeStart m))

/-- R176: of the first n groups of five bytes of SHAKE256 on m, across block edges, the values below q in order. -/
def Sys2Proof.Machine.acceptedOf (q : Nat) (m : List Byte) (n : Nat) : List Nat :=
  let bytes := ((List.range (n / 27 + 1)).map (shakeOut m)).flatten
  ((List.range n).map (fun i => leAt bytes (5 * i) 5 % 2 ^ (q.log2 + 1))).filter (fun v => decide (v < q))

/-- R131, R137, R178, R184, R186, R189 to R191, R193: a grant starts the fill or the expansion of least slack; a page header that passes and one that does
not; a fill and an expansion that land. R31, R32, R176, R178, R414: what the rows of an expansion hold. That an uncorrectable header sets MISMATCH too is the
model's choice (log 40), and so is when the rows land one by one and when the landing counts (log 85). -/
def Obligations.KeyStreamEvents : Prop :=
  (∀ (seed : List Byte) (entry c use q count tries : Nat), seed.length = 32 →
    let a := acceptedOf q (seed ++ [BitVec.ofNat 8 entry, BitVec.ofNat 8 c, BitVec.ofNat 8 use]) tries
    tailExpand seed entry c use q count tries = (a.take count ++ List.replicate (count - a.length) 0, decide (a.length < count))) ∧
  (∀ (e : Expansion) (seed : List Byte) (device : Bool) (j entry q c r : Nat), let s := keyS e.hdr.logN.toNat
    let n := sectorsOf e.hdr.logN.toNat
    let limbs := e.hdr.level.toNat + 1
    e.entries[j]? = some (entry, q) → c < keyChunks e.hdr.logN.toNat → r < s →
    let value := (tailExpand seed entry c (if device then 2 else 1) q (128 * s) (if device then 384 * s else 8192 * s)).1
    ∃ v : Row, (e.row + (if e.hdr.layout then (n + (s * c + r)) * limbs + j else (limbs + j) * n + (s * c + r)), v) ∈ (expansionRows e seed device).1 ∧
      v.poison = 0 ∧ ∀ k, k < 128 → (lane128 v.data k).toNat = value.getD (128 * r + k) 0 % 2 ^ 36) ∧
  ∀ (s : State) (t : TileId), let die := dieOf t
    let w := s.dev.tick.wall
    (s.dev.running = true → (s.dev.ksu die).fills.length < 16 → (s.dev.ksu die).freeAt ≤ w →
      (∀ (n : Nat) (slack : Int) (e : KrtEntry) (b : BoundSet), let r := (s.dev.tile t).ringAt n
        n < 4 → leastSlack (s.dev.requesters die) = some (.ring t n, slack) →
        s.dev.keys.locate r.srcKeyset r.src = some e → s.dev.keys.set? r.srcKeyset = some b →
        ∃ d : Dev, s.answers (.ksuGrant die) d ∧
          (d.tile t).ringAt n = { r with fill := r.fill + 1, slots := r.slots.set (r.fill % max r.slots.length 1) .filling } ∧
          (∃ f, (d.ksu die).fills = (s.dev.ksu die).fills ++ [f] ∧ f.tile = t ∧ f.ring = BitVec.ofNat 2 n ∧ f.index = r.fill ∧ f.key = e ∧
            f.checked = none ∧ f.deadline = r.armCycle + r.first + r.fill * r.period) ∧
          (d.ksu die).freeAt = w + (r.s + 5) / 5 ∧ d.mem = s.dev.mem ∧ (∀ u, u ≠ t → d.tile u = s.dev.tile u)) ∧
      (∀ (i : Nat) (slack : Int) (e : Expansion), leastSlack (s.dev.requesters die) = some (.expansion t i, slack) → (s.dev.tile t).expands[i]? = some e →
        let starts := fun (seed : List Byte) (device : Bool) => { s.dev.tile t with expands := (s.dev.tile t).expands.set i { e with
          started := some w, rows := (expansionRows e seed device).1, short := (expansionRows e seed device).2 } }
        (e.hdr.seed ≠ BitVec.allOnes 256 → s.answers (.ksuGrant die) (s.dev.setTile t (starts (leBytes 32 e.hdr.seed.toNat) false))) ∧
        (e.hdr.seed = BitVec.allOnes 256 → s.dev.sec.drbg = 2 → s.answers (.ksuGrant die) s.dev) ∧
        (e.hdr.seed = BitVec.allOnes 256 → s.dev.sec.drbg ≠ 2 → ∃ (seed : List Byte) (x : Sec), seed.length = 32 ∧ x.draws = s.dev.sec.draws + 1 ∧
          s.answers (.ksuGrant die) ({ s.dev with sec := x }.setTile t (starts seed true))))) ∧
    (∀ (f : Fill) (n : BitVec 2), let r := (s.dev.tile t).ringAt n.toNat
      let x := s.dev.mem.keyAt f.key f.page 0
      (s.dev.ksu die).fills = [f] → f.tile = t → f.ring = n → r.armed = true → f.body = none →
      (∀ body, s.dev.mustWait s.dev.held (f.access body {}) = false) →
      (f.key.far = true → s.dev.mem.farLinkDown (f.key.farPage f.page) = false) →
      (f.checked = none → x.poison = 0 → headerMatches r f x.data.toNat = true →
        ∃ m, s.answers (.ksuPageHeaderArrival t n {}) (({ s.dev with mem := m }).setKsu die { s.dev.ksu die with
            fills := [{ f with head := x, checked := some w }] }) ∧ m = { s.dev.mem with channels := m.channels }) ∧
      (f.checked = none → (x.poison ≠ 0 ∨ headerMatches r f x.data.toNat = false) → (s.dev.tile t).halted = false →
        ∃ d : Dev, s.answers (.ksuPageHeaderArrival t n {}) d ∧ (d.tile t).halted = true ∧
          (d.tile t).haltReason = (if x.poison = 0 then .keyMismatch else .uncorrectable) ∧
          (d.tile t).haltAddr = r.armBundle ∧ (d.ksu die).fills = [] ∧ (d.ksu die).mismatch = true ∧ (x.poison ≠ 0 → (d.ksu die).ueHeader = true) ∧
          (d.tile t).scratch = (s.dev.tile t).scratch ∧ (d.tile t).arrival = (s.dev.tile t).arrival) ∧
      (∀ v, f.checked = some v → s.dev.completes ⟨t, v, (r.fillPlaces f).drop f.landed⟩ = true → r.s ≤ 64 →
        ∃ d : Dev, s.answers (.slotFillComplete t { ring := n }) d ∧ (d.ksu die).fills = [] ∧
        (d.tile t).ringAt n.toNat = { r with done := r.done + 1, slots := r.slots.set (f.index % max r.slots.length 1) .full } ∧
        (d.tile t).arriving = (s.dev.tile t).arriving ++ [(w, r.counter)] ∧ (d.tile t).halted = (s.dev.tile t).halted ∧
        d.mem = { s.dev.mem with channels := d.mem.channels } ∧ (∀ u, u ≠ t → d.tile u = s.dev.tile u) ∧
        (let base := r.base + (f.index % max r.slots.length 1) * r.slotRows
         (s.dev.tile t).wf = true → ((d.tile t).rowAt base).data = f.head.data ∧ ∀ o, o < r.s →
           (d.tile t).rowAt (base + 8 + o) = { data := (s.dev.mem.keyAt f.key f.page (o + 1)).data
                                               poison := spreadPoison (s.dev.mem.keyAt f.key f.page (o + 1)).poison }))) ∧
    (∀ (e : Expansion) (v : Nat), (s.dev.tile t).expands = [e] → e.started = some v → (s.dev.tile t).wf = true →
      let left := e.rows.drop e.landed
      s.dev.completes ⟨t, v, left.map (·.1)⟩ = true → (left.map (·.1)).Nodup →
      ∃ d : Dev, s.answers (.expandComplete t) d ∧ (d.tile t).expands = [] ∧ (d.tile t).arriving = (s.dev.tile t).arriving ++ [(w, e.counter)] ∧
        (∀ p ∈ left, (d.tile t).rowAt p.1 = p.2) ∧ (∀ r, r ∉ left.map (·.1) → (d.tile t).rowAt r = (s.dev.tile t).rowAt r) ∧
        (let y := d.tile t
         y = { s.dev.tile t with scratch := y.scratch, ceRows := y.ceRows, reads := y.reads, slotWall := y.slotWall, slotReads := y.slotReads
                                 slotWrites := y.slotWrites, before := y.before, expands := [], arriving := y.arriving }) ∧
        (∀ u, u ≠ t → d.tile u = s.dev.tile u) ∧ d.mem = s.dev.mem ∧ (e.short = true → (d.ksu die).late = true) ∧ (e.short = false → d.keys = s.dev.keys))

/- Power, clocks and resets (R375 to R393, R418 to R424). -/

/-- R380 to R385, R390 to R392, R446, R448: evaluations and the brake, the trip at 125 °C, the input monitor, a droop, and a step of the voltage loop,
pinned or not. The model's choices are the candidates of a throttle (log 30), that a droop leaves a pinned code (log 31), the average of 1,000 samples with
its steps of 10 W (log 75), that a brake in BOOT is recorded without an evaluation, and that the trip falls in the row that brings the reading (log 87). -/
def Obligations.PowerEvents : Prop :=
  ∀ (s : State),
    (let p := s.dev.power
     let evaluated := fun (i : Instr) (seen : Sensors) (brake : Bool) => ∃ d : Dev, s.answers i d ∧ d.power.package = seen.package ∧ d.power.brake = brake ∧
       d.power.evals = p.evals + 1 ∧ d.power.budget = p.budget ∧ d.power.floor = p.floor ∧ d.tiles = s.dev.tiles ∧ d.mem = s.dev.mem ∧
       d.power.grant = min (if brake && decide (p.floor < p.budget) then p.floor else p.budget) d.power.inputTerm ∧
       (p.input.toNat ≤ 990 → d.power.inputTerm = p.inputTerm) ∧ (990 < p.input.toNat → d.power.inputTerm = min p.inputTerm p.budget - 10) ∧
       (d.power.short = false → d.power.grant * 100 ≥ seen.package.toNat * 100) ∧
       (∀ g, (d.group g).counter = (s.dev.group g).counter ∧ ∀ q ∈ (d.group g).throttles,
         q ∈ (s.dev.group g).throttles ∨ q = (s.dev.tick.wall + 3, s.dev.tick.wall + 2002))
     (∀ seen, s.dev.tick.running = true → s.dev.tick.cycle % 2000 = 0 → p.evalAt ≠ some s.dev.tick.wall →
       ((∀ t ∈ seen.junction, t.toNat < 125) → evaluated (.arbiterEvaluation seen) seen p.brake) ∧
       ((∃ t ∈ seen.junction, 125 ≤ t.toNat) → s.answers (.arbiterEvaluation seen) s.dev.trip)) ∧
     (∀ seen, s.dev.pins.up = true → s.dev.run.state ≠ .boot → (∀ t ∈ seen.junction, t.toNat < 125) →
       (p.brake = false → evaluated (.pwrBrakeAssert seen) seen true) ∧ (p.brake = true → evaluated (.pwrBrakeRelease seen) seen false)) ∧
     (∀ seen, s.dev.run.state = .boot → p.brake = false → ∃ d : Dev, s.answers (.pwrBrakeAssert seen) d ∧ d.power.brake = true ∧
       d.power.evals = p.evals ∧ d.power.grant = p.grant ∧ d.groups = s.dev.groups) ∧
     (∀ w : BitVec 16, s.dev.pins.up = true → p.inputSamples.length ≤ 1000 →
       let xs := (p.inputSamples ++ [w.toNat]).drop (p.inputSamples.length - 999)
       ∃ y : Power, s.answers (.inputMonitorSample w) { s.dev with power := y } ∧ y.inputSamples = xs ∧ y.input = BitVec.ofNat 16 (xs.sum / max xs.length 1) ∧
         (970 ≤ xs.sum / max xs.length 1 → y.inputTerm = p.inputTerm ∧ y.sinceRaise = 0) ∧
         (xs.sum / max xs.length 1 < 970 → p.inputTerm < p.budget → p.sinceRaise = 999 → y.inputTerm = min (p.inputTerm + 10) p.budget))) ∧
    (∀ die : DieId, s.dev.pins.up = true →
      ∃ d : Dev, s.answers (.droopDetected die) d ∧ d.power.events.getLsbD 4 = true ∧
        (let c := (s.dev.clocks.code.getD die.toNat 0)
         let raised := s.dev.clocks.code.set die.toNat (BitVec.ofNat 7 (min 72 (c.toNat + 2)))
         d.clocks = { s.dev.clocks with code :=
           if (s.dev.clocks.inForce.getD die.toNat none).isSome = true ∧ s.dev.clocks.overriding.getD die.toNat false = false then s.dev.clocks.code
           else raised }) ∧
        (∀ g, s.dev.dieCandidate die.toNat = some g → d.group g = { s.dev.group g with
          throttles := (s.dev.group g).throttles ++ [(s.dev.tick.wall + 3, s.dev.tick.wall + 2002)] }) ∧
        (∀ g, s.dev.dieCandidate die.toNat ≠ some g → d.group g = s.dev.group g) ∧ d.tiles = s.dev.tiles) ∧
    (∀ (die : DieId) (slack guard : BitVec 8), let k := s.dev.clocks
      let n := die.toNat
      let c := (k.code.getD n 0).toNat
      let steps := fun (code : Nat) (ov : Bool) (told : Nat) => ∃ d : Dev, s.answers (.avsStep die slack guard) d ∧ d.clocks.slack.getD n 0 = slack ∧
        (d.clocks.code.getD n 0).toNat = code ∧ d.clocks.overriding.getD n false = ov ∧ d.log.next = s.dev.log.next + told ∧ d.power = s.dev.power ∧
        d.tiles = s.dev.tiles
      s.dev.pins.up = true → k.code.length = 4 → k.slack.length = 4 → k.overriding.length = 4 → c ≤ 72 →
      (k.pin.getD n false = false →
        steps (if guard.toInt < slack.toInt then c - 1 else if slack.toInt < guard.toInt then min 72 (c + 1) else c) false 0) ∧
      (k.pin.getD n false = true → k.overriding.getD n false = false →
        (k.inForce.getD n none ≠ some (k.pinCode.getD n 0) ∨ 0 ≤ slack.toInt → steps (k.pinCode.getD n 0).toNat false 0) ∧
        (k.inForce.getD n none = some (k.pinCode.getD n 0) → slack.toInt < 0 → steps (min 72 (c + 1)) true 1)))

/-- R385, R389, R412, R413, R433: the thermal trip, a lost clock, an entropy failure, a reseed and a fault inside. A lost clock logs CLOCK_LOST and a failed
health test ENTROPY_FAIL; the device is in FAULTED from then on, every pending command completes with DEVICE_FAULT, and FAULT_INFO and DEVICE_FAULT give the
cause. Of a run the tiles stop as at ABORT, and the rest follows once what channels and ports had accepted has landed (log 46), or at once where the core clock
is lost.
R265: a load that fails while it is applied completes with DEVICE_FAULT first.
The UNIT of a lost REFCLK, and which entries have firmware as their source, are the model's choice (log 34), and so is what a failed load leaves (log 89). -/
def Obligations.FaultEvents : Prop :=
  ∀ (s : State),
    (s.dev.pins.up = true → ∃ d : Dev, s.answers .thermalTrip d ∧ d.pins.rails = [] ∧ d.pins.tripped = true ∧ d.pins.moduleId = s.dev.pins.moduleId ∧
      d.run.state = .boot ∧ d.flash = s.dev.flash ∧ d.host.out = s.dev.host.out ++ [.thermTrip] ∧ d.log.entries = []) ∧
    (s.dev.sec.drbg = 1 → s.answers .drbgReseed { s.dev with sec := { s.dev.sec with reseeds := satInc s.dev.sec.reseeds, requests := 0 } }) ∧
    let noted := fun (d : Dev) (code unit : Nat) =>
      ({ d with pins := { d.pins with faultCause := BitVec.ofNat 8 code, faultUnit := BitVec.ofNat 8 unit, faultAtBoot := false } } : Dev).event
        srcFirmware evDeviceFault [(16, code), (17, unit), (20, d.tick.runTick % 2 ^ 32)]
    let ends := fun (e : Dev) (code unit : Nat) => noted (e.finishAll (fun _ => true) .deviceFault (fun _ => noDetail)) code unit
    let lost := fun (k : Clocks) =>
      let d : Dev := { s.dev with clocks := k }
      (d.mark 0x50004 0x20).event srcFirmware evClockLost [(16, (d.readClocks 0x50004).toNat % 64)]
    let k := { s.dev.clocks with refclkLost := true }
    let failed := fun (a : Bool) =>
      ({ s.dev with sec := { s.dev.sec with drbg := 2, rctFail := s.dev.sec.rctFail || !a, aptFail := s.dev.sec.aptFail || a } } : Dev).event
        srcEntropy evEntropyFail [(16, if a then 2 else 1)]
    (s.dev.run.state ≠ .boot → s.dev.run.state ≠ .faulted →
      let faulted := fun (i : Instr) (p : Dev) (cause : FaultCause) (code unit opcode : Nat) (core : Bool) =>
        let d := p.enter .faulted opcode
        let stopped := d.stopTiles (.fault cause unit)
        (s.dev.run.going = true → core = false → stopped.stillLands = true → s.answers i stopped.pumpAll ∧ stopped.run.state = .faulted) ∧
        (s.dev.run.going = false ∨ core = true ∨ stopped.stillLands = false → ∃ e : Dev,
          let x := ends e code unit
          s.answers i (({ x with tick := { x.tick with running := x.tick.running && !core } } : Dev).pumpAll) ∧
          e.host.jobs = s.dev.host.jobs ∧ e.run.state = .faulted ∧ e.flash = s.dev.flash ∧ e.clocks = p.clocks ∧ e.sec = p.sec ∧
          (∀ q ∈ e.peer.plans.toList, ∀ x, q = some x → x.instances = []) ∧
          (s.dev.run.going = false → e = d.abandonReductions.dropTest.dropTick) ∧
          (s.dev.run.going = true → ∀ t, s.dev.inImage t = true → (s.dev.tile t).halted = false → (e.tile t).haltReason = .aborted))
      faulted (.clockLost .core) (lost { k with coreLock := false, sscOn := false }) .clock 1 0 0 true ∧
      faulted (.clockLost .refclk) (lost { k with coreLock := false, nucLock := false, dramLock := false, sscOn := false }) .clock 1 0 0 true ∧
      faulted (.clockLost .nucleus) (lost { k with nucLock := false }) .clock 1 1 0 false ∧
      faulted (.clockLost .dram) (lost { k with dramLock := false }) .clock 1 2 0 false ∧
      (∀ a, s.dev.sec.drbg = 1 → faulted (.entropyHealthFail a) (failed a) .entropy 4 0 0 false) ∧
      ∀ u : Byte, faulted (.internalFault .nucleus u) s.dev .nucleus 5 0 0 false ∧
        faulted (.internalFault .dieLink u) { s.dev with clocks := { s.dev.clocks with linksDown := s.dev.clocks.linksDown ++ [u.toNat] } } .dieLink 6 u.toNat 0
          false ∧
        faulted (.internalFault .channel u) s.dev .channel 7 u.toNat 0 false ∧
        (s.dev.run.state = .sanitizing → faulted (.internalFault .sanitizeWrite u) s.dev .sanitizeWrite 9 0 0x73 false)) ∧
    (∀ (c : Packet) (f : Fetched) (u : Byte), s.offers c f → c.opcode = 0x10 → s.dev.run.state = .ready →
      let d := ((s.taken f).onMem (fun m => m.adoptHash)).enter .faulted 0x10
      s.answers (.internalFault .loadApply u) (ends ((d.complete f false .deviceFault noDetail).abandonReductions.dropTest.dropTick) 8 0).pumpAll)

/-- The state after n steps that all answer a next state. -/
def Sys2Proof.Machine.State.after : Nat → State → Option State
  | 0, s => some s
  | n + 1, s => match step s with
    | .next t => State.after n t
    | _ => none

/-- R318, R358, R394, R395, R397, R418 to R423, R429, R446: power, warm reset, a boot in which no hardware fails, FLR and a host link that goes down: of a run
its steps follow once what channels and ports had accepted has landed (log 46). It drops what is fetched (log 61), and a brake's level stands through a warm
reset (log 87). Boot
begins with its row, and its nine steps are steps of the empty queue (log 5); whether the fuzzy extractor's value and a firmware slot pass their tests rests on
free values (log 12), and which of the two tests of step 3 is made first is the model's reading (log 60). -/
def Obligations.ResetEvents : Prop :=
  ∀ (s : State),
    (∀ m : BitVec 3, s.dev.pins.inputPower = false → ∃ d : Dev, s.answers (.powerOn m) d ∧ d.pins.moduleId = m ∧ d.pins.up = true ∧ d.pins.inputPower = true ∧
      d.pins.perst = true ∧ d.run = State.reset.dev.run ∧ d.tick = State.reset.dev.tick ∧ d.flash = s.dev.flash ∧ d.mem.near = [] ∧
      d.host.peerHalf = s.dev.flash.splitLink) ∧
    (s.dev.pins.inputPower = true → ∃ d : Dev, s.answers .inputPowerLoss d ∧ d.pins = State.reset.dev.pins ∧ d.run = State.reset.dev.run ∧
      d.log = State.reset.dev.log ∧ d.flash = s.dev.flash ∧ d.mem.near = [] ∧ d.mem.far = []) ∧
    (s.dev.pins.up = true → ∃ d : Dev, s.answers .warmReset d ∧ d.run = State.reset.dev.run ∧ d.tick = State.reset.dev.tick ∧
      (s.dev.run.state = .boot → d.log = s.dev.log) ∧ (s.dev.run.state ≠ .boot → d.log.next = s.dev.log.next + 1) ∧
      d.pins.moduleId = s.dev.pins.moduleId ∧ d.pins.perst = true ∧ d.pins.up = true ∧ d.flash = s.dev.flash ∧ d.host.rings = State.reset.dev.host.rings ∧
      d.sec.owner = none ∧ d.pke.mem = [] ∧ d.power = { State.reset.dev.power with brake := s.dev.power.brake }) ∧
    (∀ b : BootSeen, s.dev.pins.up = true → s.dev.pins.perst = true → s.dev.run.state = .boot →
      ∃ d : Dev, s.answers (.bootStart b) d ∧ d.run.state = .boot ∧ d.pins.perst = false ∧ d.booting = some { seen := b, step := 1 } ∧
        d.flash = s.dev.flash ∧ d.tiles = s.dev.tiles ∧ d.mem = s.dev.mem ∧ d.sec = s.dev.sec) ∧
    (∀ b : BootSeen, s.dev.pins.up = true → s.dev.pins.perst = true → s.dev.run.state = .boot → s.dev.tick.running = false → b.failure = none →
      s.dev.flash.sanitize = none → let f := s.dev.flash
      ∃ d : Dev, State.after 10 { s with pending := [.bootStart b] } = some { pending := [], dev := d } ∧ d.booting = none ∧ d.pins.perst = false ∧
        d.tiles = s.dev.tiles ∧ d.flash = f ∧ d.clocks.coreLock = true ∧ d.clocks.nucLock = true ∧ d.clocks.dramLock = true ∧ d.host.linkRate = b.linkRate ∧
        (f.pufOk b.puf = false → d.run.state = .faulted ∧ d.pins.faultCause = 2 ∧ d.pins.faultAtBoot = true ∧ d.tick.running = false) ∧
        (f.pufOk b.puf = true → f.slotA.verifies = false → f.slotB.verifies = false → d.run.state = .faulted ∧ d.pins.faultCause = 3 ∧
          d.pins.faultAtBoot = true ∧ d.sec.bootSlot = 3 ∧ d.tick.running = false) ∧
        (f.pufOk b.puf = true → f.slotA.verifies = true ∨ f.slotB.verifies = true →
          let slotA := f.slotA.verifies = true ∧ (f.slotB.verifies = false ∨ f.slotB.version.toNat ≤ f.slotA.version.toNat)
          d.run.state = .ready ∧ d.tick.running = true ∧ d.sec.fwRunning = true ∧ d.sec.pufOk = true ∧ d.sec.drbg = 1 ∧ d.sec.owner = f.owner ∧
          d.pke.owner = .none ∧ (∀ n, n < 256 → (d.mem.channel n).state = 2) ∧ d.mem.hashRows = hashRowsOf s.dev.mem.hashSeed s.dev.mem.hashDie ∧
          (∀ k, (false, k) ∈ f.retired ↔ k ∈ d.mem.retiredNear) ∧ (∀ k, (true, k) ∈ f.retired ↔ k ∈ d.mem.retiredFar) ∧
          (slotA → d.sec.bootSlot = 1 ∧ d.sec.fwSvn = f.slotA.version ∧ d.sec.fwVersion = Config.fwVersion f.slotA.image) ∧
          (¬ slotA → d.sec.bootSlot = 2 ∧ d.sec.fwSvn = f.slotB.version ∧ d.sec.fwVersion = Config.fwVersion f.slotB.image))) ∧
    (let stopped := s.dev.stopTiles (.flr s.dev.run.state)
     s.dev.pins.tripped = false → s.dev.run.going = true → stopped.stillLands = true → s.answers .flr stopped ∧ s.answers (.hostLinkDown false) stopped) ∧
    (s.dev.pins.tripped = false → s.dev.run.state ≠ .boot → s.dev.run.state ≠ .faulted → s.dev.run.state ≠ .sanitizing →
      (s.dev.run.going = true → (s.dev.stopTiles (.flr s.dev.run.state)).stillLands = false) → ∀ i ∈ [Instr.flr, .hostLinkDown false],
      ∃ d : Dev, s.answers i d ∧ d.run.state = .ready ∧ d.host.jobs = [] ∧ d.host.fetched = [] ∧ d.host.rings = State.reset.dev.host.rings ∧ d.host.msix = [] ∧
        d.host.bar4Base = 0 ∧ d.pke.session = none ∧ (s.dev.run.state ≠ .ready → d.run.image = none ∧ ∀ n, (d.stream n).isOpen = false) ∧
        d.flash = s.dev.flash ∧ d.keys.bound = s.dev.keys.bound ∧ d.tick.number = s.dev.tick.number) ∧
    s.answers (.hostLinkDown true) s.dev

/- Streams, peers and reductions (R350 to R374). -/

/-- R324, R327, R350 to R353: admission, consumption, the lap check, a batch record with its flags, and the doorbell of a stream, which waits behind a BAR4 write
that no channel has accepted. That POSTED does not advance till a record that finds no room is written is the model's choice (log 52). -/
def Obligations.StreamEvents : Prop :=
  ∀ (s : State) (n : BitVec 6), let x := s.dev.stream n
    x.isOpen = true → x.period ≠ 0 →
    let due := fun (t b : Nat) => t = x.phase + b * x.period
    (s.dev.atCycleZero = true → ∀ b, (x.output = false → due s.dev.tick.runTick b → b ∉ x.starved → serialAfter x.hostCount (BitVec.ofNat 32 b) = false →
        s.answers (.streamAdmission n) ((s.dev.setStream n { x with starved := x.starved ++ [b], starvedCount := satInc x.starvedCount }).event srcFirmware
          evStreamStarved [(16, n.toNat), (20, b % 2 ^ 32)])) ∧
      (x.output = false → due s.dev.tick.runTick b → serialAfter x.hostCount (BitVec.ofNat 32 b) = true → s.answers (.streamAdmission n) s.dev) ∧
      (x.output = true → due (s.dev.tick.runTick + x.hold) b → x.slots ≤ b → b ∉ x.lapped → serialAfter x.hostCount (BitVec.ofNat 32 (b - x.slots)) = false →
        s.answers (.streamLapCheck n) ((s.dev.setStream n { x with lapped := x.lapped ++ [b], lappedCount := satInc x.lappedCount }).event srcFirmware
          evStreamLapped [(16, n.toNat), (20, b % 2 ^ 32)]))) ∧
    (s.dev.inDrain = true → s.dev.run.stopDrain = false → ∀ b, serialAfter (BitVec.ofNat 32 b + 1) x.devCount = true →
      (x.output = false → x.notify = false → x.hold + 1 ≤ s.dev.tick.runTick → due (s.dev.tick.runTick - x.hold - 1) b →
        s.answers (.streamConsume n) (s.dev.setStream n { x with devCount := BitVec.ofNat 32 b + 1 })) ∧
      let cq := s.dev.ring x.cq
      let waits := fun (r : BatchRec) => (if x.slots ≤ x.backlog.length then x.backlog.drop 1 else x.backlog) ++ [r]
      let record := fun (flags : Word) => ({ batch := BitVec.ofNat 32 b, flags := flags, slot := b % x.slots, tick := x.phase + b * x.period, current := true } : BatchRec)
      let posts := fun (i : Instr) (flags : Word) => ∃ (d : Dev) (e : Output) (bytes : List Byte), s.answers i d ∧ (∃ rest, d.host.out = s.dev.host.out ++ e :: rest) ∧
        e = .record x.cq cq.cqTail.toNat (cq.cqTaken.toNat + 32 * cq.cqTail.toNat) bytes ∧
        d.stream n = { x with devCount := BitVec.ofNat 32 b + 1 } ∧ (d.ring x.cq).used = cq.used + 1 ∧ d.tiles = s.dev.tiles ∧
        bytes.length = 32 ∧ byteAt bytes 0 = 0 ∧ byteAt bytes 1 = s.dev.run.state.code ∧ byteAt bytes 2 = 0 ∧ byteAt bytes 3 = 2 + cq.phase.toNat ∧
        leAt bytes 4 4 = b % 2 ^ 32 ∧ leAt bytes 8 2 = 0 ∧ leAt bytes 10 2 = n.toNat ∧ leAt bytes 12 4 = flags.toNat ∧ leAt bytes 16 4 = b % x.slots % 2 ^ 32 ∧
        leAt bytes 20 4 = (x.phase + b * x.period) % 2 ^ 32 ∧ leAt bytes 24 8 = 0
      let room := x.backlog = [] ∧ 0 < cq.room ∧ cq.fails ≠ some 0 ∧ cq.cqEnable = true
      (x.output = false → x.notify = true → x.hold + 1 ≤ s.dev.tick.runTick → due (s.dev.tick.runTick - x.hold - 1) b →
        let flags : Word := if b ∈ x.starved then 1 else 0
        (room → posts (.streamConsume n) flags) ∧
        (cq.room = 0 → s.answers (.streamConsume n) (s.dev.setStream n { x with devCount := BitVec.ofNat 32 b + 1, backlog := waits (record flags) }))) ∧
      (x.output = true → 1 ≤ s.dev.tick.runTick → due (s.dev.tick.runTick - 1) b → x.holds b = false → cq.cqEnable = true →
        let flags : Word := (if x.source.toNat < 64 ∧ b ∈ (s.dev.stream (BitVec.ofNat 6 x.source.toNat)).starved then 1 else 0) |||
          (if b ∈ x.lapped then 2 else 0) |||
          (if ∃ u ∈ s.dev.run.skipTicks, x.phase + b * x.period - x.hold ≤ u ∧ u ≤ x.phase + b * x.period then 4 else 0)
        (room → posts (.batchRecordPost n) flags) ∧
        (cq.room = 0 → s.answers (.batchRecordPost n) (s.dev.setStream n { x with backlog := waits (record flags) })))) ∧
    ∀ v : Word, let limit := if x.output then x.devCount else x.devCount + BitVec.ofNat 32 x.slots
      (s.dev.held.any s.dev.onItsWay = true → s.answers (.streamDoorbell n v) { s.dev with held := s.dev.held ++ [.doorbell n v] }) ∧
      (s.dev.held.any s.dev.onItsWay = false →
        (serialAfter x.hostCount v = false → serialAfter v limit = false → s.answers (.streamDoorbell n v) (s.dev.setStream n { x with hostCount := v })) ∧
        ((serialAfter x.hostCount v = true ∨ serialAfter v limit = true) → s.answers (.streamDoorbell n v)
          ((s.dev.setStream n { x with dbErr := true }).mark (0x11000 + 32 * n.toNat) 0x100)))

/-- No port but port k is up, and that one has packets `queue` to send and nothing else, and nothing to acknowledge. -/
def Sys2Proof.Machine.Dev.portAlone (d : Dev) (k : Nat) (queue : List PeerPacket) : Prop :=
  (∀ i, i < 4 → i ≠ k → (d.port i).state ≠ .up) ∧
  (d.port k).freed = 0 ∧ (d.port k).ackDue = false ∧ (d.port k).tx = [] ∧ (d.port k).queue = queue

/-- R362: what a port emits for one packet begun with SEQ `seq` while `ack` is the last good one: the packet, and its 608 bytes in three DATA flits. -/
def Sys2Proof.Machine.packetOut (k : Nat) (x : PeerPacket) (seq ack : BitVec 12) : List Output :=
  let bytes := leBytes 32 x.header.toNat ++ sectorBytes x.data
  .packet k x.header x.data x.poison :: [0, 1, 2].map (fun (i : Nat) =>
    .flit k 1 (seq + BitVec.ofNat 12 i) ack 0 (some (BitVec.ofNat 1888 (leNat ((bytes.drop (236 * i)).take 236)))))

/-- R357 to R364: link-up, with the MODULE_IDs exchanged; a PEER_CONFIG that waited; replays, flits received and sent, and lost links. The model's choices
(log 35) are what the CONTROL flit's payload spells, its SEQ 0 in a conflict and of a miswired port too, one replay request and the discarding after a bad
flit, the zeros that fill a last flit, and one IDLE flit each time a port has sent what it can. -/
def Obligations.PeerLinks : Prop :=
  ∀ (s : State) (port : BitVec 2), let k := port.toNat; let p := s.dev.port k
    let cr := BitVec.ofNat 8 (min p.freed 255)
    (∀ (c : PeerCfg) (partner : BitVec 3) (slow : Bool), s.dev.peer.config = some c → p.state = .training →
      let expected := (c.neighbour.getD k 0xFF).toNat
      let exchanged := fun (q : Port) (rx : BitVec 12) (payload : BitVec 1888) =>
        ({ s.dev with free := s.dev.free + 1, clocks := (s.dev.linkTrains (5 + k)).clocks }.setPort k { q with partner := partner, slow := slow, freed := p.freed - min p.freed 255, ackDue := false }).emit
          (.flit k 3 0 rx cr (some payload))
      (partner = s.dev.pins.moduleId → ∃ payload, s.answers (.peerLinkUp port partner slow)
        ((exchanged { p with state := .conflict } p.rxSeq payload).event (srcPort k) evPeerIdConflict [(16, partner.toNat)])) ∧
      (partner ≠ s.dev.pins.moduleId → partner.toNat ≠ expected → ∃ payload, s.answers (.peerLinkUp port partner slow)
        ((exchanged { p with state := .miswired } p.rxSeq payload).event (srcPort k) evPeerMiswire [(16, expected), (17, partner.toNat)])) ∧
      (partner ≠ s.dev.pins.moduleId → partner.toNat = expected → s.dev.host.fetched = [] →
        let up := { p with state := .up, slow := slow }
        let idle := fun (ack : BitVec 12) => Output.flit k 0 0 ack 0 none
        ((∀ j ∈ s.dev.host.jobs, j.kind ≠ .peerConfig) → p.wasUp = false →
          let fresh := fun (payload : BitVec 1888) => ({ up with partner := partner, wasUp := true, credits := 128, txSeq := 1, rxSeq := 0
                                                                 replay := [{ type := 3, seq := 0, payload := payload }] } : Port)
          (s.dev.portAlone k [] → ∃ (d : Dev) (payload : BitVec 1888), s.answers (.peerLinkUp port partner slow) d ∧ d.port k = fresh payload ∧
            d.host.out = s.dev.host.out ++ [.flit k 3 0 0 0 (some payload), idle 0] ∧ d.tiles = s.dev.tiles ∧ d.mem = s.dev.mem ∧ d.log = s.dev.log) ∧
          (∀ x : PeerPacket, x.cameBy = none → s.dev.portAlone k [x] → ∃ (d : Dev) (payload : BitVec 1888), s.answers (.peerLinkUp port partner slow) d ∧
            (d.port k).state = .up ∧ (d.port k).credits = 127 ∧ (d.port k).txSeq = 4 ∧ (d.port k).queue = [] ∧
            d.host.out = s.dev.host.out ++ .flit k 3 0 0 0 (some payload) :: packetOut k x 1 0 ++ [idle 0])) ∧
        ((∀ j ∈ s.dev.host.jobs, j.kind ≠ .peerConfig) → p.wasUp = true → s.dev.portAlone k [] →
          ∃ d : Dev, s.answers (.peerLinkUp port partner slow) d ∧ d.port k = up ∧
            d.host.out = s.dev.host.out ++ p.replay.map (fun f => .flit k f.type f.seq p.rxSeq 0 (some f.payload)) ++ [idle p.rxSeq] ∧
            d.tiles = s.dev.tiles ∧ d.mem = s.dev.mem ∧ d.log = s.dev.log) ∧
        (∀ j, s.dev.host.jobs = [j] → j.kind = .peerConfig → p.wasUp = true → p.replay = [] → s.dev.portAlone k [] →
          (s.dev.setPort k up).portsUp = true → ∃ d : Dev, s.answers (.peerLinkUp port partner slow) (d.finish j .ok d.peerDetail) ∧
            d.peer = (s.dev.setPort k up).peer ∧ d.host = (s.dev.emit (idle p.rxSeq)).host ∧ d.run = s.dev.run ∧ d.log = s.dev.log))) ∧
    (p.state = .up → (p.replay = [] → s.answers (.peerReplayTimeout port) s.dev) ∧
      (p.replay ≠ [] → 8 ≤ p.inRow + 1 → s.answers (.peerReplayTimeout port)
        (s.dev.setPort k { p with state := .training, replays := satInc p.replays, retrains := satInc p.retrains, inRow := 0 })) ∧
      (p.replay ≠ [] → p.inRow + 1 < 8 → ∃ (d : Dev) (out : List Output), s.answers (.peerReplayTimeout port) d ∧ (d.port k).state = .up ∧
        (d.port k).replay = p.replay ∧ (d.port k).inRow = p.inRow + 1 ∧ (d.port k).replays = satInc p.replays ∧ d.host.out = s.dev.host.out ++ out ∧
        out.length = p.replay.length ∧
        ∀ (i : Nat) (f : SentFlit), p.replay[i]? = some f → ∃ cr, out[i]? = some (.flit k f.type f.seq p.rxSeq cr (some f.payload)))) ∧
    (p.state = .training → p.wasUp = true →
      s.answers (.peerRetrainTimeout port) ((s.dev.setPort k { p with state := .down }).event (srcPort k) evPeerLinkDown [])) ∧
    (∀ (good : Bool) (h : BitVec 48) (payload : BitVec 1888) (marks : List (BitVec 32)), p.state = .up →
      let type := h.toNat % 16
      let seq := h.extractLsb' 4 12
      let ack := h.extractLsb' 16 12
      let credits := h.toNat / 2 ^ 28 % 256
      let refused := good = false ∨ ((type = 1 ∨ type = 3) ∧ seq ≠ p.rxSeq + 1)
      let receives := Instr.peerFlitReceive port good h payload marks
      (refused → p.discarding = true → s.answers receives s.dev) ∧
      (refused → p.discarding = false → s.answers receives
        ((s.dev.setPort k { p with discarding := true, freed := p.freed - min p.freed 255, ackDue := false }).emit (.flit k 2 0 p.rxSeq cr none))) ∧
      (good = true → (type = 1 ∧ p.rx.length + 236 < 608 ∨ type = 3) → seq = p.rxSeq + 1 → s.dev.portAlone k [] →
        ∃ d : Dev, s.answers receives d ∧ (d.port k).rxSeq = seq ∧ (d.port k).discarding = false ∧ (d.port k).ackDue = false ∧
          (d.port k).rx = (if type = 1 then p.rx ++ leBytes 236 payload.toNat else p.rx) ∧ (d.port k).credits = p.credits + credits ∧
          d.host.out = s.dev.host.out ++ [.flit k 0 0 seq 0 none] ∧ d.tiles = s.dev.tiles ∧ d.mem = s.dev.mem) ∧
      let idle := Output.flit k 0 0 p.rxSeq 0 none
      (good = true → type = 0 → p.discarding = false → s.dev.portAlone k [] →
        ((∀ f ∈ p.replay, f.seq ≠ ack) → s.answers receives ((s.dev.setPort k { p with credits := p.credits + credits }).emit idle)) ∧
        (∀ (pre post : List SentFlit) (f : SentFlit), p.replay = pre ++ f :: post → f.seq = ack → (∀ y ∈ pre, y.seq ≠ ack) →
          s.answers receives ((s.dev.setPort k { p with credits := p.credits + credits, replay := post, inRow := 0 }).emit idle))) ∧
      (good = true → type = 2 → p.discarding = false → s.dev.portAlone k [] → (∀ f ∈ p.replay, f.seq ≠ ack) → p.replay ≠ [] → p.inRow + 1 < 8 →
        ∃ d : Dev, s.answers receives d ∧
          d.port k = { p with credits := p.credits + credits, replays := satInc p.replays, inRow := p.inRow + 1 } ∧
          d.host.out = s.dev.host.out ++ p.replay.map (fun f => .flit k f.type f.seq p.rxSeq 0 (some f.payload)) ++ [idle]) ∧
      (∀ x : PeerPacket, good = true → type = 0 → p.discarding = false → s.dev.portAlone k [x] → x.cameBy = none →
        0 < p.credits + credits → (∀ f ∈ p.replay, f.seq ≠ ack) → p.replay.length ≤ 509 →
        ∃ d : Dev, s.answers receives d ∧ (d.port k).credits = p.credits + credits - 1 ∧ (d.port k).queue = [] ∧ (d.port k).tx = [] ∧
          (d.port k).txSeq = p.txSeq + 3 ∧ d.host.out = s.dev.host.out ++ packetOut k x p.txSeq p.rxSeq ++ [idle]))

/-- R211, R368, R370: what combining sectors in order leaves: the first is copied, each further one accumulated. -/
def Sys2Proof.Machine.combined (op : AccOp) (q : Nat) : List Sector → Sector
  | [] => {}
  | a :: rest => rest.foldl (fun x y => { data := (accumulateData op x.data y.data q).1, poison := x.poison ||| y.poison }) a

/-- R368: a module sum: dies 0 and 1, dies 2 and 3, then the two. -/
def Sys2Proof.Machine.moduleSumOf (op : AccOp) (q : Nat) (dies : List Nat) (part : Nat → Sector) : Sector :=
  let low := (dies.filter (fun i => decide (i < 2))).map part
  let high := (dies.filter (fun i => decide (2 ≤ i))).map part
  if low = [] then combined op q high else if high = [] then combined op q low else combined op q [combined op q low, combined op q high]

/-- Nothing holds an access: no channel is in a refresh slot, no access waits, no die link replays. -/
def Sys2Proof.Machine.Dev.calm (d : Dev) : Prop :=
  d.held = [] ∧ (∀ c, d.refreshing c = false) ∧ d.linkHeld [0, 1, 2, 3, 4, 5, 6, 7] = false

/-- R364, R368 to R371: a contribution that is late, of another plan, or in time; the module sums of a shard, which leave for the owner or land with it; the
fold of a shard over the modules of a plan; a missing contribution poisons the result, as does a fold that is late. That sums and folds are done in one step
each where nothing holds their accesses (logs 64, 86), and what the flits carry (log 35), are the model's choices. -/
def Obligations.Reductions : Prop :=
  ∀ (s : State) (plan : BitVec 4), let n := plan.toNat
    let now := if s.dev.run.stopDrain then s.dev.tick.runTick + 1 else s.dev.tick.runTick
    (∀ (src rank e shard sector : Nat) (copy : Bool) (digest : Word) (data : SectorBits) (poison : BitVec 32), src < 8 → rank < 8 → e < 2 ^ 32 →
      shard < 2 ^ 16 → sector < 2 ^ 32 → s.dev.pins.tripped = false →
      let c := Instr.contribPacketReceive (contribHeader src s.dev.self n rank e shard sector copy digest) data poison
      let z := fun (p : Plan) => shardAt p.block shard
      let late := (s.dev.setReduceStatus n (fun r => { r with latePkts := satInc r.latePkts })).mark (0x1200 + 4 * n) 0x10000
      (s.dev.plan n = none → s.answers c late) ∧
      (∀ p, s.dev.plan n = some p → digest ≠ p.digest → e ∉ p.digestLogged → s.answers c
        (((s.dev.raiseReduce n 3 (fun r => { r with digest := true })).setPlan n { p with digestLogged := e :: p.digestLogged }).event srcFirmware
          evReduceDigest [(16, n), (17, src), (20, e)])) ∧
      (∀ p i, s.dev.plan n = some p → digest = p.digest → p.instances = [i] → i.e = e → s.dev.running = true →
        let t := planPhase p.block + e * planPeriod p.block + planDeadTicks p.block
        (t < now ∨ (now = t ∧ planDeadCycle p.block ≤ s.dev.tick.cycle) → s.answers c late) ∧
        (now < t ∨ (now = t ∧ s.dev.tick.cycle < planDeadCycle p.block) → shard < planShards p.block →
          sector < (z p).sectors → (z p).owner = s.dev.self → rank ∈ planModules p.block →
          let place := s.dev.areaSector p.block 56 (16 * (z p).off + (2 * rank + bit copy) * (z p).sectors + sector)
          let at_ := s.dev.mem.nearKey place
          ∃ (d : Dev) (i' : Instance), s.answers c d ∧ d.plan n = some { p with instances := [i'] } ∧ i'.e = e ∧ (shard, rank, copy, sector) ∈ i'.landed ∧
            (∀ x ∈ i.landed, x ∈ i'.landed) ∧ d.tiles = s.dev.tiles ∧ d.peer.status = s.dev.peer.status ∧
            (s.dev.mustWait s.dev.held (.store place data poison none) = false →
              d.mem = s.dev.mem.writeNear at_.1 at_.2 { data := data, poison := poison } ∧ d.held = s.dev.held) ∧
            (s.dev.mustWait s.dev.held (.store place data poison none) = true →
              d.mem = s.dev.mem ∧ d.held = s.dev.held ++ [.store place data poison none])))) ∧
    ∀ (p : Plan) (i : Instance), s.dev.plan n = some p → p.instances = [i] → s.dev.running = true →
      let start := planPhase p.block + i.e * planPeriod p.block
      let result := fun (x : Shard) (j : Nat) => s.dev.mem.nearKey (s.dev.regionSector x.region (x.result + j))
      let poisoned := fun (d : Dev) (x : Shard) => ∀ j, j < x.sectors → (d.mem.peekNear (result x j).1 (result x j).2).poison = allPoison
      (i.summed = false → start + 1 = s.dev.tick.runTick → s.dev.tick.inRun = true → s.dev.run.stopDrain = false →
        (∀ seen, ∃ (d : Dev) (p' : Plan) (i' : Instance), s.answers (.reduceModuleSum { plan := plan, seen := seen }) d ∧ d.plan n = some p' ∧
          p'.block = p.block ∧ p'.instances = [i'] ∧ i'.e = i.e ∧ i'.summed = true ∧ d.tiles = s.dev.tiles ∧ d.run = s.dev.run) ∧
        ∀ x : Shard, planShardList p.block = [x] → s.dev.calm → s.dev.mem.wf = true → i.e < 2 ^ 32 → x.sectors < 2 ^ 32 → x.owner < 8 → planDies p.block ≠ [] →
          let key := fun (area y : Nat) => s.dev.mem.nearKey (s.dev.areaSector p.block area y)
          let part := fun (copy : Bool) (j die : Nat) => key (if copy then 40 else 32) (die * planStride p.block + x.off + j)
          let staging := fun (y : Nat) => key 48 (4 * x.off + y)
          let landing := fun (y : Nat) => key 56 (16 * x.off + y)
          let got := fun (k : Nat × Nat) => s.dev.mem.peekNear k.1 k.2
          let sum := fun (copy : Bool) (j : Nat) =>
            moduleSumOf (planOp p.block) (s.dev.shardPrime p.block x j) (planDies p.block) (fun die => got (part copy j die))
          (∀ y, y < 4 * x.sectors → (staging y).1 ∉ s.dev.mem.retiredNear ∧ (∀ y', y' < 4 * x.sectors → y' ≠ y → staging y' ≠ staging y) ∧
            ∀ copy j die, j < x.sectors → die < 4 → staging y ≠ part copy j die) →
          (∀ (c : PeerCfg) (k : Nat), x.owner ≠ s.dev.self → s.dev.peer.config = some c → c.routeTo x.owner = k → k < 4 → (s.dev.port k).state ≠ .up →
            ∃ d : Dev, s.answers (.reduceModuleSum { plan := plan }) d ∧ (d.port k).queue = (s.dev.port k).queue ++
              (rolesOf s.dev.self x).flatMap (fun role => (List.range x.sectors).map (fun j =>
                { header := contribHeader s.dev.self x.owner n role.2 i.e 0 j role.1 p.digest, data := (sum role.1 j).data, poison := (sum role.1 j).poison
                  cameBy := none }))) ∧
          (x.owner = s.dev.self → beforeDeadline p.block i.e s.dev.tick.runTick s.dev.tick.cycle = true →
            (∀ role ∈ rolesOf s.dev.self x, role.2 ∈ planModules p.block) →
            (∀ y, y < 16 * x.sectors → (landing y).1 ∉ s.dev.mem.retiredNear ∧ (∀ y', y' < 16 * x.sectors → y' ≠ y → landing y' ≠ landing y) ∧
              (∀ y', y' < 4 * x.sectors → landing y ≠ staging y') ∧ ∀ copy j die, j < x.sectors → die < 4 → landing y ≠ part copy j die) →
            ∃ (d : Dev) (p' : Plan) (i' : Instance), s.answers (.reduceModuleSum { plan := plan }) d ∧ d.plan n = some p' ∧ p'.instances = [i'] ∧
              ∀ role ∈ rolesOf s.dev.self x, ∀ j, j < x.sectors → (0, role.2, role.1, j) ∈ i'.landed ∧
                let at_ := landing ((2 * role.2 + bit role.1) * x.sectors + j)
                d.mem.peekNear at_.1 at_.2 = sum role.1 j)) ∧
      (i.folded = false → s.dev.tick.runTick < start + planReady p.block →
        (start + planDeadTicks p.block < now ∨ (now = start + planDeadTicks p.block ∧ planDeadCycle p.block ≤ s.dev.tick.cycle)) →
        ∀ seen, ∃ d : Dev, s.answers (.reduceDeadline { plan := plan, seen := seen }) d ∧ d.plan n = some { p with instances := [{ i with folded := true }] } ∧ d.tiles = s.dev.tiles ∧
          d.run = s.dev.run ∧
          (ownedShards s.dev.self p.block = [] → d = s.dev.setPlan n { p with instances := [{ i with folded := true }] }) ∧
          ∀ x k, ownedShards s.dev.self p.block = [(x, k)] → let ms := planModules p.block
            ((∃ m ∈ ms, i.choose k x m = none) → (d.reduceStatus n).missing = true ∧ (s.dev.calm → s.dev.mem.wf = true → poisoned d x)) ∧
            (let source := fun (m : Nat) (copy : Bool) (j : Nat) =>
               s.dev.mem.nearKey (s.dev.areaSector p.block 56 (16 * x.off + (2 * m + bit copy) * x.sectors + j))
             let from_ := fun (m j : Nat) => source m ((i.choose k x m).getD false) j
             (∀ m ∈ ms, i.choose k x m ≠ none) →
               (d.reduceStatus n).missing = (s.dev.reduceStatus n).missing ∧ ((∃ m ∈ ms, i.choose k x m = some true) → (d.reduceStatus n).backupUsed = true) ∧
               (seen = [] → s.dev.calm → s.dev.mem.wf = true → ms ≠ [] →
                 (∀ j, j < x.sectors → (result x j).1 ∉ s.dev.mem.retiredNear ∧ ∀ j', j' < x.sectors → (j' ≠ j → result x j' ≠ result x j) ∧
                   ∀ m ∈ ms, (j' ≠ j ∨ ms.head? ≠ some m) → result x j ≠ from_ m j') →
                 ∀ j, j < x.sectors → d.mem.peekNear (result x j).1 (result x j).2 = combined (planOp p.block) (s.dev.shardPrime p.block x j)
                   (ms.map (fun m => s.dev.mem.peekNear (from_ m j).1 (from_ m j).2))))) ∧
      (start + planReady p.block ≤ s.dev.tick.runTick →
        let folding := fun (h : Held) (k : Nat) => h.work = some ⟨n, i.e, k, true⟩
        (i.folded = true → (∀ h ∈ s.dev.held, ∀ k, ¬ folding h k) → s.answers (.reduceReady plan) (s.dev.setPlan n { p with instances := [] })) ∧
        (∀ x k, (x, k) ∈ ownedShards s.dev.self p.block → (∃ h ∈ s.dev.held, folding h k) → ∃ d : Dev, s.answers (.reduceReady plan) d ∧
          d.plan n = some { p with instances := [] } ∧ (d.reduceStatus n).late = true ∧ ∀ h ∈ d.held, ¬ folding h k) ∧
        (i.folded = false → ∃ d : Dev, s.answers (.reduceReady plan) d ∧ d.plan n = some { p with instances := [] } ∧ d.tiles = s.dev.tiles ∧
          ∀ x k, (x, k) ∈ ownedShards s.dev.self p.block → (s.dev.calm → s.dev.mem.wf = true → poisoned d x) ∧ (d.reduceStatus n).late = true))

/-- R322 to R324, R326, R328, R329, R332: rings enabled and disabled, doorbells, a fetch in a ring's turn, a record whose write fails, and the interrupt
timer. The model's readings are that a ring's base is the one of its enabling, that every entry can hold a record and that a head releases at most those in use
(log 58); its choice is that the sender's word tells which record's write fails (log 82). -/
def Obligations.RingCommands : Prop :=
  ∀ (s : State) (n : BitVec 6), s.dev.regionsUp = true → s.dev.pins.tripped = false → let r := s.dev.ring n
    (∀ v : Word, let cq := v.extractLsb' 6 6; let size := v.extractLsb' 1 4
      let ok := (s.dev.ring cq).cqEnable = true ∧ 4 ≤ size.toNat ∧ size.toNat ≤ 12
      (r.sqEnable = true → s.answers (.sqEnable n v) (s.dev.setRing n { r with cqid := cq })) ∧
      (r.sqEnable = false → ok → s.answers (.sqEnable n v)
        (s.dev.setRing n { r with sqSize := size, cqid := cq, sqEnable := true, sqHead := 0, sqTail := 0, sqTaken := r.sqBase })) ∧
      (r.sqEnable = false → ¬ ok → s.answers (.sqEnable n v) (s.dev.flagRing n { r with sqSize := size, cqid := cq } 4)) ∧
      (r.sqEnable = true → s.answers (.sqDisable n v) (s.dev.setRing n { r with sqEnable := false, cqid := cq })) ∧
      (r.sqEnable = false → s.answers (.sqDisable n v) (s.dev.setRing n { r with cqid := cq, sqSize := size }))) ∧
    (∀ (v : Word) (fails : Option Nat), let size := v.extractLsb' 1 4
      let r' := { r with ie := v.getLsbD 5, vector := v.extractLsb' 6 11, coal := v.extractLsb' 17 8 }
      let named := (∃ m, (s.dev.ring m).sqEnable = true ∧ (s.dev.ring m).cqid = n) ∨ ∃ m, (s.dev.stream m).isOpen = true ∧ (s.dev.stream m).cq = n
      (r.cqEnable = true → s.answers (.cqEnable n { value := v, fails := fails }) (s.dev.setRing n r')) ∧
      (r.cqEnable = false → 4 ≤ size.toNat → size.toNat ≤ 12 → s.answers (.cqEnable n { value := v, fails := fails })
        (s.dev.setRing n { r' with cqSize := size, cqEnable := true, cqTail := 0, phase := true, cqHead := 0, used := 0, unsignalled := 0, cqTaken := r.cqBase, fails := fails })) ∧
      (r.cqEnable = false → (size.toNat < 4 ∨ 12 < size.toNat) → s.answers (.cqEnable n { value := v, fails := fails })
        (s.dev.flagRing n { r' with cqSize := size } 4)) ∧
      (r.cqEnable = false → s.answers (.cqDisable n v) (s.dev.setRing n { r' with cqSize := size })) ∧
      (r.cqEnable = true → named → s.answers (.cqDisable n v) (s.dev.flagRing n r' 4)) ∧
      (r.cqEnable = true → ¬ named → s.answers (.cqDisable n v) (s.dev.setRing n { r' with cqEnable := false }))) ∧
    (∀ v : Word,
      (v.toNat % 4096 < 2 ^ r.sqSize.toNat → s.answers (.sqTailDoorbell n v) (s.dev.setRing n { r with sqTail := v.extractLsb' 0 12 })) ∧
      (2 ^ r.sqSize.toNat ≤ v.toNat % 4096 → s.answers (.sqTailDoorbell n v) (s.dev.flagRing n r 0)) ∧
      (2 ^ r.cqSize.toNat ≤ v.toNat % 4096 → s.answers (.cqHeadDoorbell n v) (s.dev.flagRing n r 1).pumpAll) ∧
      (∀ k, r.cqHead.toNat < 2 ^ r.cqSize.toNat → r.cqSize.toNat ≤ 12 → k ≤ r.used → k < 2 ^ r.cqSize.toNat →
        v.toNat % 4096 = (r.cqHead.toNat + k) % 2 ^ r.cqSize.toNat → (∀ m, (s.dev.stream m).isOpen = true → (s.dev.stream m).cq ≠ n) →
        s.answers (.cqHeadDoorbell n v) (s.dev.setRing n { r with cqHead := v.extractLsb' 0 12, used := r.used - k }).pumpAll)) ∧
    (s.dev.run.state ≠ .boot → s.dev.fetchTurn = some n → s.dev.host.fetched = [] →
      (∃ d : Dev, s.answers (.commandFetch n none) d ∧ d.ring n = { r with sqEnable := false, status := r.status ||| 4 } ∧ d.host.fetched = [] ∧
        d.run = s.dev.run ∧ d.log.next = s.dev.log.next + 1) ∧
      (∀ bits : BitVec 512, let p : Packet := { sq := n, bits := bits }
        let need := if bits.getLsbD 8 then 2 else 1
        let f : Fetched := { packet := p, head := BitVec.ofNat 12 ((r.sqHead.toNat + 1) % 2 ^ r.sqSize.toNat), cq := r.cqid }
        opcodeDefined (bits.toNat % 256) = true → need + (s.dev.ring r.cqid).used + (s.dev.ring r.cqid).reserved ≤ 2 ^ (s.dev.ring r.cqid).cqSize.toNat →
        ∃ d : Dev, s.answers (.commandFetch n (some bits)) d ∧ d.host.fetched = [f] ∧ (d.ring n).sqHead = f.head ∧
          (d.ring r.cqid).reserved = (s.dev.ring r.cqid).reserved + need ∧ d.host.jobs = s.dev.host.jobs ∧ d.run = s.dev.run ∧ d.tiles = s.dev.tiles ∧
          d.host.nextRing = (n.toNat + 1) % 64)) ∧
    (r.cqEnable = true → r.fails = some 0 → ∀ bytes, let d := s.dev.postRecord n bytes
      d.ring n = { r with cqEnable := false, status := r.status ||| 8 } ∧ d.log.next = s.dev.log.next + 1 ∧ d.mem = s.dev.mem ∧
        ∀ o ∈ d.host.out, o ∈ s.dev.host.out ∨ ∃ v, o = .message v) ∧
    (r.ie = true → 0 < r.unsignalled → s.answers (.cqInterruptTimer n) ((s.dev.setRing n { r with unsignalled := 0 }).message r.vector)) ∧
    ((r.ie = false ∨ r.unsignalled = 0) → s.answers (.cqInterruptTimer n) s.dev)

/-- R6, R8, R320, R386, R389, R430, R431, R446, R463, R464: register reads and writes with effects, none after a trip, the BAR4 window within one sector, the
log's message timer. The model's readings and choices are that SSC_ON follows CLK_CTRL at once (log 53), what the regions do before boot step 6 has ended (log
57), what an unaligned access and one of a window that is shut do, and free bytes of a poisoned codeword (log 74), how poison of partial codewords is kept
(log 79), the size bits [13:8] of BAR4 (log 82, presumed) and the order of accesses that wait (log 86). -/
def Obligations.RegisterCommands : Prop :=
  ∀ (s : State) (v : Word),
    (s.dev.pins.tripped = true → (∀ a, s.answers (.registerWrite a v) s.dev ∧ s.answers (.lowWordRead a) s.dev) ∧
      ∀ i ∈ [Instr.bar4BaseWrite v, .krtData0Read, .logData0Read], s.answers i s.dev) ∧
    (s.dev.pins.tripped = false →
    s.answers (.bar4BaseWrite v) { s.dev with host := { s.dev.host with bar4Base := v } } ∧
    (∀ a : Access, a.bar ≠ .bar4Size → (a.bytes ≠ 4 ∨ a.offset.toNat % 4 ≠ 0) →
      s.answers (.registerWrite a v) (s.dev.emit .unsupported) ∧ s.answers (.lowWordRead a) (s.dev.emit .unsupported)) ∧
    (∀ off : BitVec 26, off.toNat % 4 = 0 → s.answers (.lowWordRead { bar := .bar2, offset := off }) (s.dev.emit (.doorbellRead off.toNat 0)) ∧
      (lowWord off.toNat = false → off ≠ 0x201010 → off ≠ 0x30020 → s.answers (.lowWordRead (.reg off)) (s.dev.emit (.read off.toNat (s.dev.readReg off.toNat)))) ∧
      (s.dev.regionsUp = false ∨ (s.dev.run.state = .boot ∧ 0x1000000 ≤ off.toNat) → 0x10000 ≤ off.toNat → (off.toNat < 0x60000 ∨ 0x100000 ≤ off.toNat) →
        s.answers (.registerWrite (.reg off) v) s.dev)) ∧
    (∀ n, 10 ≤ n → n ≤ 16 → s.answers (.registerWrite { bar := .bar4Size, offset := 0 } (BitVec.ofNat 32 (256 * n)))
      { s.dev with host := { s.dev.host with bar4Size := 2 ^ (20 + n) } }) ∧
    (s.dev.regionsUp = true →
      s.answers (.registerWrite (.reg 0x40004) v) { s.dev with power := { s.dev.power with floor := max 250 (min 930 (v.toNat % 65536)) } } ∧
      (∃ sl, s.answers (.logAckWrite v) { s.dev with log := { s.dev.log with
          ack := min v.toNat s.dev.log.next, lost := s.dev.log.lost.filter (fun p => decide (min v.toNat s.dev.log.next ≤ p.1)), slew := sl } } ∧
        (sl = s.dev.log.slew ∨ sl = s.dev.pins.slew.extractLsb' 2 2)) ∧
      (s.dev.run.state = .ready → s.answers (.clkCtrlWrite v)
        { s.dev with clocks := { s.dev.clocks with sscEn := v.getLsbD 0, sscOn := v.getLsbD 0 } }) ∧
      (s.dev.run.state ≠ .ready → s.answers (.clkCtrlWrite v)
        (({ s.dev with clocks := { s.dev.clocks with writeIgnored := true } }).mark 0x50004 0x10)) ∧
      (let b := max s.dev.power.floor (min 930 (v.toNat % 65536))
       ((s.dev.run.image = none ∨ s.dev.power.planPeak ≤ b) → s.answers (.pwrBudgetWrite v) { s.dev with power := { s.dev.power with budget := b } }) ∧
       (s.dev.run.image ≠ none → b < s.dev.power.planPeak → ∃ d : Dev, s.answers (.pwrBudgetWrite v) d ∧ d.power.budget = b ∧
         d.power.events.getLsbD 6 = true ∧ d.log.next = s.dev.log.next + 1 ∧ d.run = s.dev.run)) ∧
      (∃ x, ∀ i ∈ [Instr.krtData0Read, .lowWordRead (.reg 0x201010)], s.answers i { s.dev.emit (.read 0x201010 x) with
        keys := { s.dev.keys with snapshot := s.dev.keys.words s.dev.keys.select.toNat } }) ∧
      (∃ x, ∀ i ∈ [Instr.logData0Read, .lowWordRead (.reg 0x30020)], s.answers i { s.dev.emit (.read 0x30020 x) with
        log := { s.dev.log with snapshot := s.dev.log.words s.dev.log.select.toNat } })) ∧
    (∃ d : Dev, s.answers (.lowWordRead (.reg 0x1028)) d ∧ d.host.out = s.dev.host.out ++ [.read 0x1028 (s.dev.tick.number.setWidth 32)] ∧
      Store.read (fun _ => none) d.host.latches 0x102C = some (BitVec.ofNat 32 (s.dev.tick.number.toNat / 2 ^ 32)) ∧ d.tick = s.dev.tick) ∧
    (s.dev.log.holdOff = true → s.dev.log.waiting = true → s.dev.log.msiEn = true →
      s.answers .logMsiTimer (({ s.dev with log := { s.dev.log with waiting := false } }).message s.dev.log.vector)) ∧
    (s.dev.log.waiting = false → s.answers .logMsiTimer { s.dev with log := { s.dev.log with holdOff := false, waiting := false } }) ∧
    (s.dev.run.state ≠ .boot → s.dev.run.state ≠ .faulted → s.dev.run.state ≠ .sanitizing → ∀ o n, 1 ≤ n → o % 576 + n ≤ 576 → o + n ≤ s.dev.host.bar4Size →
      let at_ := s.dev.host.bar4Base.toNat + o / 576
      let a := o % 576
      let key := s.dev.mem.nearKey at_
      let old := s.dev.mem.peekNear key.1 key.2
      (∀ (data : List Byte) (poisoned : Bool), data.length = n →
        (s.dev.mem.nearValid at_ = false → s.answers (.bar4Write o data { poisoned := poisoned }) s.dev.windowError) ∧
        (let h : Held := .write at_ a data poisoned {}
         s.dev.mustWait s.dev.held h = true → s.answers (.bar4Write o data { poisoned := poisoned }) { s.dev with held := s.dev.held ++ [h] }) ∧
        (s.dev.mem.nearValid at_ = true → s.dev.mem.wf = true → s.dev.mem.retiredNear.contains key.1 = false →
          s.dev.mustWait s.dev.held (.write at_ a data poisoned {}) = false →
          ∃ d : Dev, s.answers (.bar4Write o data { poisoned := poisoned }) d ∧
          (let new := d.mem.peekNear key.1 key.2
           (∀ i, i < 576 → new.data.extractLsb' (8 * i) 8 = if a ≤ i ∧ i < a + n then data.getD (i - a) 0 else old.data.extractLsb' (8 * i) 8) ∧
           ∀ c, c < 32 → new.poison.getLsbD c = if poisoned = true ∧ a < 18 * c + 18 ∧ 18 * c < a + n then true
             else if a ≤ 18 * c ∧ 18 * c + 18 ≤ a + n then false else old.poison.getLsbD c) ∧
          (∀ p o, p * 113 + o ≠ key.1 * 113 + key.2 → d.mem.peekNear p o = s.dev.mem.peekNear p o) ∧ d.tiles = s.dev.tiles ∧ d.host = s.dev.host)) ∧
      (s.dev.mem.nearValid at_ = false → s.answers (.bar4Read o { length := n }) (s.dev.windowError.emit (.window (List.replicate n 0xFF) false))) ∧
      (s.dev.mem.nearValid at_ = true → s.dev.mustWait s.dev.held (.read [(at_, a, n)] []) = false →
        (old.poison = 0 → ∃ d : Dev, s.answers (.bar4Read o { length := n }) d ∧
          d.host.out = s.dev.host.out ++ [.window ((List.range n).map (fun i => old.data.extractLsb' (8 * (a + i)) 8)) false] ∧
          (∀ p o, d.mem.peekNear p o = s.dev.mem.peekNear p o) ∧ d.tiles = s.dev.tiles) ∧
        (old.poison ≠ 0 → ∃ (d : Dev) (bytes : List Byte), s.answers (.bar4Read o { length := n }) d ∧ bytes.length = n ∧
          d.host.out = s.dev.host.out ++ [.window bytes true] ∧ d.host.windowPoison = true ∧ d.tiles = s.dev.tiles))))

/-- R113, R218, R244, R396, R402, R444 to R446: firmware and owner-record updates, a sample of the sentinel, the test access port, replays of die links and
losses of far links. A component is written when its key hashes to a digest of the boot ROM and its signature over the slot's earlier bytes verifies; the
digests, the slot's layout and from which boot step the management port serves are the model's (log 12), the pace and the slots of a sample's reads are its
choice (logs 14, 18), that firmware checks both without the PKE is its reading (log 65), as are an owner record without a key, which an unclaimed module stores as none (log 63),
and the edge at which TDO takes up its slew (log 81). -/
def Obligations.ServiceEvents : Prop :=
  ∀ (s : State),
    (∀ (slotB : Bool) (version : Word) (component : FwComponent), let own : BitVec 2 := if slotB then 2 else 1
      let slot : FwSlot := { version := version, image := component.image, key := component.key, r := component.r, s := component.s }
      let good : Bool := (Config.fwKeyDigests.take 4).contains (sha384 (Config.fwKeyBytes component.key)) && p384.on component.key.1 component.key.2 &&
        p384.verifies (beNat (sha384 (Config.fwSlotBytes component.image version.toNat component.key))) component.key component.r component.s
      (s.dev.managed = false ∨ s.dev.sec.bootSlot = own ∨ good = false → s.answers (.pldmFwUpdate slotB version component) s.dev) ∧
      (s.dev.managed = true → s.dev.sec.bootSlot ≠ own → good = true → s.answers (.pldmFwUpdate slotB version component)
        { s.dev with flash := if slotB then { s.dev.flash with slotB := slot } else { s.dev.flash with slotA := slot } })) ∧
    (∀ (o : OwnerRecord), o.format = 1 → o.policy.toNat < 4 → o.keys.length ≤ 4 →
      let stored := { s.dev with flash := { s.dev.flash with owner := if o.keys.any (·.isSome) then some o else none } }
      (s.dev.managed = false → ∀ sig, s.answers (.ownerRecordUpdate o sig) s.dev) ∧
      (s.dev.managed = true → s.dev.flash.owner = none → ∀ sig, s.answers (.ownerRecordUpdate o sig) stored) ∧
      (s.dev.flash.owner ≠ none → s.answers (.ownerRecordUpdate o none) s.dev) ∧
      (∀ sig, s.dev.managed = true → s.dev.flash.owner ≠ none → s.answers (.ownerRecordUpdate o (some sig))
        (if ownerVerifies s.dev.flash.owner sig.keyId sig.r sig.s (ownerRecordBytes o) = true then stored else s.dev))) ∧
    (∀ (t : TileId) (x : SentSample), (s.dev.tile t).sent.sample = some x → (s.dev.tile t).sent.ctrl.getLsbD 1 = false →
      let w := s.dev.tick.wall
      let rows := x.rows false
      let sent := { (s.dev.tile t).sent with sample := none }
      let one := (s.dev.tile t).takeSlot w (bankOf rows.1) false
      let read := one.takeSlot w (bankOf rows.2) false
      let clean := fun r => ((s.dev.tile t).bankRow w r).1.poison = 0 ∧ ((s.dev.tile t).bankRow w r).2 = false
      (∀ seen : SampleSeen, (x.v = none ∨ w < x.asked + 8 ∨ s.dev.arrayHeld t = true) → s.answers (.sentinelSample t seen) s.dev) ∧
      (s.dev.sampleOpen t x = true → x.gotA = none → x.gotB = none → s.dev.portGrants (x.req t false false) = true →
        clean rows.1 → bankOf rows.1 = bankOf rows.2 → s.answers (.sentinelSample t {}) (s.dev.setTile t { one with sent := { one.sent with
          sample := some { x with gotA := some (w, { data := ((s.dev.tile t).bankRow w rows.1).1.data, poison := 0 }) } } })) ∧
      (s.dev.sampleOpen t x = true → x.gotA = none → x.gotB = none → s.dev.portGrants (x.req t false false) = true →
        (s.dev.setTile t one).portGrants (x.req t false true) = true → clean rows.1 → clean rows.2 → rows.1 ≠ rows.2 →
        (∃ d : Dev, s.answers (.sentinelSample t { a := { corrected := true } }) d ∧ (∀ u, u ≠ t → d.tile u = s.dev.tile u) ∧
          (d.tile t).ceOther = satInc (s.dev.tile t).ceOther ∧
          ∃ y : SentSample, (d.tile t).sent.sample = some y ∧ y.gotA.map (·.1) = some (w + 2) ∧ y.gotB.map (·.1) = some w) ∧
        s.answers (.sentinelSample t {}) (s.dev.setTile t { read with sent := sent }) ∧
        s.answers (.sentinelSample t { faulty := true }) ((s.dev.setTile t { read with sent := { sent with fault := satInc sent.fault } }).event t.toNat
          evSentinelFault [(16, x.i / 32), (20, s.dev.tick.runTick % 2 ^ 32)]))) ∧
    (∀ i : TapInstruction, s.dev.pins.up = false → s.answers (.boundaryScanInstruction i) s.dev) ∧
    (∀ i : TapInstruction, s.dev.pins.up = true → ∃ d : Dev, s.answers (.boundaryScanInstruction i) d ∧ d = { s.dev with pins := d.pins } ∧
      d.pins = { s.dev.pins with tap := d.pins.tap, tdoSlew := s.dev.pins.slew.extractLsb' 4 2 } ∧
      ((s.dev.pins.perst = true ∨ i = .bypass ∨ i = .idcode ∨ i = .samplePreload) → d.pins.tap = i) ∧
      (s.dev.pins.perst = false → (i = .extest ∨ i = .extestPulse ∨ i = .extestTrain) → d.pins.tap = .bypass)) ∧
    (∀ (link : BitVec 3) (cycles : BitVec 16), s.dev.clocks.linkHold.length = 8 → s.dev.pins.tripped = false → ∃ d : Dev, s.answers (.dieLinkReplay link cycles) d ∧
      d.clocks.linkHold.getD link.toNat 0 = s.dev.tick.wall + cycles.toNat ∧
      (let w := Store.read eqDefault s.dev.clocks.eqLink link.toNat
       Store.read eqDefault d.clocks.eqLink link.toNat = satInc (w.extractLsb' 16 16) ++ w.extractLsb' 0 16) ∧ d.tiles = s.dev.tiles ∧ d.mem = s.dev.mem) ∧
    (∀ link : BitVec 2, s.dev.mem.farUp.getLsbD link.toNat = true → ∃ d : Dev, s.answers (.farLinkDown link) d ∧
      d.mem.farUp.getLsbD link.toNat = false ∧ d.mem.farDown.getLsbD link.toNat = true ∧ d.mem.far = s.dev.mem.far ∧ d.tiles = s.dev.tiles ∧
      d.log.next = s.dev.log.next + 1 ∧ ∀ k, k ≠ link.toNat → d.mem.farUp.getLsbD k = s.dev.mem.farUp.getLsbD k)

/- Invariants. -/

/-- R147, R196, R216: every step keeps both memory tiers and every scratchpad in the one form in which equal contents are equal data, rows and sectors
in rising order with none at its default; that they are stores of that form is the model's choice (log 17). -/
def Obligations.MemoryStaysCanonical : Prop :=
  ∀ s s' : State, s.dev.memoryWf = true → step s = .next s' → s'.dev.memoryWf = true

/-- R147, R196: reset leaves memories that list nothing and are in that form (log 17); that a row which nothing has written reads as zeros is the model's
choice (log 2). -/
def Obligations.MemoryCanonicalAtReset : Prop :=
  State.reset.dev.memoryWf = true ∧ State.reset.dev.mem.near = [] ∧ State.reset.dev.mem.far = [] ∧
    ∀ t : TileId, (State.reset.dev.tile t).scratch = [] ∧ ∀ r, ((State.reset.dev.tile t).rowAt r).data = 0

/-- R331, R420, R433: a command changes the device state only by the transitions of the spec, each by its own events.
R331, R423: on an empty queue nothing does but a boot in progress, to READY or to FAULTED, and the end of a run that ABORT or an FLR has stopped, once all has
landed, to HALTED or to READY; that the clock carries boot on, and such an end, is the model's choice (logs 5 and 46). -/
def Obligations.StateTransitions : Prop :=
  (∀ (c : Instr) (s s' : State), exec c s = .next s' → mayMove c s.dev.run.state s'.dev.run.state = true) ∧
  ∀ s s' : State, s.pending = [] → step s = .next s' → s'.dev.run.state = s.dev.run.state ∨
    (s.dev.tick.running = false ∧ s.dev.booting.isSome = true ∧ (s'.dev.run.state = .ready ∨ s'.dev.run.state = .faulted)) ∨
    (s.dev.run.ending = some .abort ∧ s'.dev.run.state = .halted) ∨ (∃ old, s.dev.run.ending = some (.flr old) ∧ s'.dev.run.state = .ready)
end

