-- ==== Sys2Proof/Laws/State.lean ====
section
/-! SUPPORT. The parts of the state under the plain updates: each update changes one part and leaves the others. -/

namespace Sys2Proof.Machine

@[simp] theorem Dev.setTile_groups (d : Dev) (t : TileId) (x : Tile) : (d.setTile t x).groups = d.groups := rfl
@[simp] theorem Dev.setTile_tick (d : Dev) (t : TileId) (x : Tile) : (d.setTile t x).tick = d.tick := rfl
@[simp] theorem Dev.setTile_run (d : Dev) (t : TileId) (x : Tile) : (d.setTile t x).run = d.run := rfl
@[simp] theorem Dev.setTile_mem (d : Dev) (t : TileId) (x : Tile) : (d.setTile t x).mem = d.mem := rfl
@[simp] theorem Dev.setTile_keys (d : Dev) (t : TileId) (x : Tile) : (d.setTile t x).keys = d.keys := rfl
@[simp] theorem Dev.setTile_host (d : Dev) (t : TileId) (x : Tile) : (d.setTile t x).host = d.host := rfl
@[simp] theorem Dev.setTile_log (d : Dev) (t : TileId) (x : Tile) : (d.setTile t x).log = d.log := rfl
@[simp] theorem Dev.setTile_power (d : Dev) (t : TileId) (x : Tile) : (d.setTile t x).power = d.power := rfl
@[simp] theorem Dev.setTile_clocks (d : Dev) (t : TileId) (x : Tile) : (d.setTile t x).clocks = d.clocks := rfl
@[simp] theorem Dev.setTile_sec (d : Dev) (t : TileId) (x : Tile) : (d.setTile t x).sec = d.sec := rfl
@[simp] theorem Dev.setTile_pke (d : Dev) (t : TileId) (x : Tile) : (d.setTile t x).pke = d.pke := rfl
@[simp] theorem Dev.setTile_flash (d : Dev) (t : TileId) (x : Tile) : (d.setTile t x).flash = d.flash := rfl
@[simp] theorem Dev.setTile_peer (d : Dev) (t : TileId) (x : Tile) : (d.setTile t x).peer = d.peer := rfl
@[simp] theorem Dev.setTile_pins (d : Dev) (t : TileId) (x : Tile) : (d.setTile t x).pins = d.pins := rfl
@[simp] theorem Dev.setTile_free (d : Dev) (t : TileId) (x : Tile) : (d.setTile t x).free = d.free := rfl
@[simp] theorem Dev.setTile_fresh (d : Dev) (t : TileId) (x : Tile) : (d.setTile t x).fresh = d.fresh := rfl
@[simp] theorem Dev.setTile_held (d : Dev) (t : TileId) (x : Tile) : (d.setTile t x).held = d.held := rfl

@[simp] theorem Dev.setGroup_tiles (d : Dev) (g : GroupId) (x : Group) : (d.setGroup g x).tiles = d.tiles := rfl
@[simp] theorem Dev.setGroup_tick (d : Dev) (g : GroupId) (x : Group) : (d.setGroup g x).tick = d.tick := rfl
@[simp] theorem Dev.setGroup_run (d : Dev) (g : GroupId) (x : Group) : (d.setGroup g x).run = d.run := rfl
@[simp] theorem Dev.setGroup_mem (d : Dev) (g : GroupId) (x : Group) : (d.setGroup g x).mem = d.mem := rfl
@[simp] theorem Dev.setGroup_keys (d : Dev) (g : GroupId) (x : Group) : (d.setGroup g x).keys = d.keys := rfl
@[simp] theorem Dev.setGroup_host (d : Dev) (g : GroupId) (x : Group) : (d.setGroup g x).host = d.host := rfl
@[simp] theorem Dev.setGroup_log (d : Dev) (g : GroupId) (x : Group) : (d.setGroup g x).log = d.log := rfl
@[simp] theorem Dev.setGroup_power (d : Dev) (g : GroupId) (x : Group) : (d.setGroup g x).power = d.power := rfl
@[simp] theorem Dev.setGroup_clocks (d : Dev) (g : GroupId) (x : Group) : (d.setGroup g x).clocks = d.clocks := rfl
@[simp] theorem Dev.setGroup_sec (d : Dev) (g : GroupId) (x : Group) : (d.setGroup g x).sec = d.sec := rfl
@[simp] theorem Dev.setGroup_pke (d : Dev) (g : GroupId) (x : Group) : (d.setGroup g x).pke = d.pke := rfl
@[simp] theorem Dev.setGroup_flash (d : Dev) (g : GroupId) (x : Group) : (d.setGroup g x).flash = d.flash := rfl
@[simp] theorem Dev.setGroup_peer (d : Dev) (g : GroupId) (x : Group) : (d.setGroup g x).peer = d.peer := rfl
@[simp] theorem Dev.setGroup_pins (d : Dev) (g : GroupId) (x : Group) : (d.setGroup g x).pins = d.pins := rfl
@[simp] theorem Dev.setGroup_free (d : Dev) (g : GroupId) (x : Group) : (d.setGroup g x).free = d.free := rfl
@[simp] theorem Dev.setGroup_fresh (d : Dev) (g : GroupId) (x : Group) : (d.setGroup g x).fresh = d.fresh := rfl
@[simp] theorem Dev.setGroup_held (d : Dev) (g : GroupId) (x : Group) : (d.setGroup g x).held = d.held := rfl

@[simp] theorem Dev.setRing_tiles (d : Dev) (n : BitVec 6) (x : RingBlock) : (d.setRing n x).tiles = d.tiles := rfl
@[simp] theorem Dev.setRing_groups (d : Dev) (n : BitVec 6) (x : RingBlock) : (d.setRing n x).groups = d.groups := rfl
@[simp] theorem Dev.setRing_tick (d : Dev) (n : BitVec 6) (x : RingBlock) : (d.setRing n x).tick = d.tick := rfl
@[simp] theorem Dev.setRing_run (d : Dev) (n : BitVec 6) (x : RingBlock) : (d.setRing n x).run = d.run := rfl
@[simp] theorem Dev.setRing_mem (d : Dev) (n : BitVec 6) (x : RingBlock) : (d.setRing n x).mem = d.mem := rfl
@[simp] theorem Dev.setRing_keys (d : Dev) (n : BitVec 6) (x : RingBlock) : (d.setRing n x).keys = d.keys := rfl
@[simp] theorem Dev.setRing_log (d : Dev) (n : BitVec 6) (x : RingBlock) : (d.setRing n x).log = d.log := rfl
@[simp] theorem Dev.setRing_power (d : Dev) (n : BitVec 6) (x : RingBlock) : (d.setRing n x).power = d.power := rfl
@[simp] theorem Dev.setRing_clocks (d : Dev) (n : BitVec 6) (x : RingBlock) : (d.setRing n x).clocks = d.clocks := rfl
@[simp] theorem Dev.setRing_sec (d : Dev) (n : BitVec 6) (x : RingBlock) : (d.setRing n x).sec = d.sec := rfl
@[simp] theorem Dev.setRing_pke (d : Dev) (n : BitVec 6) (x : RingBlock) : (d.setRing n x).pke = d.pke := rfl
@[simp] theorem Dev.setRing_flash (d : Dev) (n : BitVec 6) (x : RingBlock) : (d.setRing n x).flash = d.flash := rfl
@[simp] theorem Dev.setRing_peer (d : Dev) (n : BitVec 6) (x : RingBlock) : (d.setRing n x).peer = d.peer := rfl
@[simp] theorem Dev.setRing_pins (d : Dev) (n : BitVec 6) (x : RingBlock) : (d.setRing n x).pins = d.pins := rfl
@[simp] theorem Dev.setRing_free (d : Dev) (n : BitVec 6) (x : RingBlock) : (d.setRing n x).free = d.free := rfl
@[simp] theorem Dev.setRing_fresh (d : Dev) (n : BitVec 6) (x : RingBlock) : (d.setRing n x).fresh = d.fresh := rfl
@[simp] theorem Dev.setRing_held (d : Dev) (n : BitVec 6) (x : RingBlock) : (d.setRing n x).held = d.held := rfl

@[simp] theorem Dev.setStream_tiles (d : Dev) (n : BitVec 6) (x : Stream) : (d.setStream n x).tiles = d.tiles := rfl
@[simp] theorem Dev.setStream_groups (d : Dev) (n : BitVec 6) (x : Stream) : (d.setStream n x).groups = d.groups := rfl
@[simp] theorem Dev.setStream_tick (d : Dev) (n : BitVec 6) (x : Stream) : (d.setStream n x).tick = d.tick := rfl
@[simp] theorem Dev.setStream_run (d : Dev) (n : BitVec 6) (x : Stream) : (d.setStream n x).run = d.run := rfl
@[simp] theorem Dev.setStream_mem (d : Dev) (n : BitVec 6) (x : Stream) : (d.setStream n x).mem = d.mem := rfl
@[simp] theorem Dev.setStream_keys (d : Dev) (n : BitVec 6) (x : Stream) : (d.setStream n x).keys = d.keys := rfl
@[simp] theorem Dev.setStream_log (d : Dev) (n : BitVec 6) (x : Stream) : (d.setStream n x).log = d.log := rfl
@[simp] theorem Dev.setStream_power (d : Dev) (n : BitVec 6) (x : Stream) : (d.setStream n x).power = d.power := rfl
@[simp] theorem Dev.setStream_clocks (d : Dev) (n : BitVec 6) (x : Stream) : (d.setStream n x).clocks = d.clocks := rfl
@[simp] theorem Dev.setStream_sec (d : Dev) (n : BitVec 6) (x : Stream) : (d.setStream n x).sec = d.sec := rfl
@[simp] theorem Dev.setStream_pke (d : Dev) (n : BitVec 6) (x : Stream) : (d.setStream n x).pke = d.pke := rfl
@[simp] theorem Dev.setStream_flash (d : Dev) (n : BitVec 6) (x : Stream) : (d.setStream n x).flash = d.flash := rfl
@[simp] theorem Dev.setStream_peer (d : Dev) (n : BitVec 6) (x : Stream) : (d.setStream n x).peer = d.peer := rfl
@[simp] theorem Dev.setStream_pins (d : Dev) (n : BitVec 6) (x : Stream) : (d.setStream n x).pins = d.pins := rfl
@[simp] theorem Dev.setStream_free (d : Dev) (n : BitVec 6) (x : Stream) : (d.setStream n x).free = d.free := rfl
@[simp] theorem Dev.setStream_fresh (d : Dev) (n : BitVec 6) (x : Stream) : (d.setStream n x).fresh = d.fresh := rfl
@[simp] theorem Dev.setStream_held (d : Dev) (n : BitVec 6) (x : Stream) : (d.setStream n x).held = d.held := rfl

@[simp] theorem Dev.mapTiles_groups (d : Dev) (p : TileId → Bool) (f : TileId → Tile → Tile) : (d.mapTiles p f).groups = d.groups := by unfold Dev.mapTiles; rfl
@[simp] theorem Dev.mapTiles_tick (d : Dev) (p : TileId → Bool) (f : TileId → Tile → Tile) : (d.mapTiles p f).tick = d.tick := by unfold Dev.mapTiles; rfl
@[simp] theorem Dev.mapTiles_run (d : Dev) (p : TileId → Bool) (f : TileId → Tile → Tile) : (d.mapTiles p f).run = d.run := by unfold Dev.mapTiles; rfl
@[simp] theorem Dev.mapTiles_mem (d : Dev) (p : TileId → Bool) (f : TileId → Tile → Tile) : (d.mapTiles p f).mem = d.mem := by unfold Dev.mapTiles; rfl
@[simp] theorem Dev.mapTiles_keys (d : Dev) (p : TileId → Bool) (f : TileId → Tile → Tile) : (d.mapTiles p f).keys = d.keys := by unfold Dev.mapTiles; rfl
@[simp] theorem Dev.mapTiles_host (d : Dev) (p : TileId → Bool) (f : TileId → Tile → Tile) : (d.mapTiles p f).host = d.host := by unfold Dev.mapTiles; rfl
@[simp] theorem Dev.mapTiles_log (d : Dev) (p : TileId → Bool) (f : TileId → Tile → Tile) : (d.mapTiles p f).log = d.log := by unfold Dev.mapTiles; rfl
@[simp] theorem Dev.mapTiles_power (d : Dev) (p : TileId → Bool) (f : TileId → Tile → Tile) : (d.mapTiles p f).power = d.power := by unfold Dev.mapTiles; rfl
@[simp] theorem Dev.mapTiles_clocks (d : Dev) (p : TileId → Bool) (f : TileId → Tile → Tile) : (d.mapTiles p f).clocks = d.clocks := by unfold Dev.mapTiles; rfl
@[simp] theorem Dev.mapTiles_sec (d : Dev) (p : TileId → Bool) (f : TileId → Tile → Tile) : (d.mapTiles p f).sec = d.sec := by unfold Dev.mapTiles; rfl
@[simp] theorem Dev.mapTiles_pke (d : Dev) (p : TileId → Bool) (f : TileId → Tile → Tile) : (d.mapTiles p f).pke = d.pke := by unfold Dev.mapTiles; rfl
@[simp] theorem Dev.mapTiles_flash (d : Dev) (p : TileId → Bool) (f : TileId → Tile → Tile) : (d.mapTiles p f).flash = d.flash := by unfold Dev.mapTiles; rfl
@[simp] theorem Dev.mapTiles_peer (d : Dev) (p : TileId → Bool) (f : TileId → Tile → Tile) : (d.mapTiles p f).peer = d.peer := by unfold Dev.mapTiles; rfl
@[simp] theorem Dev.mapTiles_pins (d : Dev) (p : TileId → Bool) (f : TileId → Tile → Tile) : (d.mapTiles p f).pins = d.pins := by unfold Dev.mapTiles; rfl
@[simp] theorem Dev.mapTiles_free (d : Dev) (p : TileId → Bool) (f : TileId → Tile → Tile) : (d.mapTiles p f).free = d.free := by unfold Dev.mapTiles; rfl
@[simp] theorem Dev.mapTiles_fresh (d : Dev) (p : TileId → Bool) (f : TileId → Tile → Tile) : (d.mapTiles p f).fresh = d.fresh := by unfold Dev.mapTiles; rfl
@[simp] theorem Dev.mapTiles_held (d : Dev) (p : TileId → Bool) (f : TileId → Tile → Tile) : (d.mapTiles p f).held = d.held := by unfold Dev.mapTiles; rfl

@[simp] theorem Dev.mapGroups_tiles (d : Dev) (f : GroupId → Group → Group) : (d.mapGroups f).tiles = d.tiles := by unfold Dev.mapGroups; rfl
@[simp] theorem Dev.mapGroups_tick (d : Dev) (f : GroupId → Group → Group) : (d.mapGroups f).tick = d.tick := by unfold Dev.mapGroups; rfl
@[simp] theorem Dev.mapGroups_run (d : Dev) (f : GroupId → Group → Group) : (d.mapGroups f).run = d.run := by unfold Dev.mapGroups; rfl
@[simp] theorem Dev.mapGroups_mem (d : Dev) (f : GroupId → Group → Group) : (d.mapGroups f).mem = d.mem := by unfold Dev.mapGroups; rfl
@[simp] theorem Dev.mapGroups_keys (d : Dev) (f : GroupId → Group → Group) : (d.mapGroups f).keys = d.keys := by unfold Dev.mapGroups; rfl
@[simp] theorem Dev.mapGroups_host (d : Dev) (f : GroupId → Group → Group) : (d.mapGroups f).host = d.host := by unfold Dev.mapGroups; rfl
@[simp] theorem Dev.mapGroups_log (d : Dev) (f : GroupId → Group → Group) : (d.mapGroups f).log = d.log := by unfold Dev.mapGroups; rfl
@[simp] theorem Dev.mapGroups_power (d : Dev) (f : GroupId → Group → Group) : (d.mapGroups f).power = d.power := by unfold Dev.mapGroups; rfl
@[simp] theorem Dev.mapGroups_clocks (d : Dev) (f : GroupId → Group → Group) : (d.mapGroups f).clocks = d.clocks := by unfold Dev.mapGroups; rfl
@[simp] theorem Dev.mapGroups_sec (d : Dev) (f : GroupId → Group → Group) : (d.mapGroups f).sec = d.sec := by unfold Dev.mapGroups; rfl
@[simp] theorem Dev.mapGroups_pke (d : Dev) (f : GroupId → Group → Group) : (d.mapGroups f).pke = d.pke := by unfold Dev.mapGroups; rfl
@[simp] theorem Dev.mapGroups_flash (d : Dev) (f : GroupId → Group → Group) : (d.mapGroups f).flash = d.flash := by unfold Dev.mapGroups; rfl
@[simp] theorem Dev.mapGroups_peer (d : Dev) (f : GroupId → Group → Group) : (d.mapGroups f).peer = d.peer := by unfold Dev.mapGroups; rfl
@[simp] theorem Dev.mapGroups_pins (d : Dev) (f : GroupId → Group → Group) : (d.mapGroups f).pins = d.pins := by unfold Dev.mapGroups; rfl
@[simp] theorem Dev.mapGroups_free (d : Dev) (f : GroupId → Group → Group) : (d.mapGroups f).free = d.free := by unfold Dev.mapGroups; rfl
@[simp] theorem Dev.mapGroups_fresh (d : Dev) (f : GroupId → Group → Group) : (d.mapGroups f).fresh = d.fresh := by unfold Dev.mapGroups; rfl
@[simp] theorem Dev.mapGroups_held (d : Dev) (f : GroupId → Group → Group) : (d.mapGroups f).held = d.held := by unfold Dev.mapGroups; rfl

@[simp] theorem Dev.emit_tiles (d : Dev) (o : Output) : (d.emit o).tiles = d.tiles := rfl
@[simp] theorem Dev.emit_groups (d : Dev) (o : Output) : (d.emit o).groups = d.groups := rfl
@[simp] theorem Dev.emit_tick (d : Dev) (o : Output) : (d.emit o).tick = d.tick := rfl
@[simp] theorem Dev.emit_run (d : Dev) (o : Output) : (d.emit o).run = d.run := rfl
@[simp] theorem Dev.emit_mem (d : Dev) (o : Output) : (d.emit o).mem = d.mem := rfl
@[simp] theorem Dev.emit_keys (d : Dev) (o : Output) : (d.emit o).keys = d.keys := rfl
@[simp] theorem Dev.emit_log (d : Dev) (o : Output) : (d.emit o).log = d.log := rfl
@[simp] theorem Dev.emit_power (d : Dev) (o : Output) : (d.emit o).power = d.power := rfl
@[simp] theorem Dev.emit_clocks (d : Dev) (o : Output) : (d.emit o).clocks = d.clocks := rfl
@[simp] theorem Dev.emit_sec (d : Dev) (o : Output) : (d.emit o).sec = d.sec := rfl
@[simp] theorem Dev.emit_pke (d : Dev) (o : Output) : (d.emit o).pke = d.pke := rfl
@[simp] theorem Dev.emit_flash (d : Dev) (o : Output) : (d.emit o).flash = d.flash := rfl
@[simp] theorem Dev.emit_peer (d : Dev) (o : Output) : (d.emit o).peer = d.peer := rfl
@[simp] theorem Dev.emit_pins (d : Dev) (o : Output) : (d.emit o).pins = d.pins := rfl
@[simp] theorem Dev.emit_free (d : Dev) (o : Output) : (d.emit o).free = d.free := rfl
@[simp] theorem Dev.emit_fresh (d : Dev) (o : Output) : (d.emit o).fresh = d.fresh := rfl
@[simp] theorem Dev.emit_held (d : Dev) (o : Output) : (d.emit o).held = d.held := rfl

@[simp] theorem Dev.drew_tiles (d : Dev) : (d.drew).tiles = d.tiles := rfl
@[simp] theorem Dev.drew_groups (d : Dev) : (d.drew).groups = d.groups := rfl
@[simp] theorem Dev.drew_tick (d : Dev) : (d.drew).tick = d.tick := rfl
@[simp] theorem Dev.drew_run (d : Dev) : (d.drew).run = d.run := rfl
@[simp] theorem Dev.drew_mem (d : Dev) : (d.drew).mem = d.mem := rfl
@[simp] theorem Dev.drew_keys (d : Dev) : (d.drew).keys = d.keys := rfl
@[simp] theorem Dev.drew_host (d : Dev) : (d.drew).host = d.host := rfl
@[simp] theorem Dev.drew_log (d : Dev) : (d.drew).log = d.log := rfl
@[simp] theorem Dev.drew_power (d : Dev) : (d.drew).power = d.power := rfl
@[simp] theorem Dev.drew_clocks (d : Dev) : (d.drew).clocks = d.clocks := rfl
@[simp] theorem Dev.drew_sec (d : Dev) : (d.drew).sec = d.sec := rfl
@[simp] theorem Dev.drew_pke (d : Dev) : (d.drew).pke = d.pke := rfl
@[simp] theorem Dev.drew_flash (d : Dev) : (d.drew).flash = d.flash := rfl
@[simp] theorem Dev.drew_peer (d : Dev) : (d.drew).peer = d.peer := rfl
@[simp] theorem Dev.drew_pins (d : Dev) : (d.drew).pins = d.pins := rfl
@[simp] theorem Dev.drew_fresh (d : Dev) : (d.drew).fresh = d.fresh := rfl
@[simp] theorem Dev.drew_held (d : Dev) : (d.drew).held = d.held := rfl

@[simp] theorem Dev.take_tiles (d : Dev) (f : Fetched) : (d.take f).tiles = d.tiles := rfl
@[simp] theorem Dev.take_groups (d : Dev) (f : Fetched) : (d.take f).groups = d.groups := rfl
@[simp] theorem Dev.take_tick (d : Dev) (f : Fetched) : (d.take f).tick = d.tick := rfl
@[simp] theorem Dev.take_run (d : Dev) (f : Fetched) : (d.take f).run = d.run := rfl
@[simp] theorem Dev.take_mem (d : Dev) (f : Fetched) : (d.take f).mem = d.mem := rfl
@[simp] theorem Dev.take_keys (d : Dev) (f : Fetched) : (d.take f).keys = d.keys := rfl
@[simp] theorem Dev.take_log (d : Dev) (f : Fetched) : (d.take f).log = d.log := rfl
@[simp] theorem Dev.take_power (d : Dev) (f : Fetched) : (d.take f).power = d.power := rfl
@[simp] theorem Dev.take_clocks (d : Dev) (f : Fetched) : (d.take f).clocks = d.clocks := rfl
@[simp] theorem Dev.take_sec (d : Dev) (f : Fetched) : (d.take f).sec = d.sec := rfl
@[simp] theorem Dev.take_pke (d : Dev) (f : Fetched) : (d.take f).pke = d.pke := rfl
@[simp] theorem Dev.take_flash (d : Dev) (f : Fetched) : (d.take f).flash = d.flash := rfl
@[simp] theorem Dev.take_peer (d : Dev) (f : Fetched) : (d.take f).peer = d.peer := rfl
@[simp] theorem Dev.take_pins (d : Dev) (f : Fetched) : (d.take f).pins = d.pins := rfl
@[simp] theorem Dev.take_free (d : Dev) (f : Fetched) : (d.take f).free = d.free := rfl
@[simp] theorem Dev.take_fresh (d : Dev) (f : Fetched) : (d.take f).fresh = d.fresh := rfl
@[simp] theorem Dev.take_held (d : Dev) (f : Fetched) : (d.take f).held = d.held := rfl

@[simp] theorem Dev.onMem_tiles (d : Dev) (f : Mem → Mem) : (d.onMem f).tiles = d.tiles := rfl
@[simp] theorem Dev.onMem_groups (d : Dev) (f : Mem → Mem) : (d.onMem f).groups = d.groups := rfl
@[simp] theorem Dev.onMem_tick (d : Dev) (f : Mem → Mem) : (d.onMem f).tick = d.tick := rfl
@[simp] theorem Dev.onMem_run (d : Dev) (f : Mem → Mem) : (d.onMem f).run = d.run := rfl
@[simp] theorem Dev.onMem_keys (d : Dev) (f : Mem → Mem) : (d.onMem f).keys = d.keys := rfl
@[simp] theorem Dev.onMem_host (d : Dev) (f : Mem → Mem) : (d.onMem f).host = d.host := rfl
@[simp] theorem Dev.onMem_log (d : Dev) (f : Mem → Mem) : (d.onMem f).log = d.log := rfl
@[simp] theorem Dev.onMem_power (d : Dev) (f : Mem → Mem) : (d.onMem f).power = d.power := rfl
@[simp] theorem Dev.onMem_clocks (d : Dev) (f : Mem → Mem) : (d.onMem f).clocks = d.clocks := rfl
@[simp] theorem Dev.onMem_sec (d : Dev) (f : Mem → Mem) : (d.onMem f).sec = d.sec := rfl
@[simp] theorem Dev.onMem_pke (d : Dev) (f : Mem → Mem) : (d.onMem f).pke = d.pke := rfl
@[simp] theorem Dev.onMem_flash (d : Dev) (f : Mem → Mem) : (d.onMem f).flash = d.flash := rfl
@[simp] theorem Dev.onMem_peer (d : Dev) (f : Mem → Mem) : (d.onMem f).peer = d.peer := rfl
@[simp] theorem Dev.onMem_pins (d : Dev) (f : Mem → Mem) : (d.onMem f).pins = d.pins := rfl
@[simp] theorem Dev.onMem_free (d : Dev) (f : Mem → Mem) : (d.onMem f).free = d.free := rfl
@[simp] theorem Dev.onMem_fresh (d : Dev) (f : Mem → Mem) : (d.onMem f).fresh = d.fresh := rfl
@[simp] theorem Dev.onMem_held (d : Dev) (f : Mem → Mem) : (d.onMem f).held = d.held := rfl

@[simp] theorem Dev.setRing_streams (d : Dev) (n : BitVec 6) (x : RingBlock) : (d.setRing n x).host.streams = d.host.streams := rfl
@[simp] theorem Dev.setRing_msix (d : Dev) (n : BitVec 6) (x : RingBlock) : (d.setRing n x).host.msix = d.host.msix := rfl
@[simp] theorem Dev.setRing_pba (d : Dev) (n : BitVec 6) (x : RingBlock) : (d.setRing n x).host.pba = d.host.pba := rfl
@[simp] theorem Dev.setRing_bar4Base (d : Dev) (n : BitVec 6) (x : RingBlock) : (d.setRing n x).host.bar4Base = d.host.bar4Base := rfl
@[simp] theorem Dev.setRing_bar4Size (d : Dev) (n : BitVec 6) (x : RingBlock) : (d.setRing n x).host.bar4Size = d.host.bar4Size := rfl
@[simp] theorem Dev.setRing_windowErr (d : Dev) (n : BitVec 6) (x : RingBlock) : (d.setRing n x).host.windowErr = d.host.windowErr := rfl
@[simp] theorem Dev.setRing_windowPoison (d : Dev) (n : BitVec 6) (x : RingBlock) : (d.setRing n x).host.windowPoison = d.host.windowPoison := rfl
@[simp] theorem Dev.setRing_fetched (d : Dev) (n : BitVec 6) (x : RingBlock) : (d.setRing n x).host.fetched = d.host.fetched := rfl
@[simp] theorem Dev.setRing_jobs (d : Dev) (n : BitVec 6) (x : RingBlock) : (d.setRing n x).host.jobs = d.host.jobs := rfl
@[simp] theorem Dev.setRing_nextRing (d : Dev) (n : BitVec 6) (x : RingBlock) : (d.setRing n x).host.nextRing = d.host.nextRing := rfl
@[simp] theorem Dev.setRing_linkWidth (d : Dev) (n : BitVec 6) (x : RingBlock) : (d.setRing n x).host.linkWidth = d.host.linkWidth := rfl
@[simp] theorem Dev.setRing_linkRate (d : Dev) (n : BitVec 6) (x : RingBlock) : (d.setRing n x).host.linkRate = d.host.linkRate := rfl
@[simp] theorem Dev.setRing_peerHalf (d : Dev) (n : BitVec 6) (x : RingBlock) : (d.setRing n x).host.peerHalf = d.host.peerHalf := rfl
@[simp] theorem Dev.setRing_latches (d : Dev) (n : BitVec 6) (x : RingBlock) : (d.setRing n x).host.latches = d.host.latches := rfl
@[simp] theorem Dev.setRing_out (d : Dev) (n : BitVec 6) (x : RingBlock) : (d.setRing n x).host.out = d.host.out := rfl

@[simp] theorem Dev.setStream_rings (d : Dev) (n : BitVec 6) (x : Stream) : (d.setStream n x).host.rings = d.host.rings := rfl
@[simp] theorem Dev.setStream_msix (d : Dev) (n : BitVec 6) (x : Stream) : (d.setStream n x).host.msix = d.host.msix := rfl
@[simp] theorem Dev.setStream_pba (d : Dev) (n : BitVec 6) (x : Stream) : (d.setStream n x).host.pba = d.host.pba := rfl
@[simp] theorem Dev.setStream_bar4Base (d : Dev) (n : BitVec 6) (x : Stream) : (d.setStream n x).host.bar4Base = d.host.bar4Base := rfl
@[simp] theorem Dev.setStream_bar4Size (d : Dev) (n : BitVec 6) (x : Stream) : (d.setStream n x).host.bar4Size = d.host.bar4Size := rfl
@[simp] theorem Dev.setStream_windowErr (d : Dev) (n : BitVec 6) (x : Stream) : (d.setStream n x).host.windowErr = d.host.windowErr := rfl
@[simp] theorem Dev.setStream_windowPoison (d : Dev) (n : BitVec 6) (x : Stream) : (d.setStream n x).host.windowPoison = d.host.windowPoison := rfl
@[simp] theorem Dev.setStream_fetched (d : Dev) (n : BitVec 6) (x : Stream) : (d.setStream n x).host.fetched = d.host.fetched := rfl
@[simp] theorem Dev.setStream_jobs (d : Dev) (n : BitVec 6) (x : Stream) : (d.setStream n x).host.jobs = d.host.jobs := rfl
@[simp] theorem Dev.setStream_nextRing (d : Dev) (n : BitVec 6) (x : Stream) : (d.setStream n x).host.nextRing = d.host.nextRing := rfl
@[simp] theorem Dev.setStream_linkWidth (d : Dev) (n : BitVec 6) (x : Stream) : (d.setStream n x).host.linkWidth = d.host.linkWidth := rfl
@[simp] theorem Dev.setStream_linkRate (d : Dev) (n : BitVec 6) (x : Stream) : (d.setStream n x).host.linkRate = d.host.linkRate := rfl
@[simp] theorem Dev.setStream_peerHalf (d : Dev) (n : BitVec 6) (x : Stream) : (d.setStream n x).host.peerHalf = d.host.peerHalf := rfl
@[simp] theorem Dev.setStream_latches (d : Dev) (n : BitVec 6) (x : Stream) : (d.setStream n x).host.latches = d.host.latches := rfl
@[simp] theorem Dev.setStream_out (d : Dev) (n : BitVec 6) (x : Stream) : (d.setStream n x).host.out = d.host.out := rfl

@[simp] theorem Dev.emit_rings (d : Dev) (o : Output) : (d.emit o).host.rings = d.host.rings := rfl
@[simp] theorem Dev.emit_streams (d : Dev) (o : Output) : (d.emit o).host.streams = d.host.streams := rfl
@[simp] theorem Dev.emit_msix (d : Dev) (o : Output) : (d.emit o).host.msix = d.host.msix := rfl
@[simp] theorem Dev.emit_pba (d : Dev) (o : Output) : (d.emit o).host.pba = d.host.pba := rfl
@[simp] theorem Dev.emit_bar4Base (d : Dev) (o : Output) : (d.emit o).host.bar4Base = d.host.bar4Base := rfl
@[simp] theorem Dev.emit_bar4Size (d : Dev) (o : Output) : (d.emit o).host.bar4Size = d.host.bar4Size := rfl
@[simp] theorem Dev.emit_windowErr (d : Dev) (o : Output) : (d.emit o).host.windowErr = d.host.windowErr := rfl
@[simp] theorem Dev.emit_windowPoison (d : Dev) (o : Output) : (d.emit o).host.windowPoison = d.host.windowPoison := rfl
@[simp] theorem Dev.emit_fetched (d : Dev) (o : Output) : (d.emit o).host.fetched = d.host.fetched := rfl
@[simp] theorem Dev.emit_jobs (d : Dev) (o : Output) : (d.emit o).host.jobs = d.host.jobs := rfl
@[simp] theorem Dev.emit_nextRing (d : Dev) (o : Output) : (d.emit o).host.nextRing = d.host.nextRing := rfl
@[simp] theorem Dev.emit_linkWidth (d : Dev) (o : Output) : (d.emit o).host.linkWidth = d.host.linkWidth := rfl
@[simp] theorem Dev.emit_linkRate (d : Dev) (o : Output) : (d.emit o).host.linkRate = d.host.linkRate := rfl
@[simp] theorem Dev.emit_peerHalf (d : Dev) (o : Output) : (d.emit o).host.peerHalf = d.host.peerHalf := rfl
@[simp] theorem Dev.emit_latches (d : Dev) (o : Output) : (d.emit o).host.latches = d.host.latches := rfl

@[simp] theorem Dev.take_rings (d : Dev) (f : Fetched) : (d.take f).host.rings = d.host.rings := rfl
@[simp] theorem Dev.take_streams (d : Dev) (f : Fetched) : (d.take f).host.streams = d.host.streams := rfl
@[simp] theorem Dev.take_msix (d : Dev) (f : Fetched) : (d.take f).host.msix = d.host.msix := rfl
@[simp] theorem Dev.take_pba (d : Dev) (f : Fetched) : (d.take f).host.pba = d.host.pba := rfl
@[simp] theorem Dev.take_bar4Base (d : Dev) (f : Fetched) : (d.take f).host.bar4Base = d.host.bar4Base := rfl
@[simp] theorem Dev.take_bar4Size (d : Dev) (f : Fetched) : (d.take f).host.bar4Size = d.host.bar4Size := rfl
@[simp] theorem Dev.take_windowErr (d : Dev) (f : Fetched) : (d.take f).host.windowErr = d.host.windowErr := rfl
@[simp] theorem Dev.take_windowPoison (d : Dev) (f : Fetched) : (d.take f).host.windowPoison = d.host.windowPoison := rfl
@[simp] theorem Dev.take_jobs (d : Dev) (f : Fetched) : (d.take f).host.jobs = d.host.jobs := rfl
@[simp] theorem Dev.take_nextRing (d : Dev) (f : Fetched) : (d.take f).host.nextRing = d.host.nextRing := rfl
@[simp] theorem Dev.take_linkWidth (d : Dev) (f : Fetched) : (d.take f).host.linkWidth = d.host.linkWidth := rfl
@[simp] theorem Dev.take_linkRate (d : Dev) (f : Fetched) : (d.take f).host.linkRate = d.host.linkRate := rfl
@[simp] theorem Dev.take_peerHalf (d : Dev) (f : Fetched) : (d.take f).host.peerHalf = d.host.peerHalf := rfl
@[simp] theorem Dev.take_latches (d : Dev) (f : Fetched) : (d.take f).host.latches = d.host.latches := rfl
@[simp] theorem Dev.take_out (d : Dev) (f : Fetched) : (d.take f).host.out = d.host.out := rfl

@[simp] theorem Dev.mark_tiles (d : Dev) (off : Nat) (bits : Word) : (d.mark off bits).tiles = d.tiles := rfl
@[simp] theorem Dev.mark_groups (d : Dev) (off : Nat) (bits : Word) : (d.mark off bits).groups = d.groups := rfl
@[simp] theorem Dev.mark_tick (d : Dev) (off : Nat) (bits : Word) : (d.mark off bits).tick = d.tick := rfl
@[simp] theorem Dev.mark_run (d : Dev) (off : Nat) (bits : Word) : (d.mark off bits).run = d.run := rfl
@[simp] theorem Dev.mark_mem (d : Dev) (off : Nat) (bits : Word) : (d.mark off bits).mem = d.mem := rfl
@[simp] theorem Dev.mark_keys (d : Dev) (off : Nat) (bits : Word) : (d.mark off bits).keys = d.keys := rfl
@[simp] theorem Dev.mark_host (d : Dev) (off : Nat) (bits : Word) : (d.mark off bits).host = d.host := rfl
@[simp] theorem Dev.mark_log (d : Dev) (off : Nat) (bits : Word) : (d.mark off bits).log = d.log := rfl
@[simp] theorem Dev.mark_power (d : Dev) (off : Nat) (bits : Word) : (d.mark off bits).power = d.power := rfl
@[simp] theorem Dev.mark_clocks (d : Dev) (off : Nat) (bits : Word) : (d.mark off bits).clocks = d.clocks := rfl
@[simp] theorem Dev.mark_sec (d : Dev) (off : Nat) (bits : Word) : (d.mark off bits).sec = d.sec := rfl
@[simp] theorem Dev.mark_pke (d : Dev) (off : Nat) (bits : Word) : (d.mark off bits).pke = d.pke := rfl
@[simp] theorem Dev.mark_flash (d : Dev) (off : Nat) (bits : Word) : (d.mark off bits).flash = d.flash := rfl
@[simp] theorem Dev.mark_peer (d : Dev) (off : Nat) (bits : Word) : (d.mark off bits).peer = d.peer := rfl
@[simp] theorem Dev.mark_pins (d : Dev) (off : Nat) (bits : Word) : (d.mark off bits).pins = d.pins := rfl
@[simp] theorem Dev.mark_held (d : Dev) (off : Nat) (bits : Word) : (d.mark off bits).held = d.held := rfl
@[simp] theorem Dev.mark_free (d : Dev) (off : Nat) (bits : Word) : (d.mark off bits).free = d.free := rfl

/- The part that an update writes, read back. -/

@[simp] theorem Dev.tile_setTile (d : Dev) (t : TileId) (x : Tile) : (d.setTile t x).tile t = x := by
  simp [Dev.tile, Dev.setTile]

theorem Dev.tile_setTile_other (d : Dev) {t u : TileId} (x : Tile) (h : t ≠ u) : (d.setTile t x).tile u = d.tile u := by
  have : t.toNat ≠ u.toNat := fun e => h (BitVec.eq_of_toNat_eq e)
  simp [Dev.tile, Dev.setTile, this]

@[simp] theorem Dev.setTile_setTile (d : Dev) (t : TileId) (x y : Tile) : (d.setTile t x).setTile t y = d.setTile t y := by
  simp [Dev.setTile]

@[simp] theorem Dev.group_setGroup (d : Dev) (g : GroupId) (x : Group) : (d.setGroup g x).group g = x := by
  simp [Dev.group, Dev.setGroup]

theorem Dev.group_setGroup_other (d : Dev) {g k : GroupId} (x : Group) (h : g ≠ k) : (d.setGroup g x).group k = d.group k := by
  have : g.toNat ≠ k.toNat := fun e => h (BitVec.eq_of_toNat_eq e)
  simp [Dev.group, Dev.setGroup, this]

@[simp] theorem Dev.ring_setRing (d : Dev) (n : BitVec 6) (x : RingBlock) : (d.setRing n x).ring n = x := by
  simp [Dev.ring, Dev.setRing]

theorem Dev.ring_setRing_other (d : Dev) {n k : BitVec 6} (x : RingBlock) (h : n ≠ k) : (d.setRing n x).ring k = d.ring k := by
  have : n.toNat ≠ k.toNat := fun e => h (BitVec.eq_of_toNat_eq e)
  simp [Dev.ring, Dev.setRing, this]

@[simp] theorem Dev.stream_setStream (d : Dev) (n : BitVec 6) (x : Stream) : (d.setStream n x).stream n = x := by
  simp [Dev.stream, Dev.setStream]

theorem Dev.stream_setStream_other (d : Dev) {n k : BitVec 6} (x : Stream) (h : n ≠ k) : (d.setStream n x).stream k = d.stream k := by
  have : n.toNat ≠ k.toNat := fun e => h (BitVec.eq_of_toNat_eq e)
  simp [Dev.stream, Dev.setStream, this]

@[simp] theorem Dev.emit_out (d : Dev) (o : Output) : (d.emit o).host.out = d.host.out ++ [o] := rfl
@[simp] theorem Dev.take_fetched (d : Dev) (f : Fetched) : (d.take f).host.fetched = d.host.fetched.erase f := rfl
@[simp] theorem Dev.hold_held (d : Dev) (h : Held) : (d.hold h).held = d.held ++ [h] := rfl
@[simp] theorem Dev.drew_free (d : Dev) : d.drew.free = d.free + 1 := rfl
@[simp] theorem Dev.onMem_mem (d : Dev) (f : Mem → Mem) : (d.onMem f).mem = f d.mem := rfl

end Sys2Proof.Machine
end

