-- ==== Sys2Proof/Laws/Issue.lean ====
section
/-! SUPPORT. Slot instructions: what issuing one does when its tile is ready, said once. -/

namespace Sys2Proof.Machine

theorem Dev.onTile_going (d : Dev) (t : TileId) (f : Tile → Tile) (h : (f (d.tile t)).halted = false) : d.onTile t f = d.setTile t (f (d.tile t)) := by
  simp [Dev.onTile, h]

theorem Tile.tryPend_none (x : Tile) (n : Nat) (h : x.pend = []) : x.tryPend n = x := by
  simp [Tile.tryPend, h]

theorem Tile.fetch_idle (x : Tile) (ctx : IssueCtx) (h1 : x.tu.op = none) (h2 : x.nma.op = none) (h3 : x.nma.dsm = none) :
    (x.fetchTu ctx).fetchNma ctx = x := by
  simp [Tile.fetchTu, Tile.fetchNma, Tile.fetchNmaOp, Tile.fetchDsm, h1, h2, h3]

theorem firstFetch_idle (x : Tile) (ctx : IssueCtx) (h1 : x.tu.op = none) (h2 : x.nma.op = none) (h3 : x.nma.dsm = none) :
    firstFetch ctx x = .ok x := by
  simp [firstFetch, Tile.fetch_idle x ctx h1 h2 h3]

theorem Dev.extentCheck_off (d : Dev) (g : GroupId) (t : TileId) (x : Tile) (b : BitVec 14) (h : d.run.hazard = false) : d.extentCheck g t x b = d := by
  simp [Dev.extentCheck, h]

/-- Corrected rows whose frozen cycles have passed insert none. -/
theorem Dev.insertEcc_done (d : Dev) (g : GroupId) (h : d.correctionDue (d.group g) = true → (d.group g).eccFor = some (d.group g).pipe) :
    d.insertEcc g = d := by
  unfold Dev.insertEcc
  by_cases hc : d.correctionDue (d.group g) = true
  · simp [h hc]
  · simp [hc]

/-- A tile in which no wait has completed takes no arrivals. -/
theorem Dev.coverTaken_none (d : Dev) (t : TileId) (h : (d.tile t).taken = []) : d.coverTaken t = d := by
  simp [Dev.coverTaken, h]

/-- An instruction that issues in a ready tile leaves the tile that its issue function gives, and nothing else changes. -/
theorem Dev.issueSlotOf_ready {s : State} {t : TileId} {g : GroupId} (h : s.ready t g) (sl : Slot) (f : IssueCtx → Tile → Issue) (y : Tile)
    (hf : f (s.sees t g) (s.settled t g) = .ok y) (h1 : y.tu.op = none) (h2 : y.nma.op = none) (h3 : y.nma.dsm = none) (h4 : y.pend = [])
    (h5 : y.halted = false) (h6 : y.taken = []) : s.dev.issueSlotOf t sl f = s.dev.setTile t y := by
  obtain ⟨hg, hm, he, hz, hh, -⟩ := h
  have hone : (s.settled t g).issueOne (s.sees t g) sl f = y := by
    simp only [Tile.issueOne, hf, firstFetch_idle y _ h1 h2 h3]
    exact Tile.tryPend_none y _ h4
  have htile : (if (s.settled t g).halted = true then s.settled t g else (s.settled t g).issueOne (s.sees t g) sl f) = y := by
    rw [hh, hone]; rfl
  have hon : s.dev.onTile t (fun x => if (x.settle (s.dev.issueCtx t g)).halted = true then x.settle (s.dev.issueCtx t g)
      else (x.settle (s.dev.issueCtx t g)).issueOne (s.dev.issueCtx t g) sl f) = s.dev.setTile t y := by
    rw [Dev.onTile_going]
    · exact congrArg (s.dev.setTile t) htile
    · exact (congrArg Tile.halted htile).trans h5
  simp only [Dev.issueSlotOf, hg, Dev.insertEcc_done s.dev g he, hm, if_true]
  rw [hon, Dev.extentCheck_off _ _ _ _ _ (by exact hz), Dev.coverTaken_none]
  rw [Dev.tile_setTile]
  exact h6

/-- A launched result leaves the units, the pending instructions and the halt alone. -/
theorem Tile.launch_eq_fly (x : Tile) (ctx : IssueCtx) (n : Nat) (ds : List Dest) : x.launch ctx n ds = x.fly ctx.pipe n ds := by
  unfold Tile.launch Tile.fly
  rfl

/-- Under a detector that is off no source is a hazard. -/
theorem hazardFree_off (ctx : IssueCtx) (x : Tile) (rs : List RegName) (h : ctx.hazard = false) : hazardFree ctx x rs = .ok () := by
  simp [hazardFree, need, h]

/- A tile with a result in flight is the tile but for its flights and its count of instructions. -/
@[simp] theorem Tile.fly_tu (x : Tile) (p n : Nat) (ds : List Dest) : (x.fly p n ds).tu = x.tu := by unfold Tile.fly; rfl
@[simp] theorem Tile.fly_nma (x : Tile) (p n : Nat) (ds : List Dest) : (x.fly p n ds).nma = x.nma := by unfold Tile.fly; rfl
@[simp] theorem Tile.fly_pend (x : Tile) (p n : Nat) (ds : List Dest) : (x.fly p n ds).pend = x.pend := by unfold Tile.fly; rfl
@[simp] theorem Tile.fly_halted (x : Tile) (p n : Nat) (ds : List Dest) : (x.fly p n ds).halted = x.halted := by unfold Tile.fly; rfl

@[simp] theorem Tile.fly_taken (x : Tile) (p n : Nat) (ds : List Dest) : (x.fly p n ds).taken = x.taken := by unfold Tile.fly; rfl

/-- An instruction whose result is launched. -/
theorem Dev.issueSlotOf_launch {s : State} {t : TileId} {g : GroupId} (h : s.ready t g) (sl : Slot) (f : IssueCtx → Tile → Issue) (n : Nat)
    (ds : List Dest) (hf : f (s.sees t g) (s.settled t g) = .ok ((s.settled t g).fly (s.sees t g).pipe n ds)) :
    s.dev.issueSlotOf t sl f = s.dev.setTile t ((s.settled t g).fly (s.sees t g).pipe n ds) := by
  apply Dev.issueSlotOf_ready h sl f _ hf
  · rw [Tile.fly_tu]; exact h.2.2.2.2.2.2.2.1
  · rw [Tile.fly_nma]; exact h.2.2.2.2.2.2.2.2.1
  · rw [Tile.fly_nma]; exact h.2.2.2.2.2.2.2.2.2
  · rw [Tile.fly_pend]; exact h.2.2.2.2.2.1
  · rw [Tile.fly_halted]; exact h.2.2.2.2.1
  · rw [Tile.fly_taken]; exact h.2.2.2.2.2.2.1

end Sys2Proof.Machine
end

