-- ==== Sys2Proof/Laws/Store.lean ====
section
/-! SUPPORT. Sparse stores: a read after a write, and that every operation keeps the one form. -/

namespace Sys2Proof.Machine.Store

variable {α : Type} [DecidableEq α] (d : Nat → α)

omit [DecidableEq α] in
@[simp] theorem read_nil (k : Nat) : read d [] k = d k := rfl

theorem wf_cons (a : Nat) (x : α) (m : Sparse α) :
    wf d ((a, x) :: m) = true ↔ x ≠ d a ∧ (∀ p ∈ m, a < p.1) ∧ wf d m = true := by
  simp [wf, and_assoc]

omit [DecidableEq α] in
/-- Below its first entry a store in the one form holds what an unlisted address reads as. -/
theorem read_below {m : Sparse α} {k : Nat} (h : ∀ p ∈ m, k < p.1) : read d m k = d k := by
  induction m with
  | nil => rfl
  | cons e m ih =>
    obtain ⟨a, x⟩ := e
    have hk : k < a := h (a, x) (by simp)
    simp only [read, if_neg (Nat.ne_of_gt hk)]
    exact ih fun p hp => h p (by simp [hp])

/-- Addresses of a written store come from the store or are the one written. -/
theorem mem_write {m : Sparse α} {k : Nat} {x : α} {p : Nat × α} (h : p ∈ write d m k x) : p = (k, x) ∨ p ∈ m := by
  induction m with
  | nil => simp only [write] at h; split at h <;> simp_all
  | cons e m ih =>
    obtain ⟨a, y⟩ := e
    simp only [write] at h
    split at h
    · split at h <;> simp_all
    · split at h
      · split at h
        · simp_all
        · simp only [List.mem_cons] at h ⊢
          rename_i hka _
          subst hka
          tauto
      · rcases List.mem_cons.1 h with rfl | h
        · simp
        · rcases ih h with rfl | h <;> simp_all

/-- A write keeps the one form. -/
theorem write_wf {m : Sparse α} (k : Nat) (x : α) (h : wf d m = true) : wf d (write d m k x) = true := by
  induction m with
  | nil => simp only [write]; split <;> simp_all [wf]
  | cons e m ih =>
    obtain ⟨a, y⟩ := e
    obtain ⟨hy, hlt, hm⟩ := (wf_cons d a y m).1 h
    simp only [write]
    split
    · rename_i hk
      split
      · exact h
      · rename_i hx
        refine (wf_cons d k x _).2 ⟨hx, ?_, h⟩
        intro p hp
        rcases List.mem_cons.1 hp with rfl | hp
        · exact hk
        · exact Nat.lt_trans hk (hlt p hp)
    · split
      · rename_i hka
        subst hka
        split
        · exact hm
        · rename_i hx
          exact (wf_cons d k x m).2 ⟨hx, hlt, hm⟩
      · rename_i h1 h2
        refine (wf_cons d a y _).2 ⟨hy, ?_, ih hm⟩
        intro p hp
        rcases mem_write d hp with rfl | hp
        · simp only; omega
        · exact hlt p hp

/-- A read after a write: the written address gives what was written, every other what it gave. -/
theorem read_write {m : Sparse α} (k : Nat) (x : α) (j : Nat) (h : wf d m = true) :
    read d (write d m k x) j = if j = k then x else read d m j := by
  induction m with
  | nil =>
    simp only [write]
    split <;> rename_i hx <;> by_cases hj : j = k
    · subst hj; simp [hx]
    · simp [hj]
    · simp [read, hj]
    · simp [read, hj, Ne.symm hj]
  | cons e m ih =>
    obtain ⟨a, y⟩ := e
    obtain ⟨hy, hlt, hm⟩ := (wf_cons d a y m).1 h
    have below : ∀ i, i ≤ a → read d m i = d i := fun i hi => read_below d fun p hp => Nat.lt_of_le_of_lt hi (hlt p hp)
    simp only [write]
    split
    · rename_i hk
      have hkm : ∀ p ∈ (a, y) :: m, k < p.1 := by
        intro p hp
        rcases List.mem_cons.1 hp with rfl | hp
        · exact hk
        · exact Nat.lt_trans hk (hlt p hp)
      split
      · rename_i hx
        by_cases hj : j = k
        · subst hj; rw [if_pos rfl, hx]; exact read_below d hkm
        · rw [if_neg hj]
      · by_cases hj : j = k
        · subst hj; simp [read]
        · simp [read, hj, Ne.symm hj]
    · split
      · rename_i hka
        subst hka
        split
        · rename_i hx
          by_cases hj : j = k
          · subst hj; rw [if_pos rfl, hx]; exact below _ (Nat.le_refl _)
          · simp [read, hj, Ne.symm hj]
        · by_cases hj : j = k
          · subst hj; simp [read]
          · simp [read, hj, Ne.symm hj]
      · rename_i h1 h2
        simp only [read]
        by_cases haj : a = j
        · subst haj; simp [Ne.symm h2]
        · simp only [if_neg haj]; exact ih hm

/-- Writes of a list keep the one form. -/
theorem writeAll_wf {m : Sparse α} (ws : List (Nat × α)) (h : wf d m = true) : wf d (writeAll d m ws) = true := by
  induction ws generalizing m with
  | nil => exact h
  | cons w ws ih => exact ih (write_wf d w.1 w.2 h)

/-- Dropping entries keeps the one form. -/
theorem filter_wf {m : Sparse α} (p : Nat × α → Bool) (h : wf d m = true) : wf d (m.filter p) = true := by
  induction m with
  | nil => rfl
  | cons e m ih =>
    obtain ⟨a, x⟩ := e
    obtain ⟨hx, hlt, hm⟩ := (wf_cons d a x m).1 h
    rw [List.filter_cons]
    split
    · exact (wf_cons d a x _).2 ⟨hx, fun q hq => hlt q (List.mem_filter.1 hq).1, ih hm⟩
    · exact ih hm

/-- A store keeps the one form when what unlisted addresses read as changes only away from its entries. -/
theorem wf_congr {m : Sparse α} {d' : Nat → α} (hd : ∀ p ∈ m, d' p.1 = d p.1) (h : wf d m = true) : wf d' m = true := by
  induction m with
  | nil => rfl
  | cons e m ih =>
    obtain ⟨a, x⟩ := e
    obtain ⟨hx, hlt, hm⟩ := (wf_cons d a x m).1 h
    refine (wf_cons d' a x m).2 ⟨?_, hlt, ih (fun p hp => hd p (by simp [hp])) hm⟩
    have h1 : d' a = d a := hd (a, x) (by simp)
    rw [h1]; exact hx

end Sys2Proof.Machine.Store
end

