-- ==== Sys2Proof/Laws/Memory.lean ====
section
/-! SUPPORT. The memory tiers and the scratchpad: every operation on them keeps the one form, and the reset state has it. -/

namespace Sys2Proof.Machine

@[simp] theorem Mem.setChannel_nearDefault (m : Mem) (n : Nat) (c : Channel) : (m.setChannel n c).nearDefault = m.nearDefault := rfl
@[simp] theorem Mem.setChannel_farDefault (m : Mem) (n : Nat) (c : Channel) : (m.setChannel n c).farDefault = m.farDefault := rfl
@[simp] theorem Mem.setChannel_near (m : Mem) (n : Nat) (c : Channel) : (m.setChannel n c).near = m.near := rfl
@[simp] theorem Mem.setChannel_far (m : Mem) (n : Nat) (c : Channel) : (m.setChannel n c).far = m.far := rfl
@[simp] theorem Mem.setChannel_wf (m : Mem) (n : Nat) (c : Channel) : (m.setChannel n c).wf = m.wf := rfl
@[simp] theorem Mem.onChannel_wf (m : Mem) (n : Nat) (f : Channel → Channel) : (m.onChannel n f).wf = m.wf := rfl
@[simp] theorem Mem.hit_wf (m : Mem) (p : Nat) : (m.hit p).wf = m.wf := rfl

theorem Mem.wf_iff (m : Mem) : m.wf = true ↔ Store.wf m.nearDefault m.near = true ∧ Store.wf m.farDefault m.far = true := by
  simp [Mem.wf]

/-- A stored sector keeps the one form. -/
theorem Mem.pokeNear_wf (m : Mem) (p o : Nat) (x : Sector) (h : m.wf = true) : (m.pokeNear p o x).wf = true := by
  obtain ⟨hn, hf⟩ := (Mem.wf_iff m).1 h
  exact (Mem.wf_iff _).2 ⟨Store.write_wf m.nearDefault _ _ hn, hf⟩

theorem Mem.readNear_wf (m : Mem) (p o : Nat) (h : m.wf = true) : (m.readNear p o).1.wf = true := by
  unfold Mem.readNear
  split <;> simpa using h

theorem Mem.storeNear_wf (m : Mem) (p o : Nat) (x : Sector) (h : m.wf = true) : (m.storeNear p o x).wf = true := by
  unfold Mem.storeNear
  split
  · simpa using h
  · exact Mem.pokeNear_wf m p o x h

theorem Mem.writeNear_wf (m : Mem) (p o : Nat) (x : Sector) (h : m.wf = true) : (m.writeNear p o x).wf = true :=
  Mem.storeNear_wf _ p o x (by simpa using h)

theorem Mem.writeFar_wf (m : Mem) (s : Nat) (x : Sector) (h : m.wf = true) : (m.writeFar s x).wf = true := by
  obtain ⟨hn, hf⟩ := (Mem.wf_iff m).1 h
  unfold Mem.writeFar
  split
  · exact h
  · exact (Mem.wf_iff _).2 ⟨hn, Store.write_wf m.farDefault _ _ hf⟩

theorem Mem.accumulate_wf (m : Mem) (op : AccOp) (s : Nat) (x : Sector) (q : Nat) (h : m.wf = true) : (m.accumulate op s x q).wf = true := by
  simp only [Mem.accumulate]
  split
  · simpa using h
  · exact Mem.pokeNear_wf _ _ _ _ (by simpa using h)

/-- Entries in rising order that each differ from what is read unlisted are in the one form. -/
theorem Store.wf_of_ne {α : Type} [DecidableEq α] {d d' : Nat → α} {l : Sparse α} (h : Store.wf d l = true) (ne : ∀ p ∈ l, p.2 ≠ d' p.1) :
    Store.wf d' l = true := by
  induction l with
  | nil => rfl
  | cons e l ih =>
    obtain ⟨a, x⟩ := e
    obtain ⟨_, hlt, ht⟩ := (Store.wf_cons d a x l).1 h
    exact (Store.wf_cons d' a x l).2 ⟨ne (a, x) (by simp), hlt, ih ht fun p hp => ne p (by simp [hp])⟩

/-- Entries that each differ from what is read unlisted keep the one form under any new account of that. -/
theorem Store.filter_ne_wf {α : Type} [DecidableEq α] (d d' : Nat → α) (f : Nat × α → Bool) {l : Sparse α} (h : Store.wf d l = true) :
    Store.wf d' (l.filter (fun e => f e && e.2 != d' e.1)) = true := by
  refine Store.wf_of_ne (Store.filter_wf d _ h) fun p hp => ?_
  have h2 := (List.mem_filter.1 hp).2
  simp only [Bool.and_eq_true, bne_iff_ne, ne_eq] at h2
  exact h2.2

/-- A new account of what is undefined leaves the one form. -/
theorem Mem.recast_wf (m m' : Mem) (keep : Nat → Bool) (far : Store.wf m'.farDefault m'.far = true) (near : ∃ d, Store.wf d m.near = true) :
    (m.recast m' keep).wf = true := by
  obtain ⟨d, hn⟩ := near
  exact (Mem.wf_iff _).2 ⟨Store.filter_ne_wf d m'.nearDefault _ hn, far⟩

theorem Mem.forget_wf (m : Mem) (mask : BitVec 256) (first pages : Nat) (far : Store.wf m.farDefault m.far = true)
    (near : ∃ d, Store.wf d m.near = true) : (m.forget mask first pages).wf = true := Mem.recast_wf m _ _ far near

theorem Mem.forgetTested_wf (m : Mem) (mask : BitVec 256) (first pages : Nat) (all : Bool) (h : m.wf = true) :
    (m.forgetTested mask first pages all).wf = true := Mem.forget_wf m _ _ _ ((Mem.wf_iff m).1 h).2 ⟨_, ((Mem.wf_iff m).1 h).1⟩

theorem Mem.forgetData_wf (m : Mem) (pages : Nat) (far : Store.wf m.farDefault m.far = true) (near : ∃ d, Store.wf d m.near = true) :
    (m.forgetData pages).wf = true := Mem.forget_wf m _ _ _ far near

theorem Mem.sanitized_wf (m : Mem) (far : Bool) (h : m.wf = true) : (m.sanitized far).wf = true := by
  obtain ⟨_, hf⟩ := (Mem.wf_iff m).1 h
  refine (Mem.wf_iff _).2 ?_
  cases far
  · exact ⟨rfl, hf⟩
  · exact ⟨rfl, rfl⟩

theorem Tile.setRow_wf (t : Tile) (r : Nat) (x : Row) (h : t.wf = true) : (t.setRow r x).wf = true := Store.write_wf rowDefault _ _ h

theorem Tile.storeRows_wf (t : Tile) (rs : List (Nat × Row)) (h : t.wf = true) : (t.storeRows rs).wf = true := by
  induction rs generalizing t with
  | nil => exact h
  | cons p rs ih => exact ih (t.setRow p.1 p.2) (Tile.setRow_wf t p.1 p.2 h)

/-- The reset state has the one form. -/
theorem State.reset_memoryWf : State.reset.dev.memoryWf = true := by
  have tiles : State.reset.dev.tiles.all Tile.wf = true := by
    rw [Vector.all_eq_true]
    intro i hi
    simp only [State.reset, Vector.getElem_replicate]
    rfl
  simp only [Dev.memoryWf, tiles, Bool.and_true]
  rfl

end Sys2Proof.Machine
end

