-- ==== Sys2Proof/Laws/Ops.lean ====
section
/-! SUPPORT. The shared operations of the device: what a message, an event, a record, a command and a change of state leave alone, said once. -/

namespace Sys2Proof.Machine

/- Frames: each operation is the device with only these parts changed. -/

/-- A message changes the output port and the pending bits (R321). -/
theorem Dev.message_frame (d : Dev) (v : BitVec 11) :
    d.message v = { d with host := { d.host with out := (d.message v).host.out, pba := (d.message v).host.pba } } := by
  unfold Dev.message Dev.emit
  split <;> rfl

/-- A W1C bit that hardware sets is remembered for its Nucleus cycle, and nothing else changes (R7). -/
theorem Dev.mark_frame (d : Dev) (off : Nat) (bits : Word) : d.mark off bits = { d with fresh := (d.mark off bits).fresh } := rfl

/-- A flag of a ring is set in its block and remembered (R322). -/
theorem Dev.flagRing_frame (d : Dev) (n : BitVec 6) (r : RingBlock) (k : Nat) :
    d.flagRing n r k = { d with fresh := (d.flagRing n r k).fresh, host := { d.host with rings := (d.flagRing n r k).host.rings } } := rfl

/-- An event changes the log, and by its message the output port and the pending bits, and where the log is full marks its flag (R426, R430). -/
theorem Dev.event_frame (d : Dev) (n : Nat) (ev : Event) (data : List (Nat × Nat)) :
    d.event n ev data =
      { d with log := (d.event n ev data).log, fresh := (d.event n ev data).fresh
               host := { d.host with out := (d.event n ev data).host.out, pba := (d.event n ev data).host.pba } } := by
  have key : ∀ e d' : Dev, (d' = { d with fresh := d'.fresh, log := d'.log }) → (e = d' ∨ ∃ v, e = d'.message v) →
      e = { d with log := e.log, fresh := e.fresh, host := { d.host with out := e.host.out, pba := e.host.pba } } := by
    rintro e d' hd (rfl | ⟨v, rfl⟩)
    · rw [hd]
    · rw [Dev.message_frame, hd]
  unfold Dev.event
  by_cases hf : d.log.entries.length = 4096
  all_goals
    simp only [hf, if_true, if_false]
    split
    · split
      · exact key _ _ rfl (.inl rfl)
      · exact key _ _ rfl (.inr ⟨_, rfl⟩)
    · exact key _ _ rfl (.inl rfl)

/-- An event is one entry of the log (R427). -/
theorem Log.append_next (l : Log) (e : LogEntry) : (l.append e).next = l.next + 1 := by
  unfold Log.append
  split
  · split <;> rfl
  · rfl

theorem Log.arrive_next (l : Log) (b : Bool) (e : LogEntry) : (l.arrive b e).next = l.next + 1 := by
  cases b <;> exact Log.append_next _ _

/-- An edge of ALERT# changes no more of the log than the pin's slew in force. -/
theorem Dev.alertEdge_next (d : Dev) (l : Log) : (d.alertEdge l).next = l.next := by
  unfold Dev.alertEdge
  split <;> rfl

theorem Dev.event_next (d : Dev) (n : Nat) (ev : Event) (data : List (Nat × Nat)) : (d.event n ev data).log.next = d.log.next + 1 := by
  unfold Dev.event
  by_cases hf : d.log.entries.length = 4096
  all_goals
    simp only [hf, if_true, if_false]
    split
    · split
      · exact (Dev.alertEdge_next _ _).trans (Log.arrive_next _ _ _)
      · rw [Dev.message_frame]; exact (Dev.alertEdge_next _ _).trans (Log.arrive_next _ _ _)
    · exact (Dev.alertEdge_next _ _).trans (Log.arrive_next _ _ _)

/-- A record that the host takes changes the rings, the output port and the pending bits (R328, R329). -/
theorem Dev.postRecord_frame (d : Dev) (cq : BitVec 6) (bytes : List Byte) (h : (d.ring cq).fails ≠ some 0) :
    d.postRecord cq bytes = { d with host := { d.host with
      rings := (d.postRecord cq bytes).host.rings, out := (d.postRecord cq bytes).host.out, pba := (d.postRecord cq bytes).host.pba } } := by
  have hb : ((d.ring cq).fails == some 0) = false := by simpa using h
  unfold Dev.postRecord
  simp only [hb, Bool.and_false, Bool.false_eq_true, if_false]
  split
  · split
    · rw [Dev.message_frame]; rfl
    · rfl
  · rfl

/-- A record whose write fails disables its queue and is logged (R323). -/
theorem Dev.postRecord_fails (d : Dev) (cq : BitVec 6) (bytes : List Byte) (he : (d.ring cq).cqEnable = true) (h : (d.ring cq).fails = some 0) :
    d.postRecord cq bytes =
      (d.flagRing cq { d.ring cq with cqEnable := false } 3).event srcHost evRingError [(16, cq.toNat), (17, 2)] := by
  unfold Dev.postRecord
  simp [he, h]

/-- Whatever becomes of its write, a record changes no more than the rings, the log, the output port, the pending bits and the remembered flags. -/
theorem Dev.postRecord_frame_any (d : Dev) (cq : BitVec 6) (bytes : List Byte) :
    d.postRecord cq bytes = { d with log := (d.postRecord cq bytes).log, fresh := (d.postRecord cq bytes).fresh, host := { d.host with
      rings := (d.postRecord cq bytes).host.rings, out := (d.postRecord cq bytes).host.out, pba := (d.postRecord cq bytes).host.pba } } := by
  by_cases h : (d.ring cq).fails = some 0
  · by_cases he : (d.ring cq).cqEnable = true
    · rw [Dev.postRecord_fails d cq bytes he h, Dev.event_frame]; rfl
    · have : d.postRecord cq bytes = d := by unfold Dev.postRecord; simp [he]
      rw [this]
  · rw [Dev.postRecord_frame d cq bytes h]

/-- What records can change: the rings, streams, pending commands, output port and pending bits of the host port, the log and the remembered flags. -/
abbrev Dev.ReportsTo (d e : Dev) : Prop :=
  e = { d with log := e.log, fresh := e.fresh, host := { d.host with
    rings := e.host.rings, out := e.host.out, pba := e.host.pba, streams := e.host.streams, jobs := e.host.jobs } }

theorem Dev.ReportsTo.trans {a b c : Dev} (h : a.ReportsTo b) (g : b.ReportsTo c) : a.ReportsTo c := by
  unfold Dev.ReportsTo at *
  rw [g, h]

theorem Dev.postRecord_reports (d : Dev) (cq : BitVec 6) (bytes : List Byte) : d.ReportsTo (d.postRecord cq bytes) := by
  unfold Dev.ReportsTo
  rw [Dev.postRecord_frame_any]

theorem Dev.postBatch_reports (d : Dev) (n : BitVec 6) (r : BatchRec) : d.ReportsTo (d.postBatch n r) := by
  unfold Dev.postBatch
  refine Dev.ReportsTo.trans ?_ (Dev.postRecord_reports _ _ _)
  split <;> rfl

theorem Dev.flushBacklog_reports (k : Nat) (d : Dev) (n : BitVec 6) : d.ReportsTo (d.flushBacklog k n) := by
  induction k generalizing d with
  | zero => rfl
  | succ k ih =>
    unfold Dev.flushBacklog
    split
    · rfl
    · split
      · rfl
      · exact (Dev.ReportsTo.trans (b := d.setStream n _) rfl (Dev.postBatch_reports _ _ _)).trans (ih _)

theorem Dev.finalRecord_reports (d : Dev) (f : Fetched) (p : Bool) (st : Status) (detail : List Byte) :
    d.ReportsTo (d.finalRecord f p st detail) := by
  unfold Dev.finalRecord
  exact Dev.ReportsTo.trans (b := d.unreserve f.cq _) rfl (Dev.postRecord_reports _ _ _)

theorem Dev.entriesFreed_reports (d : Dev) (cq : BitVec 6) : d.ReportsTo (d.entriesFreed cq) := by
  unfold Dev.entriesFreed
  generalize allStreams.filter _ = ns
  induction ns generalizing d with
  | nil => rfl
  | cons n ns ih =>
    rw [List.foldl_cons]
    refine Dev.ReportsTo.trans ?_ (ih _)
    split
    · simp only
      split
      · exact (Dev.flushBacklog_reports _ d n).trans (Dev.ReportsTo.trans
          (b := { (d.flushStream n).shut n with host := { ((d.flushStream n).shut n).host with
            jobs := ((d.flushStream n).shut n).host.jobs.erase _ } }) rfl (Dev.finalRecord_reports _ _ _ _ _))
      · exact Dev.flushBacklog_reports _ d n
    · split
      · exact Dev.flushBacklog_reports _ d n
      · rfl

/-- A command that completes changes no more than its records do, those of batches that waited for its entry among them (R326, R352). -/
theorem Dev.complete_frame (d : Dev) (f : Fetched) (p : Bool) (st : Status) (detail : List Byte) : d.ReportsTo (d.complete f p st detail) := by
  unfold Dev.complete
  simp only
  split
  · exact (Dev.finalRecord_reports _ _ _ _ _).trans (Dev.entriesFreed_reports _ _)
  · exact Dev.finalRecord_reports _ _ _ _ _

/-- A command that becomes pending joins the jobs (R326). -/
theorem Dev.becomePending_frame (d : Dev) (f : Fetched) (k : JobKind) :
    d.becomePending f k = { d with log := (d.becomePending f k).log, fresh := (d.becomePending f k).fresh, host := { d.host with
      rings := (d.becomePending f k).host.rings, out := (d.becomePending f k).host.out, pba := (d.becomePending f k).host.pba
      jobs := d.host.jobs ++ [{ kind := k, cmd := f }] } } := by
  unfold Dev.becomePending
  simp only
  split
  · rw [Dev.postRecord_frame_any]; rfl
  · rfl

/-- A pending command that completes leaves the jobs, and changes no more than records do (R326). -/
theorem Dev.finish_frame (d : Dev) (j : Job) (st : Status) (detail : List Byte) : d.ReportsTo (d.finish j st detail) := by
  unfold Dev.finish
  exact Dev.ReportsTo.trans (b := { d with host := { d.host with jobs := d.host.jobs.erase j } }) rfl (Dev.complete_frame _ _ _ _ _)

/-- A change of the device state changes the run, and by its event the log, the output port and the pending bits (R331, R429). -/
theorem Dev.enter_frame (d : Dev) (next : DevState) (n : Nat) :
    d.enter next n = { d with
      run := { d.run with state := next }, log := (d.enter next n).log, fresh := (d.enter next n).fresh
      host := { d.host with out := (d.enter next n).host.out, pba := (d.enter next n).host.pba } } := by
  unfold Dev.enter
  simp only
  split
  · rfl
  · rw [Dev.event_frame]

theorem Dev.enter_next (d : Dev) (next : DevState) (n : Nat) (h : d.run.state ≠ .boot) : (d.enter next n).log.next = d.log.next + 1 := by
  unfold Dev.enter
  rw [if_neg h]
  exact Dev.event_next _ _ _ _

/- Commands (R326, R332). -/

/-- Nothing fetched: nothing to complete. -/
theorem Dev.pumpAll_idle (d : Dev) (h : d.host.fetched = []) : d.pumpAll = d := by
  unfold Dev.pumpAll
  rw [h]; rfl

theorem Dev.take_only (d : Dev) (f : Fetched) (h : d.host.fetched = [f]) : (d.take f).host.fetched = [] := by
  unfold Dev.take
  simp [h]

/-- The one packet fetched, with its tests passed, has its own effect, and what it leaves is the answer where it fetches nothing. -/
theorem Dev.command_offered {s : State} {c : Packet} {f : Fetched} (h : s.offers c f) (t : Tests) (effect : Dev → Fetched → Dev)
    (valid : t.valid = true) (condition : t.condition = true) (free : t.busy = false)
    (idle : (t.signature && s.dev.pke.session.isSome) = false) (he : (effect (s.taken f) f).host.fetched = []) :
    s.dev.command c c.opcode t effect = effect (s.taken f) f := by
  obtain ⟨-, hp, hn, ha⟩ := h
  unfold Dev.command
  rw [hn]
  simp only [hp, valid, condition, ha, free, idle, and_self, if_true, Bool.not_true, Bool.and_self, Bool.false_eq_true, if_false]
  exact Dev.pumpAll_idle _ he

/-- The one packet fetched that fails a test completes with that test's status, and nothing else changes. -/
theorem Dev.command_refused {s : State} {c : Packet} {f : Fetched} (n : Nat) (t : Tests) (effect : Dev → Fetched → Dev)
    (only : s.dev.host.fetched = [f]) (hp : f.packet = c) (hn : s.dev.host.nextCmd = some f) (hc : c.opcode = n)
    (h : t.valid = false ∨ (accepts n s.dev.run.state && t.condition) = false) :
    s.dev.command c n t effect = (s.taken f).complete f false (if t.valid then .state else .badParam) noDetail := by
  have idle : ∀ st, ((s.dev.take f).complete f false st noDetail).pumpAll = (s.dev.take f).complete f false st noDetail := fun st => by
    apply Dev.pumpAll_idle
    rw [Dev.complete_frame]
    exact Dev.take_only _ _ only
  unfold Dev.command State.taken
  rw [hn]
  simp only [hp, hc, and_self, if_true]
  cases hv : t.valid
  · simp only [Bool.not_false, if_true, Bool.false_eq_true, if_false]; exact idle _
  · rw [hv] at h
    have : (accepts n s.dev.run.state && t.condition) = false := by simpa using h
    simp only [this, Bool.not_true, Bool.not_false, if_true, Bool.false_eq_true, if_false]; exact idle _

/- Accesses that wait, and the end of a run. -/

/-- An access that has to wait joins the end of the queue, and nothing else changes. -/
theorem Dev.receiveMem_wait (d : Dev) (h : Held) (w : d.mustWait d.held h = true) : d.receiveMem h = { d with held := d.held ++ [h] } := by
  unfold Dev.receiveMem
  rw [if_pos w]
  rfl

/-- An access that need not wait is served. -/
theorem Dev.receiveMem_serve (d : Dev) (h : Held) (w : d.mustWait d.held h = false) : d.receiveMem h = d.serveMem h := by
  unfold Dev.receiveMem
  rw [w]
  rfl

/-- A queue's write of a place that no other queue has read in this stage makes nothing undefined (R163). -/
theorem Dev.loseReads_none (d : Dev) (t : TileId) (q : BitVec 2) (p : Place) (h : d.readElsewhere t q p = false) : d.loseReads t q p = d := by
  unfold Dev.loseReads
  simp [h]

/-- Nothing is ended while nothing is to be. -/
theorem Dev.tryEnd_none (d : Dev) (h : d.run.ending = none) : d.tryEnd = d := by
  unfold Dev.tryEnd
  simp [h]

/-- A link that trains leaves its lanes the running settings, and nothing else changes (R393). -/
theorem Dev.linkTrains_frame (d : Dev) (l : Nat) : d.linkTrains l = { d with clocks := (d.linkTrains l).clocks } := rfl

/- The step. -/

theorem step_front (c : Instr) (rest : List Instr) (s : State) (h : s.pending = c :: rest) : step s = exec c { s with pending := rest } := by
  unfold step
  rw [h]

/-- A meaning that acts answers a next state, and the queue stays. -/
theorem State.act_next (s : State) (f : Dev → Dev) : s.act f = .next { s with dev := f s.dev } := rfl

end Sys2Proof.Machine
end

