-- ==== Sys2Proof/Tests/Slice0.lean ====
section
/-! SUPPORT. Tests: ill-formed commands that WellFormed refuses, decode, and for the statements with hypotheses concrete states that meet them. -/



namespace Sys2Proof.Tests

set_option maxRecDepth 20000
set_option Elab.async false

open Sys2Proof Sys2Proof.Machine

/- Ill-formed commands. -/

/-- A packet whose opcode byte is n, with its header from byte 1 on. -/
def pkt (n : Nat) (rest : Nat := 0) : Packet := { sq := 0, bits := BitVec.ofNat 512 (n + 256 * rest) }

theorem test_wf_packet : (Instr.start (pkt 0x20)).wf = true ∧ (Instr.start (pkt 0x21)).wf = false := by decide
theorem test_wf_packets : ([Instr.identify (pkt 0), .getFeatures (pkt 0), .loadImage (pkt 0) none none, .unloadImage (pkt 0), .bindKeyset (pkt 0) none,
    .unbindKeyset (pkt 0), .stageKeys (pkt 0), .retirePage (pkt 0), .stop (pkt 0), .abort (pkt 0), .resume (pkt 0), .setTick (pkt 0), .openStream (pkt 0),
    .closeStream (pkt 0), .runToCount (pkt 0), .dumpState (pkt 0) none, .setDebug (pkt 0), .readLog (pkt 0), .clearLog (pkt 0), .channelTest (pkt 0) none,
    .setHash (pkt 0), .pkeOpen (pkt 0), .pkeClose (pkt 0), .sanitize (pkt 0), .peerConfig (pkt 0) none, .reducePlan (pkt 0) none] : List Instr).all
    (fun c => !c.wf) = true := by decide
theorem test_wf_pke : ([Instr.pkeLoad (pkt 0) none, .pkeStore (pkt 0) none, .pkeZero (pkt 0) none, .pkeRandom (pkt 0) none, .pkeModadd (pkt 0) { block := none },
    .pkeModsub (pkt 0) { block := none }, .pkeModmul (pkt 0) { block := none }, .pkeModexp (pkt 0) { block := none }, .pkeModinv (pkt 0) { block := none }, .pkeModred (pkt 0) { block := none }, .pkeEckeygen (pkt 0) { block := none },
    .pkeEcmul (pkt 0) { block := none }, .pkeEcdh (pkt 0) { block := none }, .pkeEcdsaSign (pkt 0) { block := none }, .pkeEcdsaVerify (pkt 0) none] : List Instr).all (fun c => !c.wf) = true := by
  decide
theorem test_wf_upset : (Instr.transformInvariantClose 0 (some { outputs := [(2 ^ 17, 1)] })).wf = false := by decide
theorem test_wf_page : (Instr.nearReadReturn 0 40960 0 0 0).wf = false ∧ (Instr.nearReadReturn 0 0 113 0 0).wf = false := by decide
theorem test_wf_accumulate : (Instr.accumulate .modAdd 0 0 {} 0).wf = false ∧ (Instr.accumulate .modAdd (256 * 40960 * 113) 0 {} 1).wf = false := by decide
theorem test_wf_sensors : (Instr.arbiterEvaluation { package := 0, junction := [] }).wf = false ∧
    (Instr.pwrBrakeAssert { package := 0, junction := [] }).wf = false ∧ (Instr.pwrBrakeRelease { package := 0, junction := [] }).wf = false := by decide
theorem test_wf_results : (Instr.channelTestComplete [{ channel := 0, mismatches := 0, ce := 0, ue := [], passes := 0, firstPage := 40960, firstSector := 0 }] 0).wf =
    false ∧ (Instr.channelTestComplete [{ channel := 0, mismatches := 0, ce := 0, ue := [(0, 113, 1)], passes := 0, firstPage := 0, firstSector := 0 }] 0).wf =
    false := by decide
theorem test_wf_window : (Instr.bar4Write 0 [] {}).wf = false ∧ (Instr.bar4Write 0 (List.replicate 513 0) {}).wf = false ∧
    (Instr.bar4Read 0 { length := 0 }).wf = false ∧ (Instr.bar4Read 0 { length := 4097 }).wf = false := by decide
theorem test_wf_offset : (Instr.lowWordRead { bar := .bar0, offset := 0, bytes := 0 }).wf = false ∧
    (Instr.registerWrite { bar := .bar2, offset := 65536 } 0).wf = false ∧ (Instr.registerWrite { bar := .bar4Size, offset := 4 } 0).wf = false := by decide
theorem test_wf_fault : (Instr.internalFault .clock 0).wf = false ∧ (Instr.internalFault .dieLink 8).wf = false ∧ (Instr.internalFault .nucleus 1).wf = false := by
  decide
theorem test_wf_nonce : (Instr.challenge 0 []).wf = false ∧ (Instr.getMeasurements 0 (some [])).wf = false := by decide
theorem test_wf_owner : (Instr.ownerRecordUpdate { format := 1, policy := 0, keys := [] } none).wf = false := by decide

def seen : BootSeen :=
  { linkWidth := 16, linkRate := 32, farUp := 0, farUnits := [], farDown := 0, farSlow := 0, failure := none, sanitizeFails := false, micros := 1000 }

theorem test_wf_boot : seen.wf = true ∧ ({ seen with linkWidth := 3 } : BootSeen).wf = false ∧ ({ seen with farUp := 1, farDown := 1 } : BootSeen).wf = false ∧
    ({ seen with farUnits := [1, 1, 1, 1, 1] } : BootSeen).wf = false ∧ ({ seen with failure := some (.loadApply, 0) } : BootSeen).wf = false := by decide

/- The table gives no bits: no word spells a command. -/
theorem test_decode_none : decodeTableWord 32 0 = none := rfl

/- The spec's worked examples. -/

/-- 03, "2^30 · 2^30 modulo the prime": the residue of 2^60 after the last fold and subtractions. -/
theorem test_reduce_example : reduce60 68718690305 (2 ^ 60) = 134217536 := by decide +kernel

/-- 05, "one MXFP4 block": P = 66, and 528 in INT32 mode with XR = −4. -/
def blockA : Block := ⟨[Fmt.mxfp4.elem 7, Fmt.mxfp4.elem 0xB, Fmt.mxfp4.elem 1], 125⟩
def blockB : Block := ⟨[Fmt.mxfp4.elem 6, Fmt.mxfp4.elem 5, Fmt.mxfp4.elem 0xF], 130⟩
theorem test_block_example : blockP blockA blockB = 66 ∧ (accStep .mxfp4 true (-4) ⟨0, 0, 0⟩ blockA blockB).acc = 528 ∧
    (accStep .mxfp4 false 0 ⟨0, 0, 0⟩ blockA blockB).acc = 0x42040000 := by decide +kernel

/-- 05, "an escalation": 2,300,000,000, −2 and 1,000 shifted right by 4, to nearest, ties to even. -/
theorem test_escalation_example : rneShiftInt 2300000000 4 = 143750000 ∧ rneShiftInt (-2) 4 = 0 ∧ rneShiftInt 1000 4 = 62 := by decide

/-- 09, "one logical page": sector address 149,400 lies on channel 165, page 5, sector 14. -/
theorem test_hash_example : hashPlace [0x8001, 0x0003, 0x0006, 0x000C, 0x0018, 0x0030, 0x0060, 0x00C1] (149400 / 113) = (165, 5) ∧
    149400 % 113 = 14 := by decide

/-- 03, "a segmented modular sum on lanes 0 to 7": the inclusive scan of the active lanes, and the reduction. -/
def scanIn : List Node := [some (5, 0), some (1, 0), none, some (2, 0), some (7, 0), some (3, 0), some (6, 0), none]
theorem test_scan_example : [0, 1, 3, 4, 5, 6].map (fun i => ((scanAll .msum (fun _ => 97) [0, 0, 0, 0, 4, 4, 4, 4] scanIn).getD i none).map (·.1)) =
    [some 5, some 6, some 8, some 7, some 10, some 16] := by decide +kernel
theorem test_tree_example : (treeAll .msum 97 3 scanIn).map (·.1) = some 24 := by decide +kernel



/- A tile of a group that may issue. -/

def prime0 : ModEntry := { word0 := 786433, word1 := 5 }
def prime1 : ModEntry := { word0 := 5767169, word1 := 3 }

def header0 : Header :=
  { magic := headerMagic, scheme := 1, logN := 12, level := 1, maxLevel := 1, keyset := 7, scale := 6000, slots := 2048, domain := true, valid := true, polys := 2 }

def table0 : ModTable := { keyset := 7, scheme := 1, logN := 12, plain := 0, limbs := [prime0, prime1], specials := [prime0] }

/-- Registers that the witnesses' words name: A1, A2 and A3 are rows, S1 to S5 operands. -/
def tile0 : Tile :=
  let t : Tile := {}
  { t with
    segments := 0xFF
    a := ((t.a.set 1 64).set 2 128).set 3 256
    s := ((((t.s.set 1 0x100).set 2 (0x4008000)).set 3 5).set 4 1).set 5 (0x1000000000)
    h := (t.h.set 0 { hdr := header0 }).set 1 { hdr := header0 }
    mctx := t.mctx.set 0 (some table0)
    arrival := t.arrival.set 0 1
    scratch := [(0, { data := BitVec.ofNat 4608 header0.bits })] }

/-- Tile t in lock group 0, which has just begun its stage. -/
def running (t : Tile) : State :=
  let d : Dev := {}
  { dev := { d with
    tiles := d.tiles.set 0 t
    groups := d.groups.set 0 { members := [0], active := true, started := true }
    run := { d.run with state := .running } } }

def demo : State := running tile0

theorem wit_ready : demo.ready 0 0 := by decide +kernel

def field26 (fs : List (Nat × Nat)) : BitVec 26 := BitVec.ofNat 26 ((fs.map (fun p => p.2 * 2 ^ p.1)).sum)

theorem wit_ModularAndCopyLanes : demo.ready 0 0 ∧ primesOk (demo.settled 0 0) 0 ∧ lane ((demo.settled 0 0).vreg 0) 0 = 0 := by
  refine ⟨wit_ready, ?_, ?_⟩ <;> decide +kernel

/-- A register whose lane 0 holds 2,000, and V1 the vector B. -/
def farTile : Tile := { tile0 with v := tile0.v.set 1 (2000 :: List.replicate 1023 0) }

theorem wit_ModularAndCopyLanes_far : (running farTile).ready 0 0 ∧ 0x800#26 &&& 0x7F = 0 ∧
    active ((running farTile).settled 0 0).k (vMask 0x800) 0 = true ∧ 1023 < (lane (((running farTile).settled 0 0).vreg (vB 0x800)) 0).toNat := by
  refine ⟨?_, ?_, ?_, ?_⟩ <;> decide +kernel

theorem wit_MaskResults : demo.ready 0 0 ∧ primesOk (demo.settled 0 0) 0 ∧ ((demo.settled 0 0).sreg (vSS 0)).toNat % 2048 ≤ 1024 := by
  refine ⟨wit_ready, ?_, ?_⟩ <;> decide +kernel

/-- S0 holds 1,025 lanes. -/
theorem wit_MaskResults_long : (running { tile0 with s := tile0.s.set 0 1025 }).ready 0 0 ∧ 0x0#26 &&& 0x31F087F = 0 ∧
    1024 < (((running { tile0 with s := tile0.s.set 0 1025 }).settled 0 0).sreg (vSS 0)).toNat % 2048 := by
  refine ⟨?_, ?_, ?_⟩ <;> decide +kernel

theorem wit_FpResults : demo.ready 0 0 ∧ (0 : BitVec 26) &&& 0x7F = 0 := ⟨wit_ready, by decide⟩

theorem wit_ConversionResults : demo.ready 0 0 ∧ primesOk (demo.settled 0 0) 0 ∧ (0 : BitVec 26) &&& 0xF800 = 0 := by
  refine ⟨wit_ready, ?_, ?_⟩ <;> decide +kernel

/-- STRIDE 1, A0: rows 0 to 7. -/
def wVld : BitVec 26 := field26 [(14, 1)]

theorem wit_VectorMemory_load : wVld &&& (if vPwen wVld then 0x7F else 0x307F) = 0 ∧ (vStride wVld).getLsbD 0 = true ∧
    eightRowGroup ((List.range 8).map (vectorRow (demo.settled 0 0) wVld)) = true ∧ rowsOk demo 0 0 ((List.range 8).map (vectorRow (demo.settled 0 0) wVld)) ∧
    noneStarved (demo.settled 0 0) ((List.range 8).map (vectorRow (demo.settled 0 0) wVld)) := by
  refine ⟨?_, ?_, ?_, ?_, ?_⟩ <;> decide +kernel
theorem wit_VectorMemory_store : wVld &&& 0x38FF = 0 ∧ noneInRing (demo.settled 0 0) ((List.range 8).map (vectorRow (demo.settled 0 0) wVld)) := by
  refine ⟨?_, ?_⟩ <;> decide +kernel

theorem wit_ScanResults : demo.ready 0 0 ∧ primesOk (demo.settled 0 0) 0 ∧ (vSegen 0 = false → (0 : BitVec 26) &&& 0x3800 = 0) := by
  refine ⟨wit_ready, ?_, ?_⟩ <;> decide +kernel

theorem wit_TreeResults : demo.ready 0 0 ∧ selOk (demo.settled 0 0) (vMctx 0) (vSE 0) (vGS 0) (vMask 0) = true ∧
    (∀ n, n < 8 → 0 < selPrime (demo.settled 0 0) (vMctx 0) (vSE 0) (vGS 0) n) := by
  refine ⟨wit_ready, ?_, ?_⟩ <;> decide +kernel

/-- KIND 4, index register S1: j = 0 and i = 1. -/
def wQinv : BitVec 26 := field26 [(12, 4), (16, 1)]

theorem wit_ScalarAndConstantResults : wQinv &&& 0xFFF = 0 ∧ ((demo.settled 0 0).sreg 1).toNat % 128 = 0 ∧ ((demo.settled 0 0).sreg 1).toNat / 256 % 128 = 1 ∧
    (demo.settled 0 0).ctx 0 = some table0 ∧ table0.entry? 0 = some prime0 ∧ prime0.q % 2 = 1 ∧ 1 < prime0.q ∧ 1 < table0.limbs.length := by
  refine ⟨?_, ?_, ?_, ?_, ?_, ?_, ?_, ?_⟩ <;> decide +kernel

/-- LOOP level 0, OFF 1, COUNT 1. -/
def wLoop : BitVec 30 := 0x10001

theorem wit_SequencerResults_loop : wLoop.extractLsb' 16 12 ≠ 0 ∧ wLoop.extractLsb' 0 16 ≠ 0 ∧
    (∀ k, k < 4 → ((demo.settled 0 0).loops.toList.getD k {}).active = decide (k < 0)) := by
  refine ⟨?_, ?_, ?_⟩ <;> decide +kernel

/-- The tile within a loop of level 0 that ends at bundle 5. -/
def loopTile : Tile := { tile0 with loops := tile0.loops.set 0 { active := true, start := 0, stop := 5 } }

theorem wit_SequencerResults_inner : (running loopTile).ready 0 0 ∧
    (∀ k, k < 4 → (((running loopTile).settled 0 0).loops.toList.getD k {}).active = decide (k < 1)) ∧
    ((running loopTile).sees 0 0).bundle.toNat + 5 ≤ (((running loopTile).settled 0 0).loops.toList.getD 0 {}).stop := by
  refine ⟨?_, ?_, ?_⟩ <;> decide +kernel

/-- WAIT of counter 0, and of counter 1, for one arrival. -/
theorem wit_SequencerResults_wait : (0x10#26 : BitVec 26) &&& 0xF = 0 ∧ (1 : BitVec 16) ≤ (demo.settled 0 0).arrival[0] ∧
    (demo.settled 0 0).arrival[1] < (1 : BitVec 16) := by
  refine ⟨?_, ?_, ?_⟩ <;> decide +kernel

/-- Refused: LOOP with COUNT 0, with a body of 0, and of level 1 where level 0 is not active; WAIT for 0; a window of no rows; FLAGCLR of register 3, and
of bit 5 of MVE_FLAGS. -/
theorem wit_SequencerResults_refused : (0x10000#30).extractLsb' 0 16 = 0 ∧ (0x1#30).extractLsb' 16 12 = 0 ∧
    ((demo.settled 0 0).loops.toList.getD 0 {}).active = false ∧ (0x0#26).extractLsb' 4 16 = 0 ∧ ((demo.settled 0 0).sreg 0).toNat / 2 ^ 15 % 2 ^ 11 = 0 ∧
    (field26 [(24, 3)]).extractLsb' 24 2 = 3 ∧ (0x20 : Word) &&& ~~~(flagFields 0) ≠ 0 := by
  refine ⟨?_, ?_, ?_, ?_, ?_, ?_, ?_⟩ <;> decide +kernel

/-- A result that lands later. -/
def flyingTile : Tile := { tile0 with flights := [{ due := 5, issued := 0, seq := 0, dests := [.s 0 1] }] }

theorem wit_SequencerResults_marker : (demo.settled 0 0).flights = [] ∧ (demo.settled 0 0).reads = [] ∧ (demo.settled 0 0).dueHalts = [] ∧
    (demo.settled 0 0).nma.closes = [] ∧ (∀ q ∈ (demo.settled 0 0).dma.queues.toList, q = []) ∧ (∀ r ∈ (demo.settled 0 0).rings.toList, r.armed = false) ∧
    (demo.settled 0 0).nma.tails = [] ∧ (demo.settled 0 0).nma.outbox = [] := by
  refine ⟨?_, ?_, ?_, ?_, ?_, ?_, ?_, ?_⟩ <;> decide +kernel
theorem wit_SequencerResults_left : (running flyingTile).ready 0 0 ∧ ((running flyingTile).settled 0 0).flights ≠ [] := by
  refine ⟨?_, ?_⟩ <;> decide +kernel

/-- S2 holds one row a line, lines one row apart. -/
theorem wit_SequencerResults_window : ((demo.settled 0 0).sreg 2).toNat / 2 ^ 15 % 2 ^ 11 = 1 ∧ ((demo.settled 0 0).sreg 2).toNat / 2 ^ 26 % 2 ^ 15 = 1 ∧
    (field26 [(19, 2)] : BitVec 26) &&& 0x7FFF = 0 ∧ (0 : BitVec 32) &&& ~~~(flagFields 0) = 0 := by
  refine ⟨?_, ?_, ?_, ?_⟩ <;> decide +kernel

/-- KIND 1 from row 0 to row 8 of the tile itself, one element. -/
def desc0 : BitVec 512 := BitVec.ofNat 512 (1 + 8 * 2 ^ 96 + 2 ^ 160 + 2 ^ 224 + 2 ^ 288 + 2 ^ 352)
def dmaTile (n : Nat) : Tile :=
  { tile0 with dma := { tile0.dma with descriptors := [(0, desc0)], queues := tile0.dma.queues.set 0 (List.replicate n { index := 0, bits := desc0 }) } }

theorem wit_NopAndDescriptorIssue : (running (dmaTile 0)).ready 0 0 ∧ descCodesOk desc0 = true ∧ descCountsOk desc0 = true ∧
    offsetFits (dSrc desc0) 0 = true ∧ offsetFits (dDst desc0) 0 = true ∧ descScatterOk desc0 = true := by
  refine ⟨?_, ?_, ?_, ?_, ?_, ?_⟩ <;> decide +kernel
theorem wit_NopAndDescriptorIssue_full : (running (dmaTile 32)).ready 0 0 ∧ 32 ≤ (((running (dmaTile 32)).settled 0 0).dma.queues[0]).length := by
  refine ⟨?_, ?_⟩ <;> decide +kernel
/-- A write of S0, issued in cycle 0, has still to land in cycle 3; no write is on its way. A place that another descriptor of the stage writes. -/
def lateState : State :=
  let s := running { tile0 with flights := [{ due := 9, issued := 0, seq := 0, dests := [.s 0 1] }] }
  { s with dev := s.dev.setGroup 0 { s.dev.group 0 with pipe := 3 } }
theorem wit_NopAndDescriptorIssue_hazard : lateState.ready 0 0 ∧ (lateState.settled 0 0).flights.map (fun f => (f.issued, f.dests)) = [(0, [.s 0 1])] ∧
    0 < (lateState.sees 0 0).pipe ∧ (namesSources 0 0).any (fun p => p.2.2.2.contains (.s 0)) = true ∧ (demo.settled 0 0).flights = [] ∧
    (running (dmaTile 0)).dev.extent 0 { index := 0, bits := withOffsets desc0 0 0 } = [.scratch 0 8] ∧ (running (dmaTile 0)).dev.run.extents = [] ∧
    (0, Place.scratch 0 8) ∈ [((0 : GroupId), Place.scratch 0 8)] := by
  refine ⟨?_, ?_, ?_, ?_, ?_, ?_, ?_, ?_⟩ <;> decide +kernel

theorem wit_HeaderMoves : rowsOk demo 0 0 [0] ∧ parseHeader (((demo.settled 0 0).rowAt 0).seen.toNat % 2 ^ 512) = some header0 ∧
    (demo.settled 0 0).headerOk header0 = true ∧ noneStarved (demo.settled 0 0) [0] ∧ noneInRing (demo.settled 0 0) [0] := by
  refine ⟨?_, ?_, ?_, ?_, ?_⟩ <;> decide +kernel

/-- HA = H0, HB = H1. -/
def hopWord (bin : Bool) (sx imm : Nat) : BitVec 22 := BitVec.ofNat 22 (imm + sx * 2 ^ 8 + (if bin then 2 ^ 12 + 2 ^ 13 else 0))

def hopPasses (t : Tile) (c : HopClass) (w : BitVec 22) : Bool :=
  let s := running t
  let x := s.settled 0 0
  decide (s.ready 0 0) && w &&& hopUnused c w == 0 && hopBinOk c w && !(c == .drop && (hopImm w).toNat % 64 == 0) &&
  (hopChecks (s.sees 0 0) x c (hopImm w) (x.sreg (hopSX w)).toNat (x.hreg (hopHA w)).hdr
    (if hopBin w then some (x.hreg (hopHB w)).hdr else none)).isOk

/-- The tile with header h in H0. -/
def withHeader (h : Header) : Tile := { tile0 with h := tile0.h.set 0 { hdr := h } }

theorem wit_HopResults_binary : hopPasses tile0 .addsub (hopWord true 0 0) = true ∧ hopPasses tile0 .mulcc (hopWord true 0 0) = true ∧
    hopPasses tile0 .mulrescale (hopWord true 0 0) = true := by
  refine ⟨?_, ?_, ?_⟩ <;> decide +kernel
theorem wit_HopResults_unary : hopPasses tile0 .mulpt (hopWord false 0 0) = true ∧ hopPasses tile0 .rotate (hopWord false 0 0) = true ∧
    hopPasses tile0 .intt (hopWord false 0 0) = true ∧ hopPasses tile0 .transpose (hopWord false 0 0) = true ∧
    hopPasses tile0 .rescale (hopWord false 0 0) = true ∧ hopPasses tile0 .drop (hopWord false 0 1) = true := by
  refine ⟨?_, ?_, ?_, ?_, ?_, ?_⟩ <;> decide +kernel
theorem wit_HopResults_others : hopPasses (withHeader { header0 with polys := 3 }) .relin (hopWord false 0 0) = true ∧
    hopPasses (withHeader { header0 with domain := false }) .fntt (hopWord false 0 0) = true ∧
    hopPasses (withHeader { header0 with domain := false, level := 0 }) .modraise (hopWord false 0 0) = true ∧
    hopPasses tile0 .ksext (hopWord false 3 0x20) = true := by
  refine ⟨?_, ?_, ?_, ?_⟩ <;> decide +kernel

/-- A BGV header, which MODSWITCH takes. -/
def bgvTile : Tile :=
  { (withHeader { header0 with scheme := 2, scale := 0 }) with mctx := tile0.mctx.set 0 (some { table0 with scheme := 2 }) }

theorem wit_HopResults_modswitch : hopPasses bgvTile .modswitch (hopWord false 0 0) = true := by decide +kernel

theorem wit_HopResults_invalidate : hopWord false 0 0 &&& 0xFFFF = 0 ∧ ((demo.settled 0 0).hreg (hopHA (hopWord false 0 0))).hdr.wellFormed = true := by
  refine ⟨?_, ?_⟩ <;> decide +kernel

/-- What HeaderRefusals asks of source h of the class, for context m. -/
def passes (s : State) (h : Header) (m : ModTable) : Bool :=
  h.wellFormed && h.valid && !h.seeded && !(s.sees 0 0).poisonHalt && (s.settled 0 0).contextOf h.keyset == some m && h.fitsContext m &&
  h.logN == m.logN && h.scheme == m.scheme && decide (h.limbBase.toNat < 64)

/-- Level 0 in both headers. -/
def spent : Header := { header0 with level := 0 }
theorem wit_HeaderRefusals_level :
    (let s := running { tile0 with h := (tile0.h.set 0 { hdr := spent }).set 1 { hdr := spent } }
     let w := hopWord true 0 0
     decide (s.ready 0 0) && passes s ((s.settled 0 0).hreg (hopHA w)).hdr table0 && passes s ((s.settled 0 0).hreg (hopHB w)).hdr table0 &&
     w &&& hopUnused .mulrescale w == 0 && hopBin w && spent.domain && spent.polys == 2 && hopWord false 0 0 &&& hopUnused .rescale (hopWord false 0 0) == 0) =
      true := by decide +kernel
theorem wit_HeaderRefusals_others :
    (let s := running { bgvTile with h := bgvTile.h.set 0 { hdr := { spent with scheme := 2, scale := 0 } } }
     decide (s.ready 0 0) && passes s ((s.settled 0 0).hreg 0).hdr { table0 with scheme := 2 } && ((s.settled 0 0).hreg 0).hdr.level == 0 &&
     passes demo ((demo.settled 0 0).hreg 0).hdr table0 && ((demo.settled 0 0).hreg 0).hdr.level == 1 && (hopImm (hopWord false 0 2)).toNat % 64 == 2 &&
     hopWord false 0 2 &&& hopUnused .drop (hopWord false 0 2) == 0) = true := by decide +kernel
theorem wit_HeaderRefusals_invalidate : (running (withHeader { header0 with magic := 0 })).ready 0 0 ∧
    (((running (withHeader { header0 with magic := 0 })).settled 0 0).hreg 0).hdr.wellFormed = false := by
  refine ⟨?_, ?_⟩ <;> decide +kernel

/-- Stream 0: KIND 1, one slot of 72 rows from row 512, one entry. -/
def stream0 : BitVec 256 := BitVec.ofNat 256 (1 + 2 ^ 24 + 2 ^ 72 + 512 * 2 ^ 96)
def ringTile : Tile :=
  { tile0 with
    streams := [(0, stream0)]
    rings := tile0.rings.set 1 { armed := true, base := 1024, slots := [.full], s := 32, fill := 1, done := 1 }
    h := tile0.h.set 2 { hdr := { header0 with domain := false, seeded := true, seed := 9, level := 0, maxLevel := 0 } } }

theorem wit_RingResults_arm : (running ringTile).ready 0 0 ∧ stream0 ≠ 0 ∧ ((running ringTile).settled 0 0).rings[0].armed = false ∧
    ((running ringTile).settled 0 0).headerOk header0 = true ∧ quarterOf (stBase stream0) = quarterOf (stBase stream0 + stSlots stream0 * 72 - 1) ∧
    (rowsFrom (stBase stream0) (stSlots stream0 * (8 + 2 * keyS 12))).all ((running ringTile).settled 0 0).powered = true := by
  refine ⟨?_, ?_, ?_, ?_, ?_, ?_⟩ <;> decide +kernel
theorem wit_RingResults_release : ((running ringTile).settled 0 0).rings[1].armed = true ∧
    ((running ringTile).settled 0 0).rings[1].slots.getD 0 .empty = .full := by
  refine ⟨?_, ?_⟩ <;> decide +kernel
theorem wit_RingResults_expand : (((running ringTile).settled 0 0).hreg 2).hdr.sourceOk true = true ∧
    ((running ringTile).sees 0 0).poisonHalt = false ∧ ((running ringTile).settled 0 0).contextOf 7 = some table0 ∧
    (let h := (((running ringTile).settled 0 0).hreg 2).hdr; h.fitsContext table0 = true ∧ h.logN = table0.logN ∧ h.scheme = table0.scheme) ∧
    (expandRows (((running ringTile).settled 0 0).hreg 2).hdr 0).all ((running ringTile).settled 0 0).powered = true := by
  refine ⟨?_, ?_, ?_, ?_, ?_⟩ <;> decide +kernel

theorem wit_ReduceSequence : 2 ^ 29 < 68718428161 ∧ 68718428161 < 2 ^ 36 ∧ 68718428161 % 2 ^ 18 = 1 ∧ (0 : Nat) < 2 ^ 73 := by decide


/-- SRC A0, DST A1, entry S0. -/
def wTu (fs : List (Nat × Nat)) : BitVec 26 := field26 ((18, 1) :: fs)

theorem regionsOk_none (s : State) (t : TileId) (g : GroupId) (src dst n : Nat)
    (h : rowsOk s t g (rowsFrom src n ++ rowsFrom dst n ++ []) ∧ regionOk src n = true ∧ regionOk dst n = true ∧ (src = dst ∨ src + n ≤ dst ∨ dst + n ≤ src) ∧
      noneStarved (s.settled t g) (rowsFrom src 8) ∧ noneInRing (s.settled t g) (rowsFrom dst n)) : regionsOk s t g src dst n none :=
  ⟨h.1, h.2.1, h.2.2.1, h.2.2.2.1, (fun _ _ e => by cases e), h.2.2.2.2.1, h.2.2.2.2.2⟩

theorem regionsOk_some (s : State) (t : TileId) (g : GroupId) (src dst n r k : Nat)
    (h : rowsOk s t g (rowsFrom src n ++ rowsFrom dst n ++ rowsFrom r k) ∧ regionOk src n = true ∧ regionOk dst n = true ∧ (src = dst ∨ src + n ≤ dst ∨ dst + n ≤ src) ∧
      (regionOk r k = true ∧ (r + k ≤ dst ∨ dst + n ≤ r)) ∧
      noneStarved (s.settled t g) (rowsFrom src 8) ∧ noneInRing (s.settled t g) (rowsFrom dst n)) : regionsOk s t g src dst n (some (r, k)) :=
  ⟨h.1, h.2.1, h.2.2.1, h.2.2.2.1, (fun _ _ e => by cases e; exact h.2.2.2.2.1), h.2.2.2.2.2.1, h.2.2.2.2.2.2⟩

theorem wit_TransformUnitStarts : (demo.settled 0 0).ctx 0 = some table0 ∧ table0.entry? 0 = some prime0 ∧ wTu [] &&& 0x7FF = 0 ∧
    ((demo.settled 0 0).areg 1).toNat = 64 ∧ ((demo.settled 0 0).areg 0).toNat = 0 ∧ regionsOk demo 0 0 0 64 32 none := by
  refine ⟨?_, ?_, ?_, ?_, ?_, regionsOk_none _ _ _ _ _ _ ?_⟩ <;> decide +kernel
theorem wit_TransformUnitStarts_table : wTu [(11, 1), (7, 2)] &&& 0x7F = 0 ∧ ((demo.settled 0 0).areg 2).toNat = 128 ∧
    regionsOk demo 0 0 0 64 32 (some (128, tableRows 12)) := by
  refine ⟨?_, ?_, regionsOk_some _ _ _ _ _ _ _ _ ?_⟩ <;> decide +kernel
theorem wit_TransformUnitStarts_others : wTu [(8, 3)] &&& 0x7F = 0 ∧ ((demo.settled 0 0).sreg 3).toNat = 5 ∧ wTu [(8, 2)] &&& 0xFF = 0 ∧
    regionsOk demo 0 0 0 64 32 (some (128, 32)) ∧ field26 [(18, 3)] &&& 0x3FFFF = 0 ∧ regionsOk demo 0 0 0 256 128 none := by
  refine ⟨?_, ?_, ?_, regionsOk_some _ _ _ _ _ _ _ _ ?_, ?_, regionsOk_none _ _ _ _ _ _ ?_⟩ <;> decide +kernel

/-- Tile t of group 0 in pipeline cycle n. -/
def at_ (t : Tile) (n : Nat) : State :=
  let s := running t
  { s with dev := s.dev.setGroup 0 { s.dev.group 0 with pipe := n } }

/-- A transform of one row under q = 257 and ψ = 3, whose source holds 5 in residue 0 and 1 in residue 64. -/
def tuOp (k : TuKind) (data : SectorBits) : TuOp :=
  { kind := k, issued := 0, latency := 77, seq := 0, bundle := 0, src := 0, dst := 1, logN := 7, q := 257, psi := 3, fetch := { got := [(0, { data := data })] } }
def tuData : SectorBits := BitVec.ofNat 4608 (5 + 2 ^ (64 * 36))
def tuState (k : TuKind) (data : SectorBits) : State := at_ { tile0 with tu := { tile0.tu with op := some (tuOp k data) } } 80

theorem wit_TransformResults_transforms : (tuState (.transform false false) tuData).transforms 0 0 (tuOp (.transform false false) tuData) ∧
    (tuState (.transform true false) tuData).transforms 0 0 (tuOp (.transform true false) tuData) ∧
    (tuOp (.transform false false) tuData).issued + 77 - 1 ≤ ((tuState (.transform false false) tuData).sees 0 0).pipe := by
  refine ⟨?_, ?_, ?_⟩ <;> decide +kernel

theorem sumMod_zero (q n : Nat) : sumMod q n (fun _ => 0) = 0 := by
  unfold sumMod
  induction n with
  | zero => rfl
  | succ n ih => rw [List.range_succ, List.foldl_append, ih]; simp

def zeroOp : TuOp := tuOp (.transform false false) 0

theorem at_zero (i : Nat) : zeroOp.fetch.at 0 i = 0 := by
  unfold Fetches.at Fetches.seen zeroOp tuOp
  by_cases h : i / 128 = 0 <;> simp [h, eq_comm (a := 0), Row.seen, lane128]

theorem sides_zero : invariantSides zeroOp false false none = { sum := 0, alt := 0, a0 := 0, ah := 0 } := by
  have z : zeroOp.src = 0 := rfl
  have t : ∀ i, transformIn zeroOp i = 0 := fun i => by simp [transformIn, z, at_zero]
  simp [invariantSides, transformAt, nttAt, altSum, upsetAdd, t, sumMod_zero, res]

/-- The source zero: the sides are zero, and both identities hold. -/
theorem wit_TransformResults_forward : check1Ok zeroOp false (invariantSides zeroOp false false none) = true ∧
    check2Ok zeroOp false (invariantSides zeroOp false false none) = true := by
  rw [sides_zero]; refine ⟨?_, ?_⟩ <;> decide +kernel
theorem wit_TransformResults_inverse : check1Ok (tuOp (.transform true false) tuData) true (invariantSides (tuOp (.transform true false) tuData) true false none) =
    true ∧ check2Ok (tuOp (.transform true false) tuData) true (invariantSides (tuOp (.transform true false) tuData) true false none) = true := by
  refine ⟨?_, ?_⟩ <;> decide +kernel

theorem wit_InverseUndoesForward : (5 : Nat).Prime ∧ 5 % 2 = 1 ∧ 2 ^ (2 ^ 1) % 5 = 5 - 1 := by refine ⟨?_, ?_, ?_⟩ <;> norm_num

/-- An upset of residue 3 by 1 (with the states of the last witnesses). -/
theorem wit_TransformUpsetCaught : 3 < 2 ^ (tuOp (.transform false false) 0).logN ∧ (1 : Residue).toNat % (tuOp (.transform false false) 0).q ≠ 0 ∧
    (tuState (.transform false false) 0).transforms 0 0 zeroOp := by
  refine ⟨?_, ?_, ?_⟩ <;> decide +kernel

/-- q is odd, and ψ^N is −1. -/
theorem wit_TransformUpsetCaught_sides : zeroOp.q % 2 = 1 ∧ zeroOp.psi ^ 2 ^ zeroOp.logN % zeroOp.q = zeroOp.q - 1 ∧ zeroOp.upset = none ∧
    zeroOp.issued + zeroOp.latency - 1 ≤ ((tuState (.transform false false) 0).sees 0 0).pipe := by
  refine ⟨?_, ?_, ?_, ?_⟩ <;> decide +kernel

/-- Tile t of group 0 in pipeline cycle n, whose marker has frozen the group. -/
def marking (t : Tile) (n : Nat) : State :=
  let s := at_ { t with pend := [{ kind := .marker, wall := 0, bundle := 0 }] } n
  { s with dev := { s.dev with tick := { s.dev.tick with wall := 5 } } }

def landsNow (k : TuKind) (n : Nat) : Bool :=
  let op := tuOp k tuData
  let s := marking { tile0 with tu := { tile0.tu with op := some op } } n
  let x := s.settled 0 0
  decide (s.turning 0 0) && x.wf && x.tu.op == some op && x.flights.isEmpty && x.nma.op == none && x.nma.tails.isEmpty && x.nma.dsm == none &&
  x.nma.closes.isEmpty && x.tuWrites op (s.sees 0 0).pipe && op.written == 0 && decide ((s.sees 0 0).pipe ≤ op.lastWrite) &&
  (List.range 32).all (fun b => decide (op.leftIn 0 b ≤ op.lastWrite + 1 - (s.sees 0 0).pipe))

/-- In the last writing cycle, and the block transpose in the sixteenth from its end. -/
theorem wit_TransformUnitLandings : landsNow (.auto 5 true) 76 = true ∧ landsNow (.auto 5 false) 76 = true ∧ landsNow .txp 61 = true ∧
    landsNow (.transform false false) 75 = true := by
  refine ⟨?_, ?_, ?_, ?_⟩ <;> decide +kernel

/-- An index tensor of zeros, and one whose first entry is out of range. -/
def permOp (aux : Nat) : TuOp := { tuOp .perm 0 with aux := 2, fetch := { got := [(0, {}), (2, { data := BitVec.ofNat 4608 aux })] } }
theorem wit_TransformUnitLandings_perm : (∀ k, k < 128 → permEntryOk 7 (permEntry (permOp 0) k) = true) ∧
    permEntryOk 7 (permEntry (permOp (2 ^ 20)) 0) = false ∧
    (at_ { tile0 with tu := { tile0.tu with op := some (permOp 0) } } 6).transforms 0 0 (permOp 0) := by
  refine ⟨?_, ?_, ?_⟩ <;> decide +kernel

/-- A3, S4 and S1 of the tile; WIDE A1. -/
theorem wit_ArrayMovesStart_spill : field26 [(25, 1), (21, 1)] &&& 0x1FFFFF = 0 ∧ rowsOk demo 0 0 (rowsFrom 64 1152) ∧ noneInRing (demo.settled 0 0) (rowsFrom 64 1152) := by
  refine ⟨?_, ?_, ?_⟩ <;> decide +kernel
theorem wit_ArrayMovesStart_merge : field26 [(21, 1)] &&& 0x1FFFFF = 0 ∧ rowsOk demo 0 0 (rowsFrom 64 1152 ++ rowsFrom 64 1152) ∧
    noneStarved (demo.settled 0 0) (rowsFrom 64 8) := by
  refine ⟨?_, ?_, ?_⟩ <;> decide +kernel
/-- S5 in the chain operand: NBR 1, I0 0. -/
theorem wit_ArrayMovesStart_send : field26 [(25, 1), (5, 5)] &&& 0x1F = 0 ∧ ((demo.settled 0 0).sreg 5).toNat / 2 ^ 36 % 16 = 1 ∧
    ((demo.settled 0 0).sreg 5).toNat / 2 ^ 32 % 16 + 1 ≤ blockRows (demo.settled 0 0).nma.accSmall ∧ (field26 [(20, 1)] : BitVec 26) &&& 0xFFFF = 0 := by
  refine ⟨?_, ?_, ?_, ?_⟩ <;> decide +kernel

/-- The issue is accepted, and no row that it requests at once starves. -/
def arrayPasses (issue : IssueCtx → BitVec 26 → Tile → Issue) (w : BitVec 26) (t : Tile) : Bool :=
  let s := running t
  let x := s.settled 0 0
  decide (s.ready 0 0) && !x.sent.ctrl.getLsbD 0 && !x.sent.ctrl.getLsbD 1 && x.nma.closes.isEmpty &&
  match issue (s.sees 0 0) w x with
  | .ok y => (match y.nma.op with | some op => decide (noneStarved y (op.fetch.split (s.sees 0 0).pipe).1) | none => true) &&
      (match y.nma.dsm with | some d => decide (noneStarved y (d.fetch.split (s.sees 0 0).pipe).1) | none => true)
  | .error _ => false

/-- A0, A2, one K step (S4), XR 0, integer accumulators to zero. -/
theorem wit_ArrayOperationsStart_mma : arrayPasses issueMma (field26 [(22, 1), (21, 1), (13, 2), (9, 4)]) tile0 = true ∧ Fmt.ofCode 0 ≠ none := by
  refine ⟨?_, ?_⟩ <;> decide +kernel
theorem wit_ArrayOperationsStart_mepi : arrayPasses issueMepi (field26 [(16, 1), (8, 6)]) tile0 = true := by decide +kernel
theorem wit_ArrayOperationsStart_dsm : arrayPasses issueDsm (field26 [(17, 2), (13, 1), (9, 4)]) tile0 = true := by decide +kernel

/-- A chain header for the operand S5 in row 0. -/
def chainTile : Tile := { tile0 with scratch := [(0, { data := BitVec.ofNat 4608 (0x4E484343 + 2 ^ 88) })] }
theorem wit_ArrayOperationsStart_mchr : arrayPasses issueMchr (field26 [(5, 5)]) chainTile = true ∧
    (match chainHeader? (((running chainTile).settled 0 0).rowAt 0).seen with | some h => chainOk ((running chainTile).settled 0 0).nma h 0 0 1 | none => false) =
      true := by refine ⟨?_, ?_⟩ <;> decide +kernel

/-- A DSM of one step, in its close stage. -/
def dsmOp : DsmOp := { dot := false, k := 1, rowsA := [0], rowsB := [1], dst := 8, qs := List.replicate 8 257, issued := 0, seq := 0, bundle := 0 }
def dsmState : State := at_ { tile0 with nma := { tile0.nma with closes := [dsmOp] } } 31

theorem wit_DsmResults : dsmState.dev.groupOf 0 = some 0 ∧ (dsmState.dev.tile 0).wf = true ∧ (dsmState.dev.tile 0).nma.closes = [dsmOp] ∧
    dsmOp.issued + dsmOp.k + 30 ≤ (dsmState.sees 0 0).pipe ∧ dsmOp.written = 0 ∧ dsmOp.fetch.todo = [] ∧ (dsmState.dev.tile 0).reads = [] := by
  refine ⟨?_, ?_, ?_, ?_, ?_, ?_, ?_⟩ <;> decide +kernel

/-- An integer MMA of one block step, which has left its occupancy. -/
def mmaOp : NmaOp := { kind := .mma .mxint8 true true 0 128 1 0 0 none, issued := 0, occupancy := 32, latency := 56, seq := 0, bundle := 0 }
def mmaState : State := marking { tile0 with nma := { tile0.nma with tails := [mmaOp] } } 55

theorem wit_IntegerMmaResults : mmaState.turning 0 0 ∧ (mmaState.settled 0 0).flights = [] ∧ (mmaState.settled 0 0).tu.op = none ∧
    (mmaState.settled 0 0).nma.dsm = none ∧ (mmaState.settled 0 0).nma.op = none ∧ (mmaState.settled 0 0).nma.tails = [mmaOp] ∧
    (mmaState.settled 0 0).nma.closes = [] ∧ mmaOp.steps < 1 ∧ mmaOp.issued + 32 * (mmaOp.steps + 1) + (mmaOp.latency - mmaOp.occupancy) = (mmaState.sees 0 0).pipe + 1 := by
  refine ⟨?_, ?_, ?_, ?_, ?_, ?_, ?_, ?_, ?_⟩ <;> decide +kernel

/-- The same of FP32 accumulators. -/
def mmaFp : NmaOp := { mmaOp with kind := .mma .mxfp8 false true 0 128 1 0 0 none }
theorem wit_IntegerMmaResults_fp : (marking { tile0 with nma := { tile0.nma with tails := [mmaFp] } } 55).turning 0 0 ∧
    ((marking { tile0 with nma := { tile0.nma with tails := [mmaFp] } } 55).settled 0 0).nma.tails = [mmaFp] := by
  refine ⟨?_, ?_⟩ <;> decide +kernel
theorem wit_IntegerMmaResults_block : (∀ v ∈ [0x3F800000], (fp32.decode v).isNan = false) ∧ taken 0 = 0 ∧ taken 0x3F800000 ≠ 0 := by
  have zero : fp32.decode 0 = .num false 0 0 := by decide
  have one : fp32.decode 0x3F800000 = .num false 8388608 (-23) := by decide
  refine ⟨by decide, ?_, ?_⟩
  · simp [taken, zero]
  · simp [taken, one]

/-- An operation of INT32 accumulators of the small shape, all 0, in the last cycle of its occupancy. -/
def lastOf (kind : NmaKind) (cycles : Nat) (written : Nat := 0) (got : List (Nat × Row) := []) : NmaOp :=
  { kind := kind, issued := 0, occupancy := cycles, latency := cycles, seq := 0, bundle := 0, written := written, fetch := { got := got } }
def ending (op : NmaOp) : State :=
  marking { tile0 with nma := { tile0.nma with accInt := true, accSmall := true, op := some op } } (op.occupancy - 1)
def spillOp : NmaOp := lastOf (.spill true 64) 52 (2 ^ 288 - 1)
def mepiOp : NmaOp := lastOf (.epilogue 0 .int2 false 8186 0 none none 0 0 0 0 0 1) 100
/-- The header of a chain 0 of block-row 0. -/
def mchrOp : NmaOp := lastOf (.receive 70 0 0 1) 24 0 [(70, { data := BitVec.ofNat 4608 (0x4E484343 + 3 * 2 ^ 64 + 2 ^ 88) })]
theorem wit_IntegerMmaResults_ends : (ending spillOp).arrayEnds 0 0 spillOp ∧ (ending (lastOf (.resume true true 64 0) 52)).arrayEnds 0 0 (lastOf (.resume true true 64 0) 52) ∧
    (ending mepiOp).arrayEnds 0 0 mepiOp ∧ (ending (lastOf (.send true 70 3 5 0 0 1) 20)).arrayEnds 0 0 (lastOf (.send true 70 3 5 0 0 1) 20) ∧
    (ending mchrOp).arrayEnds 0 0 mchrOp := by
  refine ⟨?_, ?_, ?_, ?_, ?_⟩ <;> decide +kernel
theorem wit_IntegerMmaResults_chain : (chainHeader? (mchrOp.fetch.seen 70)).any (fun h => chainOk ((ending mchrOp).settled 0 0).nma h 0 0 1) = true ∧
    0 + 1 ≤ blockRows ((ending mchrOp).settled 0 0).nma.accSmall := by refine ⟨?_, ?_⟩ <;> decide +kernel
theorem wit_IntegerMmaResults_mepi : mepiOp.nearlyOut ((ending mepiOp).settled 0 0) 8186 (epiRows 0 .int2 ((ending mepiOp).settled 0 0).nma.accSmall) 1 := by
  refine ⟨fun c _ h => by simp [mepiOp, lastOf] at h, ?_⟩
  decide +kernel
theorem packNat_zero (w n : Nat) : packNat w (fun _ => 0) n = 0 := by
  induction n with
  | zero => rfl
  | succ n ih => simp [packNat, ih]
theorem wit_IntegerMmaResults_spill : spillOp.nearlyOut ((ending spillOp).settled 0 0) 64 288 1 := by
  refine ⟨fun c hc _ => ?_, ?_⟩
  · have h : ∀ c, c < 288 → ((ending spillOp).settled 0 0).rowAt (64 + c) = {} := by decide +kernel
    have m : ((ending spillOp).settled 0 0).nma = { tile0.nma with accInt := true, accSmall := true, op := some spillOp } := by decide +kernel
    have z : ∀ n, Store.read (fun _ => 0#32) tile0.nma.acc n = 0#32 := fun _ => rfl
    have w : wideRows true = 288 := rfl
    rw [h c hc, m]
    simp [NmaOp.rowsOut, spillOp, lastOf, spillOut, List.getD, hc, plainRow, packNat_zero, w, spillValue, accAt, z]
  · decide +kernel

/- Command packets. -/

/-- The packet with opcode n and fields (byte, value). -/
def cmd (n : Nat) (fs : List (Nat × Nat) := []) : Packet :=
  { sq := 0, bits := BitVec.ofNat 512 (n + (fs.map (fun p => p.2 * 2 ^ (8 * p.1))).sum) }
def fetched (c : Packet) : Fetched := { packet := c, head := 1, cq := 0 }

/-- Device d in state st, with packet c fetched. -/
def offered (d : Dev) (st : DevState) (c : Packet) : State :=
  { dev := { d with run := { d.run with state := st }, host := { d.host with fetched := [fetched c] } } }

def commandsOk (d : Dev) (st : DevState) (c : Packet) (param reply : Option Nat) (inline : Nat) : Bool :=
  decide ((offered d st c).commands c (fetched c) c.opcode param reply inline)

/-- An image of one tile and one stage; a device that holds it. -/
def image0 : Image :=
  { tileMask := 1, debug := true, poisonHalt := false, overflowHalt := false, skip := false, period := 200000, securityVersion := 0, measurement := []
    keysets := List.replicate 64 0, membership := 0 :: List.replicate 63 0xFF, groups := [{ group := 0, priority := 0, waitLimit := 0, rota := [0] }]
    stages := [{ group := 0, entries := [{ tile := 0, entry := 0, refs := [0xFF, 0xFF, 0xFF, 0xFF] }], planLen := 197952, halo := 0, outputs := []
                 uncore := [0, 0, 0, 0], classes := [(0, [0, 0, 0, 0])] }]
    regions := [{ far := false, length := 113, base := 0 }], segments := 0xFF :: List.replicate 63 0, baseUncore := 0, planPeak := 0 }
def loaded : Dev :=
  let d : Dev := {}
  { d with run := { d.run with image := some image0 }, tiles := d.tiles.set 0 tile0, groups := d.groups.set 0 { members := [0], rota := [0] } }
def fresh : Dev := {}

theorem wit_CommandsTurnedAway : (Instr.start (cmd 0x20)).packet? = some (cmd 0x20, 0x20) ∧ accepts 0x20 .ready = false ∧
    (offered fresh .ready (cmd 0x20)).dev.host.nextCmd = some (fetched (cmd 0x20)) ∧ field (cmd 0x20 [(2, 1)]).bits.toNat 10 22 ≠ 0 := by
  refine ⟨?_, ?_, ?_, ?_⟩ <;> decide +kernel

theorem wit_CompletionRecords : ∃ d : Dev, (d.ring 0).cqEnable = true ∧ (d.ring 0).fails ≠ some 0 ∧ noDetail.length = 20 :=
  ⟨{ fresh with host := { fresh.host with rings := fresh.host.rings.set 0 { cqEnable := true } } }, by decide +kernel, by decide +kernel, by decide +kernel⟩

theorem wit_InformationCommands : commandsOk fresh .ready (cmd 0x01 [(20, 128)]) none (some 128) 0 = true ∧
    commandsOk fresh .ready (cmd 0x02 [(20, 256)]) none (some 256) 0 = true ∧ commandsOk fresh .ready (cmd 0x50 [(20, 32), (36, 1)]) none (some 32) (inlBytes 0 6) = true ∧
    commandsOk fresh .ready (cmd 0x51) none none 0 = true ∧ commandsOk loaded .loaded (cmd 0x42 [(32, 1)]) none none 1 = true := by
  refine ⟨?_, ?_, ?_, ?_, ?_⟩ <;> decide +kernel

/-- DUMP_STATE of the common block of tile 0. -/
def dumpBlock : List Byte := List.replicate 64 0
theorem wit_InformationCommands_dump : commandsOk loaded .halted (cmd 0x41 [(16, 64), (20, 4096)]) (some 64) (some 0) 0 = true ∧ image0.debug = true ∧
    image0.tileMask.getLsbD (byteAt dumpBlock 0) = true := by
  refine ⟨?_, ?_, ?_⟩ <;> decide +kernel

/-- A command with ACK = 1, which frees an entry as it completes, and no stream that waits for it. -/
theorem wit_CompletionRecords_freed : (fetched (cmd 0x20 [(1, 1)])).packet.ack = true ∧ ∀ n, (fresh.stream n).isOpen = false := by
  refine ⟨?_, ?_⟩ <;> decide +kernel

theorem wit_RunAndAbortCommands : loaded.keysResident image0 = true ∧ image0.peak ≤ loaded.power.budget ∧ commandsOk loaded .loaded (cmd 0x20) none none 0 = true ∧
    commandsOk { loaded with run := { loaded.run with resumable := true } } .loaded (cmd 0x23) none none 0 = true ∧
    commandsOk loaded .loaded (cmd 0x40 [(36, 5)]) none none (inlBytes 0 1 + inlBytes 4 8) = true ∧ loaded.countOk 0 5 0 = true := by
  refine ⟨?_, ?_, ?_, ?_, ?_, ?_⟩ <;> decide +kernel
theorem wit_RunAndAbortCommands_stop : commandsOk loaded .running (cmd 0x21) none none 0 = true ∧ commandsOk loaded .stopping (cmd 0x21) none none 0 = true ∧
    commandsOk loaded .running (cmd 0x22) none none 0 = true ∧ loaded.inImage 0 = true := by
  refine ⟨?_, ?_, ?_, ?_⟩ <;> decide +kernel

/-- A device in a run whose tile 0 has still to land an element from the near tier, and one that has none; a fault and an FLR find the same. -/
def landing : Dev :=
  let job : DmaJob := { index := 0, bits := desc0, cursor := 1, xfers := [{ src := .near 0, dst := .scratch 0 8, ordinal := 0, off := 0, len := 576 }] }
  { loaded with run := { loaded.run with state := .running }, tiles := loaded.tiles.set 0 { tile0 with dma := { tile0.dma with queues := tile0.dma.queues.set 0 [job] } } }
def aborting (d : Dev) : Dev :=
  (((offered d .running (cmd 0x22)).taken (fetched (cmd 0x22))).becomePending (fetched (cmd 0x22)) (.abort 0 0)).stopTiles .abort
theorem wit_RunAndAbortCommands_lands : (aborting landing).stillLands = true ∧ (aborting loaded).stillLands = false ∧ landing.run.ending = none ∧
    landing.run.going = true ∧ ((landing.enter .faulted 0).stopTiles (.fault .channel 3)).stillLands = true ∧
    ((loaded.enter .faulted 0).stopTiles (.fault .channel 3)).stillLands = false ∧ (landing.stopTiles (.flr .running)).stillLands = true ∧
    landing.pins.tripped = false ∧ ({ loaded.run with ending := some Ending.abort } : Run).ending ≠ none := by
  refine ⟨?_, ?_, ?_, ?_, ?_, ?_, ?_, ?_, ?_⟩ <;> decide +kernel

/-- An image of one tile, one bundle of NOPs and one stage, as R254 to R263 and R378 lay it out. -/
def imageBits : Nat :=
  ([(0, 0x524E5653), (4, 1), (8, 1024), (16, 1), (24, 64), (25, 17), (26, 1024), (28, 32768), (30, 256), (32, 65536), (36, 1),
    (48, 256), (52, 32), (64, 320), (68, 16), (128, 384), (132, 344), (144, 768), (148, 36), (160, 832), (164, 112), (176, 960), (180, 64),
    (258, 1), (641, 2 ^ 504 - 1), (722, 0xFFFFFFFF), (768, 1), (772, 1), (832, 200000), (837, 1), (838, 1), (853, 1), (928, 197952), (960, 0xFF)] :
    List (Nat × Nat)).foldl (fun x p => x + p.2 * 2 ^ (8 * p.1)) 0
def imageBytes : List Byte := leBytes 1024 imageBits
def loadBlock : List Byte := leBytes 16 (1024 * 2 ^ 64)

theorem wit_ImageCommands_block : commandsOk fresh .ready (cmd 0x10 [(16, 16)]) (some 16) none 0 = true ∧ loadBlockOk (some loadBlock) 16 = true ∧
    (loadLen (leNat loadBlock) + 65087) / 65088 ≤ fresh.freeKeyPages ∧ loadLen (leNat loadBlock) = 1024 ∧ imageBytes.length = 1024 := by
  refine ⟨?_, ?_, ?_, ?_, ?_⟩ <;> decide +kernel
theorem wit_ImageCommands_image : leNat imageBytes = imageBits ∧ secLen imageBits 10 = 0 ∧ fresh.imageSignature imageBytes imageBits = true := by
  refine ⟨?_, ?_, ?_⟩ <;> decide +kernel
theorem wit_ImageCommands_checks : (match fresh.checkImage imageBits 1024 (leNat loadBlock) [] with
    | .ok l => decide (l.image.planPeak ≤ fresh.power.budget) | .error _ => false) = true := by decide +kernel
theorem wit_ImageCommands_unload : commandsOk loaded .loaded (cmd 0x11) none none 0 = true := by decide +kernel
/-- An owner whose policy asks for a signature, which that image has not. -/
theorem wit_ImageCommands_signature : ({ fresh with sec := { fresh.sec with owner := some { format := 1, policy := 1, keys := [some (1, 2)] } } } : Dev).imageSignature
    imageBytes imageBits = false := by decide +kernel


/-- Device d with one pending command. -/
def withJob (d : Dev) (k : JobKind) : Dev := { d with host := { d.host with jobs := [{ kind := k, cmd := fetched (cmd 0) }] } }

/-- The test of channel 0, page 0, pattern 2. -/
def testBlock : List Byte := leBytes 64 (1 + 2 * 2 ^ 256 + 2 ^ 320)

theorem wit_MemoryCommands : commandsOk fresh .ready (cmd 0x24 [(36, 200000)]) none none (3 + inlBytes 4 4) = true ∧
    commandsOk fresh .ready (cmd 0x61 [(32, 9), (44, 8192)]) none none (inlBytes 0 8 + 2 ^ 64 + inlBytes 12 4) = true ∧
    commandsOk fresh .ready (cmd 0x61 [(32, 9), (44, 4096)]) none none (inlBytes 0 8 + 2 ^ 64 + inlBytes 12 4) = true ∧ fresh.nearCopies = false ∧
    commandsOk fresh .ready (cmd 0x60 [(16, 64)]) (some 64) none 0 = true ∧ testBlockOk testBlock = true ∧
    (withJob fresh (.channelTest 1 2 0 1 0)).host.jobs ≠ [] ∧ commandsOk fresh .ready (cmd 0x15 [(36, 7)]) none none (inlBytes 0 2 + inlBytes 4 4) = true ∧
    commandsOk { fresh with mem := { fresh.mem with farUnits := [1] } } .ready (cmd 0x15 [(32, 1)]) none none (inlBytes 0 2 + inlBytes 4 4) = true := by
  refine ⟨?_, ?_, ?_, ?_, ?_, ?_, ?_, ?_, ?_⟩ <;> decide +kernel

/-- Pattern 1 in channel 0 over pages 0 to 3 meets an uncorrectable codeword. -/
theorem wit_MemoryCommands_ue : destructive 1 = false ∧ destructive 2 = true ∧ (withJob fresh (.channelTest 1 1 0 4 0)).host.jobs.length = 1 ∧
    (1 : BitVec 256).getLsbD (pageChannel (40960 * 0 + 2)) = true ∧ pageLocal 2 = 2 ∧ fresh.mem.retiredNear = [] ∧ fresh.mem.wf = true := by
  refine ⟨?_, ?_, ?_, ?_, ?_, ?_, ?_⟩ <;> decide +kernel
/-- The one retired page lies in the range. -/
theorem wit_MemoryCommands_retired : ({ fresh.mem with retiredNear := [2] } : Mem).retiredNear = [2] ∧ pageChannel 2 = 0 := by
  refine ⟨?_, ?_⟩ <;> decide +kernel

/-- An input stream over region 0 with two slots, period 1. -/
def openPacket : Packet := cmd 0x30 [(40, 1), (44, 2), (46, 1), (54, 0xFF)]
def ringed (d : Dev) : Dev := { d with host := { d.host with rings := d.host.rings.set 0 { cqEnable := true } } }
def streaming (x : Stream) : Dev := (ringed loaded).setStream 0 x

theorem wit_StreamCommands : commandsOk (ringed loaded) .loaded openPacket none none (inlBytes 0 23) = true ∧ openRanges openPacket = true ∧
    ((offered (ringed loaded) .loaded openPacket).taken (fetched openPacket)).openOk openPacket = true ∧ (ringed loaded).closing 0 = false ∧
    commandsOk (streaming { isOpen := true }) .loaded (cmd 0x31) none none (inlBytes 0 1) = true := by
  refine ⟨?_, ?_, ?_, ?_, ?_⟩ <;> decide +kernel
theorem wit_StreamCommands_full :
    (let d := { streaming { isOpen := true, backlog := [{ batch := 0, flags := 0, slot := 0, tick := 0, current := true }] } with
       host := { (streaming { isOpen := true, backlog := [{ batch := 0, flags := 0, slot := 0, tick := 0, current := true }] }).host with
         rings := fresh.host.rings.set 0 { cqEnable := true, used := 16 } } }
     commandsOk d .loaded (cmd 0x31) none none (inlBytes 0 1) && (d.ring (d.stream 0).cq).room == 0) = true := by decide +kernel

/-- One limb prime 2^30 + 2^19 + 1 of degree 2^12, DNUM 1 and one key. -/
def bindBlock : List Byte :=
  leBytes 112 (1 + 2 ^ 32 + 7 * 2 ^ 128 + 2 ^ 160 + 12 * 2 ^ 168 + 2 ^ 176 + 23166573632552961 * 2 ^ 256 + 697791363 * 2 ^ 320 + 2 ^ 384 + 2 ^ 416)

theorem placeRun_finds (busy : List (Nat × Nat)) (lo hi n free : Nat)
    (h : ((lo :: busy.map (fun b => b.1 + b.2)).find? (fun y => runFits busy lo hi n y)).isSome = true) : ∃ x, placeRun busy lo hi n free = some x := by
  unfold placeRun
  simp only
  split
  · exact ⟨_, rfl⟩
  · exact Option.isSome_iff_exists.mp h

theorem placeRuns_one (lo hi n free : Nat) (busy : List (Nat × Nat))
    (h : ((lo :: busy.map (fun b => b.1 + b.2)).find? (fun y => runFits busy lo hi n y)).isSome = true) : ∃ xs, placeRuns lo hi free busy [n] = some xs := by
  obtain ⟨x, hx⟩ := placeRun_finds busy lo hi n free h
  exact ⟨[x], by simp [placeRuns, hx]⟩

theorem wit_KeyCommands_bind : commandsOk fresh .ready (cmd 0x12 [(16, 112)]) (some 112) none 0 = true ∧ bindLen bindBlock = 112 ∧ bindSigned bindBlock = false ∧
    tableFails bindBlock (bindTable bindBlock) = none ∧ fresh.dirCheck bindBlock (bindTable bindBlock) = none := by
  refine ⟨?_, ?_, ?_, ?_, ?_⟩ <;> decide +kernel
theorem wit_KeyCommands_space : ∃ places, fresh.bindSpace bindBlock (bindTable bindBlock) = some places := by
  have h : bindDigits bindBlock = 1 := by decide +kernel
  have h2 : ¬ 65536 < fresh.keys.used + fresh.pendingDigits + bindDigits bindBlock := by decide +kernel
  have h3 : (bindTable bindBlock).runPages = 1 := by decide +kernel
  unfold Dev.bindSpace
  rw [if_neg h2, h, h3]
  exact placeRuns_one _ _ _ _ _ (by decide +kernel)

/-- A block that says it is signed, on a module that has no owner record. -/
def signedBlock : List Byte := leBytes 216 (leNat bindBlock + 4 * 2 ^ 8)
theorem wit_KeyCommands_signed : commandsOk fresh .ready (cmd 0x12 [(16, 216)]) (some 216) none 0 = true ∧ bindSigned signedBlock = true ∧ bindLen signedBlock = 216 ∧
    fresh.pke.session = none ∧ sectionVerifies fresh.sec.owner (signedBlock.drop 112) (signedBlock.take 112) = false := by
  refine ⟨?_, ?_, ?_, ?_, ?_⟩ <;> decide +kernel

/-- The device in READY with its tick running. -/
def withTick (d : Dev) : Dev := { d with tick := { d.tick with running := true }, run := { d.run with state := .ready } }

/-- The one page of that key's run, of which only the header words count. -/
def keyPage : List Byte := leBytes 16 (0x31504B48 + 7 * 2 ^ 32 + 2 ^ 64 + 2 ^ 80 + 2 ^ 96)
def keyDir : List (BitVec 4 × BitVec 18 × BitVec 4 × BitVec 256 × Nat) := [(1, 1, 0, 0, 8388608)]

theorem wit_KeyCommands_copy : keyDir.length * (bindTable bindBlock).runPages = 1 ∧ pageFails (bindTable bindBlock) 1 1 1 0 (some keyPage) = 0 ∧
    Store.wf (fun _ => none) fresh.keys.krt = true ∧ fresh.keys.used + keyDir.length ≤ 65536 ∧ fresh.mem.wf = true ∧ (bindTable bindBlock).logN = 12 ∧
    linearPhys 8388608 ∉ fresh.mem.retiredNear ∧ (withJob fresh (.bind 7 false (bindTable bindBlock) 1 keyDir [])).host.jobs.map (·.begun) = [[]] ∧
    fresh.held = [] ∧ (∀ n, n < 256 → fresh.linkHeld [4 + n / 64] = false) := by
  refine ⟨?_, ?_, ?_, ?_, ?_, ?_, ?_, ?_, ?_, ?_⟩ <;> decide +kernel

theorem wit_KeyCommands_window : (withTick fresh).quietWindow = true ∧ (withTick fresh).power.short = false ∧
    (∀ n, n < 256 → (withTick fresh).refreshing n = false) ∧ (withTick fresh).running = false ∧ (withTick fresh).mem.farDown = 0 := by
  refine ⟨?_, ?_, ?_, ?_, ?_⟩ <;> decide +kernel

/-- A device with that key set bound, its key in the far tier. -/
def keyEntry : KrtEntry := { keyset := 7, kind := 1, galois := 1, digit := 0, valid := true, far := true, channel := 0, page := 3, pages := 1, seed := 5 }
def bound : Dev := { fresh with keys := { fresh.keys with krt := [(0, some keyEntry)], bound := [{ table := bindTable bindBlock, dnum := 1 }] } }

theorem wit_KeyCommands_others : commandsOk bound .ready (cmd 0x13 [(32, 7)]) none none (inlBytes 0 4) = true ∧ bound.keysetBusy 7 = false ∧
    (bound.keys.set? 7).isSome = true ∧ commandsOk bound .ready (cmd 0x14 [(32, 7), (36, 2)]) none none (inlBytes 0 7 + inlBytes 8 4) = true ∧
    (bound.stageNamed (cmd 0x14 [(32, 7), (36, 2)])).filter (fun e => e.2.far != false) = [(0, keyEntry)] := by
  refine ⟨?_, ?_, ?_, ?_, ?_⟩ <;> decide +kernel
theorem wit_KeyCommands_one : commandsOk bound .ready (cmd 0x14 [(32, 7), (37, 1), (38, 255)]) none none (inlBytes 0 7 + inlBytes 8 4) = true ∧
    (let c := cmd 0x14 [(32, 7), (37, 1), (38, 255)]; c.inl 4 1 = 0 ∧ c.inl 5 1 = 1 ∧ c.inl 6 1 = 255 ∧ c.inl 8 4 < 2 ^ 18) := by
  refine ⟨?_, ?_⟩ <;> decide +kernel
theorem wit_KeyCommands_stage : ∃ places, placeRuns (bound.keySpace false).1 (bound.keySpace false).2 bound.freeValue (bound.busyRuns false) [1] = some places :=
  placeRuns_one _ _ _ _ _ (by decide +kernel)

/-- Module 0 with module 1 on port 0. -/
def peerBlock : List Byte := leBytes 32 (1 + 3 * 2 ^ 8 + (1 + 0xFFFFFF * 2 ^ 8) * 2 ^ 16 + 0x0F0F0F0F0F0F000F * 2 ^ 48)
def peerOff : List Byte := leBytes 32 (1 * 2 ^ 8 + 0xFFFFFFFF * 2 ^ 16 + 0x0F0F0F0F0F0F0F0F * 2 ^ 48)
/-- INT32_ADD over module 0 alone, die 0, one shard of one sector, areas in region 0. -/
def planBlock : List Byte :=
  leBytes 96 (2 * 2 ^ 8 + 2 ^ 16 + 2 ^ 24 + 2 ^ 32 + 2 ^ 112 + 4096 * 2 ^ 128 + 2 * 2 ^ 160 + 4 * 2 ^ 288 + 8 * 2 ^ 352 + 16 * 2 ^ 416 + 32 * 2 ^ 480 +
    (2 ^ 32 + 100 * 2 ^ 96 + 0xFEFEFEFEFEFEFEFF * 2 ^ 192) * 2 ^ 512)

theorem wit_PeerAndSanitizeCommands : commandsOk fresh .ready (cmd 0x80 [(16, 32)]) (some 32) none 0 = true ∧ peerBlockOk peerBlock = true ∧
    (peerCfgOf peerBlock).ok 0 = true ∧ (peerCfgOf peerBlock).enable ≠ 0 ∧ peerBlockOk peerOff = true ∧ (peerCfgOf peerOff).ok 0 = true ∧
    (peerCfgOf peerOff).enable = 0 ∧ commandsOk loaded .loaded (cmd 0x81 [(16, 96)]) (some 96) none 0 = true ∧ planBlockOk planBlock = true ∧
    loaded.planOk image0 planBlock = true ∧ commandsOk loaded .loaded (cmd 0x73 [(32, 1)]) none none 1 = true := by
  refine ⟨?_, ?_, ?_, ?_, ?_, ?_, ?_, ?_, ?_, ?_, ?_⟩ <;> decide +kernel

/-- SANITIZE under way for a host that waits, and for none; a mark of this Nucleus cycle in REDUCE_STATUS0. -/
def sanitizing (d : Dev) : Dev := { d with run := { d.run with state := .sanitizing }, flash := { d.flash with sanitize := some true } }
theorem wit_PeerAndSanitizeCommands_end : (sanitizing fresh).run.state = .sanitizing ∧ (sanitizing fresh).flash.sanitize = some true ∧
    (sanitizing fresh).host.jobs = [] ∧ (sanitizing (withJob fresh (.sanitize true false))).host.jobs.map (·.kind) = [.sanitize true false] ∧
    (sanitizing fresh).pins.faultCause = 0 ∧ ({ (sanitizing fresh).pins with faultCause := 3 } : Pins).faultCause ≠ 0 := by
  refine ⟨?_, ?_, ?_, ?_, ?_, ?_⟩ <;> decide +kernel
theorem wit_PeerAndSanitizeCommands_marked : sameNucleus 0 0 = true ∧ (BitVec.ofNat 32 0x10008 : Word).getLsbD 3 = true ∧
    (BitVec.ofNat 32 0x10008 : Word).getLsbD 16 = true := by
  refine ⟨?_, ?_, ?_⟩ <;> decide +kernel

/- The big-number engine: a 256-bit session, A in slot 0, B in slot 1, M in slot 4. -/

def session (mem : Sparse Nat) : Dev := { fresh with pke := { fresh.pke with owner := .host, session := some 0, mem := mem } }
/-- The block of an operation with A, B, C, M and D at slots 0, 1, 3, 4 and 5 where it uses them. -/
def pkeBlock (op b c m d : Nat) (len : Nat := 16) : List Byte := leBytes len (op + b * 2 ^ 16 + c * 2 ^ 24 + m * 2 ^ 32 + d * 2 ^ 40)

/-- Entries of one Nucleus cycle stand in ascending SOURCE with one timestamp (R427); firmware's stands at its place. -/
theorem test_log_order : (let d : Dev := { tick := { running := true } }
    let e := ((d.event 5 evTickInLost []).event 3 evTickInLost []).event srcFirmware evFlrDone []
    (e.log.entries.map (·.source.toNat), e.log.next) = ([3, 5, srcFirmware], 3)) := by decide +kernel

theorem wit_PkeSessions : commandsOk fresh .ready (cmd 0x70) none none (inlBytes 0 1) = true ∧ pkeShape 0 = some (256, 64, 256) ∧
    commandsOk (session []) .ready (cmd 0x72) none none 0 = true ∧ ({ session [] with pke := { (session []).pke with work := true } } : Dev).pke.work = true := by
  refine ⟨?_, ?_, ?_, ?_⟩ <;> decide +kernel

theorem wit_PkeArithmetic : commandsOk (session [(0, 3), (1, 5), (4, 7)]) .ready (cmd 0x71 [(16, 16)]) (some 16) (some 0) 0 = true ∧
    commandsOk (session []) .ready (cmd 0x71 [(16, 48)]) (some 48) (some 0) 0 = true ∧ Store.wf pkeDefault [(0, 3), (1, 5), (4, 7)] = true ∧
    pkeBlockOk (pkeBlock 0x01 0 0 0 5 48) 0 = true ∧ pkeBlockOk (pkeBlock 0x02 0 0 0 0) 0 = true ∧ pkeBlockOk (pkeBlock 0x03 0 0 0 5) 0 = true ∧
    pkeBlockOk (pkeBlock 0x04 0 0 0 5) 0 = true ∧ ([0x10, 0x11, 0x12, 0x13, 0x15].all (fun op => pkeBlockOk (pkeBlock op 1 0 4 5) 0)) = true ∧
    pkeBlockOk (pkeBlock 0x14 0 0 4 5) 0 = true ∧ Nat.gcd 3 7 = 1 ∧
    ([0x02, 0x03, 0x04, 0x20].all (fun op => pkeFieldsOk (pkeBlock op 0 0 0 (if op == 0x02 then 0 else 5)))) = true ∧
    ([0x10, 0x11, 0x12, 0x13, 0x15].all (fun op => pkeFieldsOk (pkeBlock op 1 0 4 5))) = true ∧ pkeFieldsOk (pkeBlock 0x14 0 0 4 5) = true ∧
    pkeFieldsOk (pkeBlock 0x01 0 0 0 5 48) = true ∧ pkeFieldsOk (pkeBlock 0x24 1 3 0 0) = true ∧ pkeFieldsOk (pkeBlock 0x21 1 0 0 5) = true := by
  refine ⟨?_, ?_, ?_, ?_, ?_, ?_, ?_, ?_, ?_, ?_, ?_, ?_, ?_, ?_, ?_, ?_⟩ <;> decide +kernel

theorem wit_PkeCurves : ([0x20].all (fun op => pkeBlockOk (pkeBlock op 0 0 0 5) 0)) = true ∧ pkeBlockOk (pkeBlock 0x21 1 0 0 5) 0 = true ∧
    pkeBlockOk (pkeBlock 0x22 1 0 0 5) 0 = true ∧ pkeBlockOk (pkeBlock 0x23 1 0 0 5) 0 = true ∧ pkeBlockOk (pkeBlock 0x24 1 3 0 0) 0 = true ∧
    ((pkeCurve 0).on (pkeCurve 0).gx (pkeCurve 0).gy && ((pkeCurve 0).gx, (pkeCurve 0).gy) != (0, 0)) = true ∧ 1 < (pkeCurve 0).n := by
  refine ⟨?_, ?_, ?_, ?_, ?_, ?_, ?_⟩ <;> decide +kernel

/-- A fault inside an operation: 3 + 5 mod 7 is 1; the flip of a low bit leaves a value below 7, that of bit 3 does not. -/
theorem wit_PkeArithmetic_faults : (3 + 5) % 7 ^^^ 2 < 7 ∧ ¬ (3 + 5) % 7 ^^^ 8 < 7 := by decide
theorem wit_SpdmResponses_failed : ({ drbg := 2 } : Sec).drbg ≠ 1 ∧ ({ drbg := 1 } : Sec).drbg = 1 ∧
    ({} : Sec).requests + 1 < 1048576 ∧ ¬ ({ requests := 1048575 } : Sec).requests + 1 < 1048576 := by decide
theorem wit_SpdmResponses : ∃ x : Sec, x.fwRunning = true ∧ x.spdmVersion = true ∧ x.spdmCaps = true ∧ x.spdmAlgs = true ∧ x.chunkOut ≠ [] ∧ x.drbg = 1 :=
  ⟨{ drbg := 1, fwRunning := true, spdmVersion := true, spdmCaps := true, spdmAlgs := true, chunkOut := [0] }, by decide⟩


/- The tick and the lock groups. -/

/-- The device with an image, running, with its tick so. -/
def ticking (k : Tick) (r : Run := {}) : State :=
  { dev := { loaded with tick := { k with running := true }, run := { r with state := .running, image := some image0 } } }

theorem wit_TickEvents : (ticking { cycle := 200000 }).dev.tick.boundaryDue = true ∧ (ticking { cycle := 200000 }).dev.host.jobs = [] ∧
    (ticking { external := true, cycle := 400000 }).dev.tick.external = true ∧ 2 * 200000 ≤ 400000 := by
  refine ⟨?_, ?_, ?_, ?_⟩ <;> decide +kernel

/-- An edge while the boundary of an earlier one is set. -/
theorem wit_TickEvents_edges : (ticking { external := true, cycle := 400000, edgeAt := some 400001 }).dev.tick.edgeAt = some 400001 ∧
    (400001 : Nat) < 400000 + 4 ∧ (ticking { external := true, cycle := 400000, edgeAt := some 400001 }).dev.tick.period ≤ 400000 + 4 ∧
    (ticking { external := true, cycle := 400000 }).dev.tick.edgeAt = none ∧ (ticking { external := true, cycle := 1000 }).dev.tick.period > 1000 + 5 := by
  refine ⟨?_, ?_, ?_, ?_, ?_⟩ <;> decide +kernel

def stageTick (n : Nat) : Tick := { inRun := true, cycle := n }
/-- Group 0 of one tile within a stage. -/
def grouped (t : Tile) (g : Group) (s : State) : State :=
  { s with dev := { s.dev with tiles := s.dev.tiles.set 0 t, groups := s.dev.groups.set 0 { g with members := [0], active := true } } }

theorem wit_StageAndRunEvents_start : (ticking (stageTick 2048)).dev.running = true ∧ (ticking (stageTick 2048)).dev.tick.installEnd ≤ 2048 ∧
    (ticking (stageTick 2048)).dev.host.jobs = [] ∧ (grouped tile0 {} (ticking (stageTick 2048))).dev.groupOf 0 = some 0 ∧
    image0.stages[(0 : Nat)]?.isSome = true := by
  refine ⟨?_, ?_, ?_, ?_, ?_⟩ <;> decide +kernel
/-- Group 1 skipped stage 0 of an image whose output is row 8 of tile 0. -/
def imageOut : Image := { image0 with stages := image0.stages.map (fun st => { st with outputs := [BitVec.ofNat 64 (8 + 2 ^ 46)] }) }
theorem wit_StageAndRunEvents_skipped :
    (let s := grouped { tile0 with segments := 0xFF } {} (ticking (stageTick 2048) {})
     let d := { s.dev.setGroup 1 { skipped := some 0 } with run := { s.dev.run with image := some imageOut } }
     !d.skipWaits && imageOut.stages.length == 1 && (imageOut.stages.flatMap (·.outputs)).all (fun r =>
       refSpace r == 1 && (d.tile (BitVec.ofNat 6 (refTile r))).wf && (d.tile (BitVec.ofNat 6 (refTile r))).powered (refAddr r)) &&
     !(ticking (stageTick 2048)).dev.skipWaits && allGroups.all (fun g => ((ticking (stageTick 2048)).dev.group g).skipped.isNone)) = true := by decide +kernel
/-- The first stage start of a run that a host waits for. -/
theorem wit_StageAndRunEvents_first : (withJob (ticking (stageTick 2048)).dev .start).host.jobs.map (·.kind) = [.start] ∧
    (ticking (stageTick 2048)).dev.tick.deadlineDone = false := by
  refine ⟨?_, ?_⟩ <;> decide +kernel
/-- Group 0 of one tile reaches count 0 of the run tick; group 1 has a member. -/
def counting : State :=
  let s := running { tile0 with imem := [(0, 0)] }
  { s with dev := { s.dev.setGroup 1 { members := [5], active := true, started := true } with
    run := { s.dev.run with target := some (0, s.dev.tick.runTick, 0) } } }
theorem wit_StageAndRunEvents_reached : counting.dev.groupOf 0 = some 0 ∧ (counting.dev.group 0).members = [0] ∧ counting.dev.run.haltOrder.1 = 0 ∧
    counting.dev.staged (counting.dev.group 0) = true ∧ counting.dev.frozen (counting.dev.group 0) = false ∧
    (counting.dev.group 0).issuedAt ≠ some counting.dev.tick.wall ∧ counting.dev.correctionDue (counting.dev.group 0) = false ∧
    (counting.dev.tile 0).halted = false ∧ (counting.settled 0 0).halted = false ∧ (counting.dev.group 1).members ≠ [] := by
  refine ⟨?_, ?_, ?_, ?_, ?_, ?_, ?_, ?_, ?_, ?_⟩ <;> decide +kernel
theorem wit_StageAndRunEvents_deadline : (ticking (stageTick 200000)).dev.tick.deadlineDone = false ∧
    (let s := grouped tile0 {} (ticking (stageTick 200000)); (s.dev.group 0).active = true ∧ (s.dev.group 0).ended = false) ∧
    ((grouped { tile0 with halted := true } {} (ticking (stageTick 200000))).dev.tile 0).halted = true := by
  refine ⟨?_, ?_, ?_⟩ <;> decide +kernel
theorem wit_StageAndRunEvents_count :
    (let s := grouped { tile0 with halted := true, haltReason := .countReached } { heldFrom := some 0 } (ticking { stageTick 5000 with wall := 10 } { countReached := true })
     s.dev.run.countReached && s.dev.allHeld && (s.dev.tile 0).halted && (s.dev.tile 0).haltReason == .countReached) = true := by decide +kernel
theorem wit_StageAndRunEvents_stop :
    (let s := ticking (stageTick 2048) { stopDrain := true }
     let d : Dev := { s.dev with run := { s.dev.run with state := .stopping } }
     d.running && d.run.stopDrain && d.tick.inRun && !d.tick.stageStarted && decide (d.tick.installEnd ≤ d.tick.cycle) && d.tiles.all (fun t => !t.halted) &&
       d.inImage 0 && ((d.setTile 0 { tile0 with halted := true }).tile 0).halted) = true := by decide +kernel

/-- A tile at a bundle of four NOPs. -/
def nops : State := running { tile0 with imem := [(0, 0)] }

theorem wit_GroupCycles : nops.ready 0 0 ∧ nops.dev.staged (nops.dev.group 0) = true ∧ nops.dev.frozen (nops.dev.group 0) = false ∧
    (nops.dev.group 0).issuedAt ≠ some nops.dev.tick.wall ∧ (nops.dev.group 0).members = [0] ∧ nops.dev.run.target = none ∧
    Store.read bundleDefault (nops.settled 0 0).imem (nops.settled 0 0).pc = 0 ∧ (∀ l ∈ (nops.settled 0 0).loops.toList, l.active = false) ∧
    (nops.settled 0 0).pc + 1 < 16384 := by
  refine ⟨?_, ?_, ?_, ?_, ?_, ?_, ?_, ?_, ?_⟩ <;> decide +kernel
theorem wit_GroupCycles_turning : (marking tile0 7).turning 0 0 := by decide +kernel
theorem wit_GroupCycles_end : (∀ t ∈ ((running { tile0 with done := true }).dev.group 0).members, ((running { tile0 with done := true }).dev.tile t).done = true) := by
  decide +kernel

/-- A tile with a WAIT for one arrival of counter 0 that pends since wall cycle 0. -/
def waitTile : Tile := { tile0 with pend := [{ kind := .wait 0 1, wall := 0, bundle := 0 }] }
theorem wit_GroupCycles_waits : (running waitTile).dev.running = true ∧ (1 : BitVec 16).toNat ≤ ((running waitTile).dev.tile 0).arrival[0].toNat ∧
    (let s := grouped waitTile { waitLimit := 5 } (ticking { wall := 100 }); s.dev.groupOf 0 = some 0 ∧ (s.dev.group 0).waitLimit ≠ 0 ∧
      0 + 3 + (s.dev.group 0).waitLimit ≤ s.dev.tick.wall ∧ s.dev.running = true ∧ (s.dev.tile 0).halted = false ∧ s.dev.run.hazard = false ∧
      (s.dev.tile 0).pend.length = 1 ∧ (s.dev.tile 0).taken = [] ∧ 0 < s.dev.tick.wall) := by
  refine ⟨?_, ?_, ?_⟩ <;> decide +kernel

/-- A tile with one result in flight, due in cycle 5. -/
def landTile (d : Dest) : Tile := { tile0 with flights := [{ due := 5, issued := 0, seq := 0, dests := [d] }] }
def dests : List Dest :=
  [.v 1 [] 0, .k 1 0 0, .s 1 0, .a 1 0, .hop 1 header0 none, .hld 1 header0 0, .home 1 0, .row 8 {}, .mve 1, .clear 0 1, .pad 1 {}, .release 1]
theorem wit_ResultsLand : dests.all (fun d => (at_ (landTile d) 6).dev.groupOf 0 == some 0 && ((at_ (landTile d) 6).dev.tile 0).wf &&
    decide (5 < ((at_ (landTile d) 6).sees 0 0).pipe)) = true := by decide +kernel

def readTile (poisoned : Bool) : Tile :=
  { tile0 with reads := [{ due := 5, seq := 0, bundle := 0, slot := .v, reader := .vector, row := 0, poisoned := poisoned }] }
theorem wit_ResultsLand_rows : 5 ≤ ((at_ (readTile true) 6).dev.group 0).pipe ∧ ((at_ (readTile true) 6).dev.tile 0).halted = false ∧
    (at_ (readTile false) 6).dev.cycleOpen ((at_ (readTile false) 6).dev.group 0) = true ∧
    (at_ (readTile false) 6).dev.correctionDue ((at_ (readTile false) 6).dev.group 0) = false ∧ ((at_ (readTile true) 6).sees 0 0).poisonHalt = false ∧
    (({ at_ (readTile true) 6 with dev := { (at_ (readTile true) 6).dev with
      run := { (at_ (readTile true) 6).dev.run with image := some { image0 with poisonHalt := true } } } } : State).sees 0 0).poisonHalt = true := by
  refine ⟨?_, ?_, ?_, ?_, ?_, ?_⟩ <;> decide +kernel
/-- A corrected row that waits for its two cycles, and the row behind it. -/
def heldTile : Tile :=
  let r : RowRead := { due := 5, seq := 0, bundle := 0, slot := .v, reader := .vector, row := 0, poisoned := false }
  { tile0 with reads := [{ r with corrected := true, judged := true }, { r with row := 8 }] }
def heldState : State := { at_ heldTile 6 with dev := (at_ heldTile 6).dev.setGroup 0 { (at_ heldTile 6).dev.group 0 with eccFor := some 6 } }
theorem wit_ResultsLand_held : (heldState.dev.tile 0).reads.map (·.judged) = [true, false] ∧ (heldState.dev.tile 0).reads.all (fun r => decide (r.due ≤ 6)) = true ∧
    (heldState.dev.group 0).pipe = 6 ∧ heldState.dev.cycleOpen (heldState.dev.group 0) = true ∧ (heldState.dev.group 0).eccFor = some 6 ∧
    (heldState.dev.tile 0).halted = false := by
  refine ⟨?_, ?_, ?_, ?_, ?_, ?_⟩ <;> decide +kernel


/- Data in motion. -/

/-- Tile 0 with one descriptor at the head of queue 0, in a running state of a device whose memory holds no run. -/
def job0 : DmaJob := { index := 0, bits := desc0 }
def moving (j : DmaJob) : State := running { tile0 with dma := { tile0.dma with queues := tile0.dma.queues.set 0 [j] } }
def xfer0 (src dst : Place) (p : Option Payload) : Xfer := { src := src, dst := dst, ordinal := 0, off := 0, len := 576, data := p }
def waitsFor (src : Place) : DmaJob := { job0 with cursor := 1, xfers := [xfer0 src (.scratch 0 8) none] }
/-- The same in wall cycle 9, in which group 0 has issued. -/
def movingAt (j : DmaJob) : State :=
  let s := moving j
  { s with dev := { s.dev.setGroup 0 { s.dev.group 0 with issuedAt := some 9 } with tick := { s.dev.tick with wall := 9 } } }

theorem wit_TransfersMove_request :
    (let s := moving job0
     !s.dev.linkHeld [0, 1, 2, 3, 4, 5, 6, 7] && (s.dev.tile 0).queue 0 == [job0] && !job0.failed && !job0.stopped && s.dev.queueRuns &&
     !(s.dev.tile 0).halted && decide (0 < descTotal desc0) && job0.lastAsked == none && job0.listRead 0 && (match element desc0 job0.listData 0 with
       | .move a b => (match resolve 0 (s.dev.tile 0).dma.owners (dSrc desc0) a, resolve 0 (s.dev.tile 0).dma.owners (dDst desc0) b with
         | .ok x, .ok y => s.dev.placeError x == none && s.dev.placeError y == none
         | _, _ => false)
       | _ => false)) = true := by decide +kernel
/-- KIND 2, whose index tensor is in row 16. -/
def listJob : DmaJob := { job0 with bits := desc0 + 1 + BitVec.ofNat 512 (16 * 2 ^ 480) }
theorem wit_TransfersMove_list : listJob.listRead 0 = false ∧ (listRows listJob.bits)[listJob.listAsked.length]? = some 16 ∧
    ((moving listJob).dev.tile 0).powered 16 = true ∧ 0 < descTotal listJob.bits := by
  refine ⟨?_, ?_, ?_, ?_⟩ <;> decide +kernel
theorem wit_TransfersMove_read :
    (let s := movingAt (waitsFor (.scratch 0 0))
     (s.dev.tile 0).queue 0 == [waitsFor (.scratch 0 0)] && (waitsFor (.scratch 0 0)).listReq 0 9 == none && decide (0 + 8 ≤ s.dev.tick.wall) &&
     s.dev.portGrants ⟨0, bankOf 0, false, false, 0⟩ && !s.dev.uncovered 0 0 (.scratch 0 0) 0 && ((s.dev.tile 0).rowAt 0).poison == 0 &&
     !(s.dev.tile 0).ceRows.contains 0) = true := by decide +kernel
/-- Nine bytes of row 8, whose data has arrived and whose row is still to be read. -/
def partJob : DmaJob := { job0 with cursor := 1, xfers := [{ xfer0 (.scratch 0 0) (.scratch 0 8) (some { data := 5, poison := 0 }) with len := 9 }] }
theorem wit_TransfersMove_partial :
    (let s := movingAt partJob
     partJob.xfers.all (fun x => x.partial_) && partJob.listReq 0 9 == none && s.dev.portGrants ⟨0, bankOf 8, false, false, 0⟩ &&
     ((s.dev.tile 0).rowAt 8).poison == 0 && !(s.dev.tile 0).ceRows.contains 8) = true := by decide +kernel
theorem wit_TransfersMove_near :
    (let s := moving (waitsFor (.near 0))
     let ph := physPage 0 0
     decide ((s.dev.mem.nearKey 0) = (ph, 0)) && !s.dev.refreshing 0 && !s.dev.uncovered 0 0 (.near 0) 0 &&
     (s.dev.waitingOn (fun z => match z with | .near v => s.dev.mem.nearKey v == (ph, 0) | _ => false)).isSome) = true := by decide +kernel
theorem wit_TransfersMove_far : ((moving (waitsFor (.far 5))).dev.waitingOn (fun z => match z with | .far v => v == 5 | _ => false)).isSome = true ∧
    (moving (waitsFor (.far 5))).dev.mem.farLinkDown (5 / 113) = false ∧ (moving (waitsFor (.far 5))).dev.uncovered 0 0 (.far 5) 0 = false := by
  refine ⟨?_, ?_, ?_⟩ <;> decide +kernel
/-- The data of an element to a place, with everything requested. -/
def landJob (dst : Place) (bits : BitVec 512) : DmaJob := { job0 with bits := bits, cursor := 1, xfers := [xfer0 (.scratch 0 0) dst (some { data := 5, poison := 0 })] }
theorem wit_TransfersMove_land :
    (let s := movingAt (landJob (.scratch 0 8) desc0)
     decide (descTotal desc0 ≤ 1) && s.dev.run.stageWrites.isEmpty && !s.dev.readElsewhere 0 0 (.scratch 0 8) && refSpace (dDst desc0) != 2 && refSpace (dDst desc0) != 3 && decide (0 + 4 ≤ s.dev.tick.wall) &&
     s.dev.portGrants ⟨0, bankOf 8, true, false, 0⟩ && !(s.dev.tile 0).ringHolds 8 && (s.dev.tile 0).wf && !dNoArrival desc0) = true := by decide +kernel
def descTo (space : Nat) : BitVec 512 := desc0 + BitVec.ofNat 512 (space * 2 ^ 142)
theorem wit_TransfersMove_tiers :
    (let s := movingAt (landJob (.near 0) (descTo 2))
     refSpace (dDst (descTo 2)) == 2 && refSpace (dDst (descTo 3)) == 3 && s.dev.mem.wf && !s.dev.mem.retiredNear.contains (s.dev.mem.nearKey 0).1 &&
     !s.dev.mem.retiredFar.contains 0 && !s.dev.mem.farLinkDown 0) = true := by decide +kernel

/-- Tile 0 with a packet of one row on its way to tile 1. -/
def packetTile : Tile := { tile0 with nma := { tile0.nma with outbox := [{ tile := 1, counter := 2, row := 8, rows := [5], ready := 0 }] } }
theorem wit_PacketsAndAccumulates :
    (let d := (running packetTile).dev
     let s : State := { dev := { d with tiles := d.tiles.set 1 { tile0 with segments := 0xFF }, tick := { d.tick with wall := 9 } } }
     !s.dev.linkHeld [0, 1, 2, 3] && s.dev.portsOpen 1 && s.dev.completes ⟨1, 0, rowsFrom 8 1⟩ && (s.dev.tile 1).powered 8 && (s.dev.tile 1).wf) = true ∧
    fresh.mem.nearValid 0 = true ∧ fresh.mem.wf = true ∧ (fresh.mem.nearKey 0).1 ∉ fresh.mem.retiredNear ∧
    fresh.mustWait fresh.held (.accumulate .int32Add 0 5 0 257 {}) = false ∧ fresh.pins.tripped = false := by
  refine ⟨?_, ?_, ?_, ?_, ?_, ?_⟩ <;> decide +kernel
/-- The device whose channel of near-tier sector 0 is in a refresh slot. -/
def refreshed : Dev := { fresh with mem := fresh.mem.onChannel (pageChannel (fresh.mem.nearKey 0).1) (fun c => { c with refreshEnd := 240 }) }
theorem wit_PacketsAndAccumulates_waits : refreshed.mustWait refreshed.held (.accumulate .int32Add 0 5 0 257 {}) = true := by decide +kernel

def withMem (m : Mem) (k : Tick := { running := true }) (r : DevState := .ready) : Dev := { fresh with mem := m, tick := k, run := { fresh.run with state := r } }
def mem0 : Mem := fresh.mem

theorem wit_MemoryEvents_refresh :
    (withMem { mem0 with channels := mem0.channels.set 0 { state := 2, refreshLast := 0 } } { running := true, cycle := 200000, wall := 8000 }).refreshDue 0 = true := by
  decide +kernel
theorem wit_MemoryEvents_timers : (mem0.stackOf.set 0 { timer := true })[0].timer = true ∧
    (let d := withMem { mem0 with channels := mem0.channels.set 0 { ceSecond := 1024 } }
     1024 ≤ (d.mem.channel 0).ceSecond ∧ (d.mem.channel 0).ceLogged = false ∧ (d.mem.channel 0).ceSec = d.log.time / 80000000000000) ∧
    (withMem mem0 { running := true, number := 1 }).mem.hotJudged = false := by
  refine ⟨?_, ?_, ?_⟩ <;> decide +kernel

/-- One page of data a channel; channel 1 hot. -/
def hotMem : Mem :=
  { mem0 with keyPages := 40959, hot := 1, hotValid := true, channels := mem0.channels.set 1 { lastServed := 1600, sampledLast := [(0, 2)], samplesLast := 25 } }
theorem wit_MemoryEvents_swap : (withMem hotMem).quietWindow = true ∧ hotMem.singlePage 1 = none ∧ hotMem.leastLoaded = 0 ∧
    (withMem hotMem).transitRoom 1 226 = true ∧ (withMem hotMem).transitRoom 0 226 = true ∧ hotMem.hotPage 1 = some (0, 2) ∧
    hotMem.logical (physPage 1 0) ≠ none ∧ hotMem.logical (physPage 0 0) ≠ none ∧ hotMem.logical (physPage 1 0) ≠ hotMem.logical (physPage 0 0) ∧
    physPage 1 0 ≠ physPage 0 0 ∧ hotMem.wf = true ∧ (withMem hotMem).refreshing 0 = false ∧ (withMem hotMem).refreshing 1 = false := by
  refine ⟨?_, ?_, ?_, ?_, ?_, ?_, ?_, ?_, ?_, ?_, ?_, ?_, ?_⟩ <;> decide +kernel
theorem wit_MemoryEvents_cold (start : Nat) : hotMem.coldPage 0 start = some (physPage 0 0) := by
  have h : hotMem.dataPages = 1 := by decide +kernel
  have c : (hotMem.channel 0).sampledLast = [] := by decide +kernel
  have r : hotMem.retiredNear = [] := by decide +kernel
  simp [Mem.coldPage, h, c, r, Nat.mod_one, List.range_succ]

/-- A staging of that key to the near tier, in a run. -/
def stagingDev : Dev :=
  { withJob bound (.stage 7 false [(0, 8388608)] []) with
    run := { bound.run with state := .running }, tick := { running := true, stageStarted := true } }
theorem wit_MemoryEvents_staging : 0 < stageTotal stagingDev.keys [(0, 8388608)] ∧ (stagingDev.keys.set? 7).isSome = true ∧ stagingDev.running = true ∧
    stagingDev.nextStaged false [(0, 8388608)] [] = some (0, keyEntry, 8388608, 0) ∧
    stagingDev.mustWait stagingDev.held (.move (stageChannel false keyEntry 8388608 0) 0) = false ∧
    stagingDev.mem.farLinkDown (keyEntry.farPage 0) = false ∧ linearPhys 8388608 ∉ stagingDev.mem.retiredNear ∧ stagingDev.mem.wf = true := by
  refine ⟨?_, ?_, ?_, ?_, ?_, ?_, ?_, ?_⟩ <;> decide +kernel

/-- A ring of three slots for that key's entry 0, armed in cycle 0. -/
def ring0 : Ring :=
  { armed := true, base := 512, slots := [.empty, .empty, .empty], s := 32, period := 8, keyset := 7, logN := 12, tag := { kind := 1, galois := 1 }
    srcKeyset := 7, src := { kind := 1, galois := 1 }, entries := [0], chunks := 1 }
def streamingKeys (r : Ring) (fs : List Fill) : State :=
  let s := running { tile0 with rings := tile0.rings.set 0 r }
  { s with dev := { s.dev with keys := { bound.keys with installed := [keyEntry], ksus := bound.keys.ksus.set 0 { fills := fs } } } }

theorem wit_KeyStreamEvents_grant :
    (let d := (streamingKeys ring0 []).dev
     d.running && decide ((d.ksu 0).freeAt ≤ d.tick.wall) && (match leastSlack (d.requesters 0) with | some (.ring 0 0, _) => true | _ => false) &&
     (d.keys.locate 7 ring0.src).isSome && (d.keys.set? 7).isSome) = true := by decide +kernel
def expansion0 (started : Option Nat) : Expansion := { hdr := header0, row := 8, counter := 1, deadline := 9, started := started, entries := [(0, 257)] }
theorem wit_KeyStreamEvents_expansion :
    (let d := (running { tile0 with expands := [expansion0 none] }).dev
     match leastSlack (d.requesters 0) with | some (.expansion 0 0, _) => true | _ => false) = true := by decide +kernel

/-- A fill of the page's first and only entry, not yet checked; the far tier with the header of key set n at its page. -/
def fill0 (checked : Option Nat) : Fill := { tile := 0, ring := 0, index := 0, key := keyEntry, page := 0, prime := 257, deadline := 0, checked := checked }
def headOf (n : Nat) : Nat := 0x31504B48 + n * 2 ^ 32 + 2 ^ 64 + 2 ^ 96 + 12 * 2 ^ 152 + 5 * 2 ^ 160
def filling (n : Nat) (checked : Option Nat) (wall : Nat) : Dev :=
  let d := (streamingKeys ring0 [fill0 checked]).dev
  { d.setGroup 0 { d.group 0 with issuedAt := some wall } with
    mem := { d.mem with far := [(113 * keyEntry.farPage 0, { data := BitVec.ofNat 4608 (headOf n) })] }, tick := { d.tick with wall := wall } }
theorem wit_KeyStreamEvents_headers : ((filling 7 none 9).ksu (dieOf 0)).fills = [fill0 none] ∧ (filling 7 none 9).mustWait [] ((fill0 none).access false {}) = false ∧
    (filling 7 none 9).mustWait [] ((fill0 none).access true {}) = false ∧ (filling 7 none 9).held = [] ∧ (fill0 none).body = none ∧ (filling 7 none 9).mem.farLinkDown (keyEntry.farPage 0) = false ∧
    ((filling 7 none 9).mem.keyAt keyEntry 0 0).poison = 0 ∧ headerMatches ring0 (fill0 none) ((filling 7 none 9).mem.keyAt keyEntry 0 0).data.toNat = true ∧
    headerMatches ring0 (fill0 none) ((filling 8 none 9).mem.keyAt keyEntry 0 0).data.toNat = false := by
  refine ⟨?_, ?_, ?_, ?_, ?_, ?_, ?_, ?_, ?_⟩ <;> decide +kernel
/-- The same with all but its last row landed. -/
def lastFill (wall : Nat) : Dev :=
  let d := filling 7 (some 9) wall
  d.setKsu 0 { d.ksu 0 with fills := [{ fill0 (some 9) with landed := 2 * ring0.s }] }
theorem wit_KeyStreamEvents_fill : ((filling 7 (some 9) 40).ksu (dieOf 0)).fills = [fill0 (some 9)] ∧
    (let f := { fill0 (some 9) with landed := 2 * ring0.s }
     (lastFill 40).completes ⟨0, 9, (ring0.fillPlaces f).drop f.landed⟩ = true) ∧ ring0.s ≤ 64 := by
  refine ⟨?_, ?_, ?_⟩ <;> decide +kernel
theorem wit_KeyStreamEvents_expand :
    (let s := running { tile0 with expands := [{ expansion0 (some 0) with rows := [(8, {})] }] }
     let d := { s.dev.setGroup 0 { s.dev.group 0 with issuedAt := some 99 } with tick := { s.dev.tick with wall := 99 } }
     (d.tile 0).wf && header0.seed != BitVec.allOnes 256 && d.completes ⟨0, 0, [8]⟩) = true := by decide +kernel


/- Power, clocks, resets. -/

/-- The device with its rails on. -/
def powered : Dev := { fresh with pins := { fresh.pins with rails := railOrder, inputPower := true, perst := false } }

/-- 125 and 110 degrees trip the module, and a trip happens once; a brake in BOOT; a die whose pin is in force, and one whose pin is not yet. -/
theorem wit_PowerEvents_trips : (∃ t ∈ ([25, 125, 25, 25, 25] : List Byte), 125 ≤ t.toNat) ∧ (∀ t ∈ ([25, 124, 25, 25, 25] : List Byte), t.toNat < 125) ∧
    fresh.pins.tripped = false ∧ fresh.run.state = .boot ∧ powered.pins.tripped = false := by
  refine ⟨⟨125, ?_, ?_⟩, ?_, ?_, ?_, ?_⟩ <;> decide +kernel
def pinned (inForce : Option (BitVec 7)) : Clocks :=
  { fresh.clocks with pin := fresh.clocks.pin.set 0 true, pinCode := fresh.clocks.pinCode.set 0 9, inForce := fresh.clocks.inForce.set 0 inForce }
theorem wit_PowerEvents_pinned : (pinned none).pin.getD 0 false = true ∧ (pinned none).inForce.getD 0 none ≠ some ((pinned none).pinCode.getD 0 0) ∧
    (pinned (some 9)).inForce.getD 0 none = some ((pinned (some 9)).pinCode.getD 0 0) ∧ (pinned (some 9)).overriding.getD 0 false = false ∧
    fresh.clocks.overriding.length = 4 ∧ (BitVec.ofInt 8 (-1)).toInt < 0 := by
  refine ⟨?_, ?_, ?_, ?_, ?_, ?_⟩ <;> decide +kernel

theorem wit_PowerEvents : fresh.tick.cycle % 2000 = 0 ∧ fresh.power.evalAt ≠ some fresh.tick.wall ∧ fresh.power.brake = false ∧
    fresh.power.inputSamples.length ≤ 1000 ∧ fresh.clocks.code.length = 4 ∧ fresh.clocks.slack.length = 4 ∧ fresh.clocks.pin.getD 0 false = false ∧
    (fresh.clocks.code.getD 0 0).toNat ≤ 72 ∧ (withMem mem0).tick.running = true ∧ powered.pins.up = true := by
  refine ⟨?_, ?_, ?_, ?_, ?_, ?_, ?_, ?_, ?_, ?_⟩ <;> decide +kernel

theorem wit_FaultEvents : powered.pins.up = true ∧ ({ fresh.sec with drbg := 1 } : Sec).drbg = 1 ∧ (withMem mem0).run.state = .ready ∧
    (withMem mem0 {} .sanitizing).run.state = .sanitizing := by decide +kernel

theorem wit_ResetEvents : fresh.pins.inputPower = false ∧ powered.pins.inputPower = true ∧ fresh.pins.perst = true ∧ fresh.run.state = .boot ∧
    seen.failure = none ∧ fresh.flash.sanitize = none ∧ ({ powered with pins := { powered.pins with perst := true } } : Dev).pins.up = true ∧
    fresh.tick.running = false ∧ fresh.pins.tripped = false ∧ (withMem mem0).run.state = .ready := by decide +kernel

/- Streams, peers and reductions. -/

/-- Stream 0, of period 1 and two slots. -/
def stream1 : Stream := { isOpen := true, period := 1, slots := 2 }
def streamState (x : Stream) (k : Tick) : State :=
  { dev := { streaming x with tick := { k with inRun := true, running := true }, run := { (streaming x).run with state := .running } } }

theorem wit_StreamEvents_cycleZero : (streamState stream1 {}).dev.atCycleZero = true ∧ serialAfter 0 (BitVec.ofNat 32 0) = false ∧
    serialAfter 1 (BitVec.ofNat 32 0) = true ∧ (streamState { stream1 with output := true } { runTick := 2 }).dev.atCycleZero = true ∧
    serialAfter 0 (BitVec.ofNat 32 (2 - 2)) = false := by
  refine ⟨?_, ?_, ?_, ?_, ?_⟩ <;> decide +kernel
theorem wit_StreamEvents_queue : ((streamState stream1 {}).dev.ring 0).fails ≠ some 0 ∧ ((streamState stream1 {}).dev.ring 0).cqEnable = true := by
  refine ⟨?_, ?_⟩ <;> decide +kernel
/-- A stream that notifies, and one with a record that waits, at a queue without room. -/
theorem wit_StreamEvents_full :
    (let d := { streaming { stream1 with notify := true } with host := { (streaming { stream1 with notify := true }).host with
       rings := fresh.host.rings.set 0 { cqEnable := true, used := 16 } } }
     (d.ring 0).room == 0 && (d.ring 0).cqEnable && (d.stream 0).notify && !(d.stream 0).holds 0) = true := by decide +kernel
/-- A BAR4 write on its way to a channel whose link a replay holds, and none. -/
theorem wit_StreamEvents_doorbell :
    (let d := { (streamState stream1 {}).dev with held := [.write 0 0 [5] false {}], clocks := { (streamState stream1 {}).dev.clocks with linkHold := List.replicate 8 9 } }
     d.held.any d.onItsWay) = true ∧ (streamState stream1 {}).dev.held.any (streamState stream1 {}).dev.onItsWay = false ∧
    ((streamState stream1 {}).dev.stream 0).backlog = [] ∧ 0 < ((streamState stream1 {}).dev.ring 0).room := by
  refine ⟨?_, ?_, ?_, ?_⟩ <;> decide +kernel
theorem wit_StreamEvents_drain : (streamState stream1 { runTick := 1 }).dev.inDrain = true ∧ serialAfter (BitVec.ofNat 32 0 + 1) 0 = true ∧
    0 < ((streamState stream1 {}).dev.ring 0).room ∧ serialAfter 5 (0 + BitVec.ofNat 32 2) = true ∧ serialAfter 2 (0 + BitVec.ofNat 32 2) = false := by
  refine ⟨?_, ?_, ?_, ?_, ?_⟩ <;> decide +kernel

/-- Module 0 with port 0 in state x. -/
def ported (x : Port) : State := { dev := { fresh with peer := { fresh.peer with config := some (peerCfgOf peerBlock), ports := fresh.peer.ports.set 0 x } } }
def sent0 : SentFlit := { type := 1, seq := 4, payload := 0 }

theorem wit_PeerLinks : ((ported { state := .training }).dev.port 0).state = .training ∧ ((ported { state := .training }).dev.pins.moduleId = 0) ∧
    ((peerCfgOf peerBlock).neighbour.getD 0 0xFF).toNat = 1 ∧ (1 : BitVec 3) ≠ (ported {}).dev.pins.moduleId ∧ (2 : BitVec 3).toNat ≠ 1 := by
  refine ⟨?_, ?_, ?_, ?_, ?_⟩ <;> decide +kernel
/-- Port 0 up with a packet to send; the other ports have nothing. -/
def sendPort : Port := { state := .up, credits := 1, queue := [{ header := 0, data := 5, poison := 0, cameBy := none }] }
theorem wit_PeerLinks_alone : (ported { state := .up }).dev.portAlone 0 [] ∧ (ported sendPort).dev.portAlone 0 sendPort.queue ∧
    (ported { state := .training }).dev.portAlone 0 [] ∧ (ported { sendPort with state := .training }).dev.portAlone 0 sendPort.queue ∧
    sendPort.queue.map (·.cameBy) = [none] ∧ sendPort.replay.length ≤ 509 := by
  unfold Dev.portAlone
  refine ⟨?_, ?_, ?_, ?_, ?_, ?_⟩ <;> decide +kernel
theorem wit_PeerLinks_config : (withJob (ported { state := .training, wasUp := true }).dev .peerConfig).host.fetched = [] ∧
    (((withJob (ported { state := .training, wasUp := true }).dev .peerConfig).setPort 0 { state := .up, wasUp := true }).portsUp) = true := by
  refine ⟨?_, ?_⟩ <;> decide +kernel
theorem wit_PeerLinks_up : ((ported { state := .up, replay := [sent0] }).dev.port 0).replay ≠ [] ∧ ((ported { state := .up, inRow := 7, replay := [sent0] }).dev.port 0).inRow = 7 ∧
    ([sent0] : List SentFlit) = [] ++ sent0 :: [] ∧ (ported { state := .training, wasUp := true }).dev.port 0 = { state := .training, wasUp := true } := by
  refine ⟨?_, ?_, ?_, ?_⟩ <;> decide +kernel
/-- A DATA flit with SEQ 1 and one with SEQ 2, at a port that has received none. -/
theorem wit_PeerLinks_flits : (0x11 : BitVec 48).toNat % 16 = 1 ∧ (0x11 : BitVec 48).extractLsb' 4 12 = (0 : BitVec 12) + 1 ∧
    (0x21 : BitVec 48).extractLsb' 4 12 ≠ (0 : BitVec 12) + 1 := by decide

/-- Plan 0 in a run at run tick n, with run 0 of it so. -/
def planned (i : Instance) (n : Nat) (k : Tick := {}) : State :=
  { dev := { loaded with
    run := { loaded.run with state := .running }, tick := { k with running := true, inRun := true, runTick := n }
    peer := { loaded.peer with plans := loaded.peer.plans.set 0 (some { block := planBlock, digest := 9, instances := [i] }) } } }

theorem wit_Reductions_packets : (fresh.plan 0 = none) ∧ (9 : Word) ≠ 8 ∧ (planned { e := 0 } 0).dev.running = true ∧ planPhase planBlock = 0 ∧
    planDeadTicks planBlock = 1 ∧ planDeadCycle planBlock = 4096 ∧ planReady planBlock = 2 ∧ planShards planBlock = 1 ∧ planModules planBlock = [0] ∧
    (shardAt planBlock 0).sectors = 1 ∧ (shardAt planBlock 0).owner = fresh.self := by
  refine ⟨?_, ?_, ?_, ?_, ?_, ?_, ?_, ?_, ?_, ?_, ?_⟩ <;> decide +kernel
theorem wit_Reductions_fold : (ownedShards fresh.self planBlock).map (·.2) = [0] ∧ ({ e := 0 } : Instance).choose 0 (shardAt planBlock 0) 0 = none ∧
    ({ e := 0, landed := [(0, 0, false, 0)] } : Instance).choose 0 (shardAt planBlock 0) 0 = some false ∧ (planned { e := 0 } 1).dev.mem.wf = true := by
  refine ⟨?_, ?_, ?_, ?_⟩ <;> decide +kernel
/-- The same plan over modules 0 and 1. -/
def planTwo : List Byte := planBlock.set 2 3
theorem wit_Reductions_two : planModules planTwo = [0, 1] ∧
    ({ e := 0, landed := [(0, 0, false, 0), (0, 1, false, 0)] } : Instance).choose 0 (shardAt planTwo 0) 1 = some false := by
  refine ⟨?_, ?_⟩ <;> decide +kernel

/-- A fold that waits at a channel. -/
theorem wit_Reductions_waiting : (shardAt planBlock 0, 0) ∈ ownedShards fresh.self planBlock ∧
    Held.work (.fold .int32Add 0 1 2 {} {} ⟨0, 0, 0, true⟩) = some ⟨0, 0, 0, true⟩ ∧ Held.work (.spoil 1 none) = none := by
  refine ⟨?_, ?_, ?_⟩ <;> decide +kernel

/-- The plan in the tick after the contribution tick: nothing holds an access, and its module sums are due. -/
theorem wit_Reductions_calm : (planned { e := 0 } 1).dev.calm := by
  have low : ∀ c : Fin 256, (planned { e := 0 } 1).dev.refreshing c = false := by decide +kernel
  refine ⟨rfl, fun c => ?_, by decide +kernel⟩
  by_cases h : c < 256
  · exact low ⟨c, h⟩
  · have : (planned { e := 0 } 1).dev.mem.channel c = {} := by
      unfold Mem.channel
      rw [List.getD_eq_default]
      rw [Vector.length_toList]; omega
    unfold Dev.refreshing; rw [this]; rfl
theorem wit_Reductions_sums : planShardList planBlock = [shardAt planBlock 0] ∧ planDies planBlock ≠ [] ∧ (shardAt planBlock 0).owner < 8 ∧
    0 + 1 = (planned { e := 0 } 1).dev.tick.runTick ∧ (planned { e := 0 } 1).dev.run.stopDrain = false ∧
    beforeDeadline planBlock 0 1 0 = true ∧ rolesOf fresh.self (shardAt planBlock 0) = [(false, 0)] := by
  refine ⟨?_, ?_, ?_, ?_, ?_, ?_, ?_⟩ <;> decide +kernel
theorem wit_Reductions_places :
    (let d := (planned { e := 0 } 1).dev
     let x := shardAt planBlock 0
     let key := fun (area y : Nat) => d.mem.nearKey (d.areaSector planBlock area y)
     let part := fun (copy : Bool) (die : Nat) => key (if copy then 40 else 32) (die * planStride planBlock + x.off)
     let staging := (List.range 4).map (fun y => key 48 (4 * x.off + y))
     let landing := (List.range 16).map (fun y => key 56 (16 * x.off + y))
     let parts := [0, 1, 2, 3].flatMap (fun die => [part false die, part true die])
     x.sectors == 1 && decide staging.Nodup && decide landing.Nodup && staging.all (fun k => !parts.contains k && !landing.contains k) &&
     landing.all (fun k => !parts.contains k) && d.mem.retiredNear.isEmpty && d.held.isEmpty) = true := by decide +kernel
/-- The same plan for owner 1, to whom port 0 leads. -/
theorem wit_Reductions_sent : (shardAt (planBlock.set 64 1) 0).owner = 1 ∧ fresh.self ≠ 1 ∧ (peerCfgOf peerBlock).routeTo 1 = 0 ∧
    ((planned { e := 0 } 1).dev.port 0).state ≠ .up := by
  refine ⟨?_, ?_, ?_, ?_⟩ <;> decide +kernel

/- Rings and registers. -/

/-- A device in READY whose ring 0 is r. -/
def ringDev (r : RingBlock) : Dev := { withMem mem0 with host := { fresh.host with rings := fresh.host.rings.set 0 r } }

theorem wit_RingCommands_up : (ringDev {}).regionsUp = true ∧ (ringDev {}).pins.tripped = false := by
  refine ⟨?_, ?_⟩ <;> decide +kernel
theorem wit_RingCommands : ((ringDev { cqEnable := true }).ring 0).cqEnable = true ∧ ((9 : Word).extractLsb' 1 4).toNat = 4 ∧ ((1 : Word).extractLsb' 1 4).toNat = 0 ∧
    (∃ m, ((ringDev { cqEnable := true, sqEnable := true }).ring m).sqEnable = true ∧ ((ringDev { cqEnable := true, sqEnable := true }).ring m).cqid = 0) ∧
    (3 : Word).toNat % 4096 < 2 ^ 4 ∧ 2 ^ 4 ≤ (16 : Word).toNat % 4096 := by
  refine ⟨?_, ?_, ?_, ⟨0, ?_, ?_⟩, ?_, ?_⟩ <;> decide +kernel
theorem wit_RingCommands_fetch : (ringDev { cqEnable := true, sqEnable := true, sqTail := 1 }).fetchTurn = some 0 ∧ opcodeDefined ((0x01 : BitVec 512).toNat % 256) = true ∧
    1 + ((ringDev { cqEnable := true, sqEnable := true, sqTail := 1 }).ring 0).used ≤ 2 ^ 4 := by
  refine ⟨?_, ?_, ?_⟩ <;> decide +kernel
/-- Two records posted and not released; the host releases one. -/
theorem wit_RingCommands_head : (let r := (ringDev { cqEnable := true, used := 2, cqTail := 2, ie := true, unsignalled := 2 }).ring 0
    r.cqHead.toNat < 2 ^ r.cqSize.toNat ∧ 1 ≤ r.used ∧ (1 : Word).toNat % 4096 = (r.cqHead.toNat + 1) % 2 ^ r.cqSize.toNat ∧ 0 < r.unsignalled) ∧
    ∀ m, (fresh.stream m).isOpen = false := by
  refine ⟨?_, ?_⟩ <;> decide +kernel

theorem wit_RingCommands_fails : ((ringDev { cqEnable := true, fails := some 0 }).ring 0).fails = some 0 ∧
    (ringDev { cqEnable := true, sqEnable := true, sqTail := 1 }).host.fetched = [] := by
  refine ⟨?_, ?_⟩ <;> decide +kernel

/-- BAR4 at sector 1, and the same with that sector's channel in a refresh slot. -/
theorem wit_RegisterCommands_window : (withMem mem0).mustWait [] (.write 1 0 [5] false {}) = false ∧ (withMem mem0).mustWait [] (.read [(1, 0, 4)] []) = false ∧
    (let m := mem0.onChannel (pageChannel (mem0.nearKey 1).1) (fun c => { c with refreshEnd := 240 })
     (withMem m).mustWait [] (.write 1 0 [5] false {}) = true) ∧ mem0.wf = true ∧ mem0.retiredNear.contains (mem0.nearKey 1).1 = false ∧
    (mem0.peekNear (mem0.nearKey 1).1 (mem0.nearKey 1).2).poison = 0 := by
  refine ⟨?_, ?_, ?_, ?_, ?_, ?_⟩ <;> decide +kernel
theorem wit_RegisterCommands_access : ({ bar := .bar0, offset := 0, bytes := 8 } : Access).bytes ≠ 4 ∧ lowWord 0x1000 = false ∧ (0x1000 : BitVec 26).toNat % 4 = 0 := by
  refine ⟨?_, ?_, ?_⟩ <;> decide +kernel

theorem wit_RegisterCommands : (6 : BitVec 26).toNat % 4 ≠ 0 ∧ fresh.run.state = .boot ∧ 0x10000 ≤ (0x20000 : BitVec 26).toNat ∧ (0x20000 : BitVec 26).toNat < 0x60000 ∧
    (withMem mem0).run.state = .ready ∧ (withMem mem0).power.planPeak ≤ 250 ∧ 576 % 576 + 4 ≤ 576 ∧ fresh.mem.nearValid 1 = true ∧
    fresh.mem.nearValid 0xFFFFFFFF = false := by
  refine ⟨?_, ?_, ?_, ?_, ?_, ?_, ?_, ?_, ?_⟩ <;> decide +kernel
theorem wit_RegisterCommands_log : ({ holdOff := true, waiting := true, msiEn := true } : Log).waiting = true ∧ ({} : Log).waiting = false := by decide

/-- A device in READY whose management port serves; the module after a trip. -/
def managed : Dev := { powered with run := { powered.run with state := .ready } }
theorem wit_ServiceEvents_managed : managed.managed = true ∧ powered.managed = false ∧ managed.sec.bootSlot ≠ 2 ∧ managed.pins.tripped = false ∧
    ({ managed with pins := { managed.pins with rails := [] } } : Dev).pins.up = false ∧
    ({ managed.flash with owner := some { format := 1, policy := 0, keys := [some (1, 2)] } } : Flash).owner ≠ none := by
  refine ⟨?_, ?_, ?_, ?_, ?_, ?_⟩ <;> decide +kernel
theorem wit_ServiceEvents : fresh.sec.bootSlot ≠ 1 ∧ ({ fresh.sec with bootSlot := 1 } : Sec).bootSlot = 1 ∧ fresh.pke.session = none ∧ fresh.flash.owner = none ∧
    (({ format := 1, policy := 0, keys := [some (1, 2)] } : OwnerRecord).keys.any (·.isSome)) = true ∧ fresh.clocks.linkHold.length = 8 ∧
    powered.pins.up = true ∧ ({ mem0 with farUp := 2 } : Mem).farUp.getLsbD 1 = true := by
  refine ⟨?_, ?_, ?_, ?_, ?_, ?_, ?_, ?_⟩ <;> decide +kernel
/-- A tile whose sentinel holds a sample drawn in cycle 20 − n, whose B row is `b`. -/
def sample0 (n b : Nat) : SentSample :=
  { fmt := .mxint4, a := 0, b := b, shadow := 0, pad := none, step := 0, i := 0, j := 0, asked := 20 - n, seq := 0, v := some none }
def sampling (n b : Nat) : Dev :=
  let s := running { tile0 with sent := { tile0.sent with sample := some (sample0 n b) } }
  { s.dev.setGroup 0 { s.dev.group 0 with issuedAt := some 20 } with tick := { s.dev.tick with wall := 20 } }
theorem wit_ServiceEvents_sentinel : ((sampling 20 1).tile 0).sent.sample = some (sample0 20 1) ∧ ((sampling 20 1).tile 0).sent.ctrl.getLsbD 1 = false ∧
    (sampling 20 1).sampleOpen 0 (sample0 20 1) = true ∧ (sampling 0 1).sampleOpen 0 (sample0 0 1) = false ∧
    (sampling 20 1).portGrants ((sample0 20 1).req 0 false false) = true ∧
    ((sampling 20 1).setTile 0 (((sampling 20 1).tile 0).takeSlot 20 0 false)).portGrants ((sample0 20 1).req 0 false true) = true ∧
    bankOf ((sample0 20 8).rows false).1 = bankOf ((sample0 20 8).rows false).2 ∧ (((sampling 20 1).tile 0).bankRow 20 0).1.poison = 0 ∧
    (((sampling 20 1).tile 0).bankRow 20 0).2 = false ∧ ((sample0 20 1).rows false) = (0, 1) := by
  refine ⟨?_, ?_, ?_, ?_, ?_, ?_, ?_, ?_, ?_, ?_⟩ <;> decide +kernel

/- Invariants: the state after reset meets the first, and a step and a command answer a next state. -/

theorem wit_MemoryStaysCanonical : State.reset.dev.memoryWf = true ∧ step State.reset = .next State.reset := ⟨by decide +kernel, rfl⟩
theorem wit_StateTransitions : ∃ s' : State, exec (.powerOn 0) State.reset = .next s' := ⟨_, rfl⟩
theorem wit_EmptyQueueSteps : State.reset.pending = [] ∧ State.reset.dev.tick.running = false ∧ State.reset.dev.booting = none := ⟨rfl, rfl, rfl⟩
theorem wit_EmptyQueueSteps_booting : ({ fresh with booting := some { seen := seen, step := 1 } } : Dev).booting = some { seen := seen, step := 1 } ∧
    fresh.tick.running = false := ⟨rfl, rfl⟩
theorem wit_EmptyQueueSteps_phases : (ticking {}).pending = [] ∧ (ticking {}).dev.tick.running = true ∧ (ticking { phase := 1 }).dev.tick.phase = 1 ∧
    (ticking { phase := 2 }).dev.tick.phase = 2 ∧ 3 ≤ (ticking { phase := 3 }).dev.tick.phase ∧ (ticking { phase := 3 }).dev.transfers = [] ∧
    (ticking { phase := 3 }).dev.held = [] := by
  refine ⟨?_, ?_, ?_, ?_, ?_, ?_, ?_⟩ <;> decide +kernel
/-- The last cycle of a run that ABORT, an FLR or a fault has stopped. -/
theorem wit_EmptyQueueSteps_ending : ([Ending.abort, .flr .running, .fault .channel 3].all (fun e =>
    let s := ticking { phase := 3 } { ending := some e }
    s.dev.run.ending == some e && s.dev.transfers.isEmpty && s.dev.held.isEmpty && !s.dev.stillLands)) = true := by decide +kernel

end Sys2Proof.Tests
end

/- What records, events and completions leave alone, read back field by field. -/

namespace Sys2Proof.Machine

/-- An event reports, and does no more (R426, R430). -/
theorem Dev.event_reports (d : Dev) (n : Nat) (ev : Event) (data : List (Nat × Nat)) : d.ReportsTo (d.event n ev data) := by
  unfold Dev.ReportsTo
  rw [Dev.event_frame]

theorem Dev.ReportsTo.tiles {d e : Dev} (h : d.ReportsTo e) : e.tiles = d.tiles := by rw [h]
theorem Dev.ReportsTo.run {d e : Dev} (h : d.ReportsTo e) : e.run = d.run := by rw [h]
theorem Dev.ReportsTo.mem {d e : Dev} (h : d.ReportsTo e) : e.mem = d.mem := by rw [h]
theorem Dev.ReportsTo.pins {d e : Dev} (h : d.ReportsTo e) : e.pins = d.pins := by rw [h]
theorem Dev.ReportsTo.fetched {d e : Dev} (h : d.ReportsTo e) : e.host.fetched = d.host.fetched := by rw [h]

@[simp] theorem Dev.event_tiles (d : Dev) (n : Nat) (ev : Event) (data : List (Nat × Nat)) : (d.event n ev data).tiles = d.tiles := by rw [Dev.event_frame]
@[simp] theorem Dev.event_run (d : Dev) (n : Nat) (ev : Event) (data : List (Nat × Nat)) : (d.event n ev data).run = d.run := by rw [Dev.event_frame]
@[simp] theorem Dev.event_mem (d : Dev) (n : Nat) (ev : Event) (data : List (Nat × Nat)) : (d.event n ev data).mem = d.mem := by rw [Dev.event_frame]
@[simp] theorem Dev.event_power (d : Dev) (n : Nat) (ev : Event) (data : List (Nat × Nat)) : (d.event n ev data).power = d.power := by rw [Dev.event_frame]
@[simp] theorem Dev.event_pins (d : Dev) (n : Nat) (ev : Event) (data : List (Nat × Nat)) : (d.event n ev data).pins = d.pins := by rw [Dev.event_frame]
@[simp] theorem Dev.event_jobs (d : Dev) (n : Nat) (ev : Event) (data : List (Nat × Nat)) : (d.event n ev data).host.jobs = d.host.jobs :=
  congrArg (·.host.jobs) (Dev.event_frame d n ev data)
@[simp] theorem Dev.event_fetched (d : Dev) (n : Nat) (ev : Event) (data : List (Nat × Nat)) :
    (d.event n ev data).host.fetched = d.host.fetched := congrArg (·.host.fetched) (Dev.event_frame d n ev data)

@[simp] theorem Dev.enter_state (d : Dev) (next : DevState) (n : Nat) : (d.enter next n).run = { d.run with state := next } := by rw [Dev.enter_frame]
@[simp] theorem Dev.enter_jobs (d : Dev) (next : DevState) (n : Nat) : (d.enter next n).host.jobs = d.host.jobs :=
  congrArg (·.host.jobs) (Dev.enter_frame d next n)

@[simp] theorem Dev.complete_run (d : Dev) (f : Fetched) (p : Bool) (st : Status) (detail : List Byte) : (d.complete f p st detail).run = d.run :=
  (Dev.complete_frame d f p st detail).run
@[simp] theorem Dev.complete_pins (d : Dev) (f : Fetched) (p : Bool) (st : Status) (detail : List Byte) : (d.complete f p st detail).pins = d.pins :=
  (Dev.complete_frame d f p st detail).pins

theorem Dev.finishAll_reports (d : Dev) (p : JobKind → Bool) (st : Status) (detail : Job → List Byte) : d.ReportsTo (d.finishAll p st detail) := by
  unfold Dev.finishAll
  generalize d.host.jobs.filter _ = js
  induction js generalizing d with
  | nil => rfl
  | cons j js ih => exact (Dev.finish_frame d j st (detail j)).trans (ih _)

@[simp] theorem Dev.finishAll_run (d : Dev) (p : JobKind → Bool) (st : Status) (detail : Job → List Byte) : (d.finishAll p st detail).run = d.run :=
  (Dev.finishAll_reports d p st detail).run
@[simp] theorem Dev.finishAll_pins (d : Dev) (p : JobKind → Bool) (st : Status) (detail : Job → List Byte) : (d.finishAll p st detail).pins = d.pins :=
  (Dev.finishAll_reports d p st detail).pins

/- Undefined opcodes at the front complete as records do (step 1 of R332). -/

@[simp] theorem Dev.pump_run (k : Nat) (d : Dev) : (d.pump k).run = d.run := by
  induction k generalizing d with
  | zero => rfl
  | succ k ih =>
    unfold Dev.pump
    split
    · split
      · rfl
      · rw [ih, Dev.complete_run, Dev.take_run]
    · rfl

@[simp] theorem Dev.pump_pins (k : Nat) (d : Dev) : (d.pump k).pins = d.pins := by
  induction k generalizing d with
  | zero => rfl
  | succ k ih =>
    unfold Dev.pump
    split
    · split
      · rfl
      · rw [ih, Dev.complete_pins, Dev.take_pins]
    · rfl

@[simp] theorem Dev.pumpAll_run (d : Dev) : d.pumpAll.run = d.run := Dev.pump_run _ d
@[simp] theorem Dev.pumpAll_pins (d : Dev) : d.pumpAll.pins = d.pins := Dev.pump_pins _ d

/- Pending commands: records end none but the CLOSE_STREAMs that waited for room (R354). -/

@[simp] theorem Dev.postRecord_jobs (d : Dev) (cq : BitVec 6) (bytes : List Byte) : (d.postRecord cq bytes).host.jobs = d.host.jobs :=
  congrArg (·.host.jobs) (Dev.postRecord_frame_any d cq bytes)

@[simp] theorem Dev.finalRecord_jobs (d : Dev) (f : Fetched) (p : Bool) (st : Status) (detail : List Byte) :
    (d.finalRecord f p st detail).host.jobs = d.host.jobs := Dev.postRecord_jobs _ _ _

@[simp] theorem Dev.postBatch_jobs (d : Dev) (n : BitVec 6) (r : BatchRec) : (d.postBatch n r).host.jobs = d.host.jobs := by
  unfold Dev.postBatch
  simp only [Dev.postRecord_jobs]
  split <;> rfl

@[simp] theorem Dev.flushBacklog_jobs (k : Nat) (d : Dev) (n : BitVec 6) : (d.flushBacklog k n).host.jobs = d.host.jobs := by
  induction k generalizing d with
  | zero => rfl
  | succ k ih =>
    unfold Dev.flushBacklog
    split
    · rfl
    · split
      · rfl
      · rw [ih, Dev.postBatch_jobs, Dev.setStream_jobs]

@[simp] theorem Dev.flushStream_jobs (d : Dev) (n : BitVec 6) : (d.flushStream n).host.jobs = d.host.jobs := Dev.flushBacklog_jobs _ d n

@[simp] theorem Dev.finishClose_jobs (d : Dev) (j : Job) (detail : List Byte) : (d.finishClose j detail).host.jobs = d.host.jobs.erase j :=
  Dev.finalRecord_jobs _ _ _ _ _

theorem Dev.entriesFreed_jobs (d : Dev) (cq : BitVec 6) : (d.entriesFreed cq).host.jobs.Sublist d.host.jobs := by
  unfold Dev.entriesFreed
  generalize allStreams.filter _ = ns
  induction ns generalizing d with
  | nil => exact .refl _
  | cons n ns ih =>
    rw [List.foldl_cons]
    refine (ih _).trans ?_
    split
    · simp only
      split
      · rw [Dev.finishClose_jobs]
        exact List.erase_sublist.trans (by rw [Dev.shut, Dev.setStream_jobs, Dev.flushStream_jobs])
      · rw [Dev.flushStream_jobs]
    · split
      · rw [Dev.flushStream_jobs]
      · exact .refl _

theorem Dev.complete_jobs (d : Dev) (f : Fetched) (p : Bool) (st : Status) (detail : List Byte) :
    (d.complete f p st detail).host.jobs.Sublist d.host.jobs := by
  unfold Dev.complete
  simp only
  split
  · exact (Dev.entriesFreed_jobs _ _).trans (by rw [Dev.finalRecord_jobs])
  · rw [Dev.finalRecord_jobs]

theorem Dev.finish_jobs (d : Dev) (j : Job) (st : Status) (detail : List Byte) :
    (d.finish j st detail).host.jobs.Sublist (d.host.jobs.erase j) := Dev.complete_jobs _ _ _ _ _

theorem Dev.pump_jobs (k : Nat) (d : Dev) : (d.pump k).host.jobs.Sublist d.host.jobs := by
  induction k generalizing d with
  | zero => exact .refl _
  | succ k ih =>
    unfold Dev.pump
    split
    · split
      · exact .refl _
      · exact (ih _).trans (Dev.complete_jobs _ _ _ _ _)
    · exact .refl _

theorem Dev.pumpAll_jobs_nil (d : Dev) (h : d.host.jobs = []) : d.pumpAll.host.jobs = [] :=
  List.sublist_nil.1 (h ▸ Dev.pump_jobs _ d)

/-- Finishing the commands of a list that holds every pending one leaves none pending. -/
theorem Dev.finish_each_jobs (js : List Job) (st : Status) (detail : Job → List Byte) (d : Dev) (h : d.host.jobs.Sublist js) :
    (js.foldl (fun d j => d.finish j st (detail j)) d).host.jobs = [] := by
  induction js generalizing d with
  | nil => exact List.sublist_nil.1 h
  | cons j js ih =>
    refine ih _ ((Dev.finish_jobs d j st (detail j)).trans ?_)
    simpa using h.erase j

/-- With every pending command finished none is pending. -/
theorem Dev.finishAll_every_jobs (d : Dev) (st : Status) (detail : Job → List Byte) :
    (d.finishAll (fun _ => true) st detail).host.jobs = [] := by
  unfold Dev.finishAll
  rw [List.filter_true]
  exact Dev.finish_each_jobs _ _ _ d (.refl _)

end Sys2Proof.Machine

/- Steps of an empty queue (R3, R219 to R248, R427; log 5). -/

namespace Sys2Proof.Machine

@[simp] theorem mem_allGroups (g : GroupId) : g ∈ allGroups := List.mem_map.2 ⟨g.toNat, List.mem_range.2 g.isLt, by simp⟩

@[simp] theorem mem_allStreams (n : BitVec 6) : n ∈ allStreams := List.mem_map.2 ⟨n.toNat, List.mem_range.2 n.isLt, by simp⟩

@[simp] theorem mem_when_ (b : Bool) (x c : Instr) : c ∈ when_ b x ↔ b = true ∧ c = x := by
  cases b <;> simp [when_]

@[simp] theorem Dev.mem_busyPlans (d : Dev) (n : BitVec 4) : n ∈ d.busyPlans ↔ ∃ p, d.plan n.toNat = some p ∧ p.instances ≠ [] := by
  cases h : d.plan n.toNat <;> simp [Dev.busyPlans, h]

theorem Dev.mem_edgeRows (d : Dev) (c : Instr) : c ∈ d.edgeRows ↔
    (c = .stageDeadline ∧ d.running = true ∧ d.tick.inRun = true ∧ d.tick.deadlineDone = false ∧ d.tick.period ≤ d.tick.cycle) ∨
    (c = .tickInLost ∧ d.tick.external = true ∧ d.tick.fallback = false ∧ d.tick.edgeAt = none ∧ 2 * d.tick.period ≤ d.tick.cycle) ∨
    (c = .tickBoundary ∧ (d.tick.boundaryDue = true ∨
      d.tick.external = true ∧ d.tick.fallback = false ∧ d.tick.edgeAt = none ∧ 2 * d.tick.period ≤ d.tick.cycle)) := by
  simp only [Dev.edgeRows, List.mem_append, mem_when_, Bool.and_eq_true, Bool.or_eq_true, Bool.not_eq_true', decide_eq_true_eq,
    Option.isNone_iff_eq_none, and_assoc, or_assoc, and_comm (b := c = _)]

theorem Dev.mem_drainRows (d : Dev) (c : Instr) : c ∈ d.drainRows ↔
    (c = .transitHotDetect ∧ d.tick.cycle = 0) ∨
    (∃ n p, d.plan n.toNat = some p ∧ p.instances ≠ [] ∧
      ((d.tick.cycle = 0 ∧ (c = .reduceReady n ∨ c = .reduceModuleSum { plan := n })) ∨ (d.running = true ∧ c = .reduceDeadline { plan := n }))) ∨
    (∃ n, (d.stream n).isOpen = true ∧ d.tick.cycle = 0 ∧ d.running = true ∧
      (c = .streamConsume n ∨ c = .batchRecordPost n ∨ c = .streamAdmission n ∨ c = .streamLapCheck n)) ∨
    (c = .stageStart ∧ d.running = true ∧ d.tick.inRun = true ∧ d.tick.stageStarted = false ∧ 2048 ≤ d.tick.cycle) := by
  simp only [Dev.drainRows, List.mem_append, List.mem_ite_nil_right, mem_when_, List.mem_map, Dev.mem_busyPlans, List.mem_filter, mem_allStreams,
    Bool.and_eq_true, Bool.not_eq_true', decide_eq_true_eq, beq_iff_eq, true_and]
  constructor
  · rintro ((((⟨h, rfl⟩ | ⟨h, ⟨n, ⟨p, hp, hi⟩, rfl⟩ | ⟨n, ⟨p, hp, hi⟩, rfl⟩⟩) | ⟨⟨h, hr⟩, ((⟨n, ho, rfl⟩ | ⟨n, ho, rfl⟩) | ⟨n, ho, rfl⟩) | ⟨n, ho, rfl⟩⟩) |
      ⟨hr, n, ⟨p, hp, hi⟩, rfl⟩) | ⟨h, rfl⟩)
    · exact .inl ⟨rfl, h⟩
    · exact .inr (.inl ⟨n, p, hp, hi, .inl ⟨h, .inl rfl⟩⟩)
    · exact .inr (.inl ⟨n, p, hp, hi, .inl ⟨h, .inr rfl⟩⟩)
    · exact .inr (.inr (.inl ⟨n, ho, h, hr, .inl rfl⟩))
    · exact .inr (.inr (.inl ⟨n, ho, h, hr, .inr (.inl rfl)⟩))
    · exact .inr (.inr (.inl ⟨n, ho, h, hr, .inr (.inr (.inl rfl))⟩))
    · exact .inr (.inr (.inl ⟨n, ho, h, hr, .inr (.inr (.inr rfl))⟩))
    · exact .inr (.inl ⟨n, p, hp, hi, .inr ⟨hr, rfl⟩⟩)
    · obtain ⟨⟨⟨hr, hi⟩, hs⟩, hc⟩ := h
      exact .inr (.inr (.inr ⟨rfl, hr, hi, hs, hc⟩))
  · rintro (⟨rfl, h⟩ | ⟨n, p, hp, hi, ⟨h, rfl | rfl⟩ | ⟨hr, rfl⟩⟩ | ⟨n, ho, h, hr, rfl | rfl | rfl | rfl⟩ | ⟨rfl, hr, hi, hs, hc⟩)
    · exact .inl (.inl (.inl (.inl ⟨h, rfl⟩)))
    · exact .inl (.inl (.inl (.inr ⟨h, .inl ⟨n, ⟨p, hp, hi⟩, rfl⟩⟩)))
    · exact .inl (.inl (.inl (.inr ⟨h, .inr ⟨n, ⟨p, hp, hi⟩, rfl⟩⟩)))
    · exact .inl (.inr ⟨hr, n, ⟨p, hp, hi⟩, rfl⟩)
    · exact .inl (.inl (.inr ⟨⟨h, hr⟩, .inl (.inl (.inl ⟨n, ho, rfl⟩))⟩))
    · exact .inl (.inl (.inr ⟨⟨h, hr⟩, .inl (.inl (.inr ⟨n, ho, rfl⟩))⟩))
    · exact .inl (.inl (.inr ⟨⟨h, hr⟩, .inl (.inr ⟨n, ho, rfl⟩)⟩))
    · exact .inl (.inl (.inr ⟨⟨h, hr⟩, .inr ⟨n, ho, rfl⟩⟩))
    · exact .inr ⟨⟨⟨⟨hr, hi⟩, hs⟩, hc⟩, rfl⟩

theorem Dev.mem_refreshRows (d : Dev) (c : Instr) : c ∈ d.refreshRows ↔ ∃ n, n < 256 ∧ d.refreshDue n = true ∧ c = .refreshSlot (BitVec.ofNat 8 n) := by
  simp only [Dev.refreshRows, List.mem_map, List.mem_filter, List.mem_range, and_assoc, eq_comm]


theorem Dev.mem_stageRows (d : Dev) (c : Instr) : c ∈ d.stageRows ↔
    (d.running = true ∧ d.run.countReached = true ∧ ∃ t n m, d.run.target = some (t, n, m) ∧ c = .countReached t) ∨
    (∃ g, d.staged (d.group g) = true ∧ (c = .scheduleCycle g ∨ c = .stageEnd g ∨ ((d.group g).throttles ≠ [] ∧ c = .throttleExpiry g) ∨
      ∃ t, t ∈ (d.group g).members ∧ (d.tile t).pend ≠ [] ∧ (c = .pendingWaitComplete t ∨ c = .arrivalTimeout t))) := by
  by_cases hr : d.running = true
  · have target : (c ∈ match d.run.target with | some (t, _, _) => when_ d.run.countReached (.countReached t) | none => []) ↔
        d.run.countReached = true ∧ ∃ t n m, d.run.target = some (t, n, m) ∧ c = .countReached t := by
      rcases d.run.target with _ | ⟨t, n, m⟩ <;> simp
    simp only [Dev.stageRows, hr, Bool.not_true, Bool.false_eq_true, if_false, List.mem_append, List.mem_map, List.mem_flatMap, List.mem_filter,
      mem_allGroups, true_and, mem_when_, Bool.not_eq_true', List.isEmpty_eq_false_iff]
    constructor
    · rintro (((((⟨g, hg, ht, rfl⟩ | ⟨t, ⟨⟨g, hg, hm⟩, hp⟩, rfl⟩) | ⟨t, ⟨⟨g, hg, hm⟩, hp⟩, rfl⟩) | h) | ⟨g, hg, rfl⟩) | ⟨g, hg, rfl⟩)
      · exact .inr ⟨g, hg, .inr (.inr (.inl ⟨ht, rfl⟩))⟩
      · exact .inr ⟨g, hg, .inr (.inr (.inr ⟨t, hm, hp, .inl rfl⟩))⟩
      · exact .inr ⟨g, hg, .inr (.inr (.inr ⟨t, hm, hp, .inr rfl⟩))⟩
      · exact .inl (target.1 h)
      · exact .inr ⟨g, hg, .inl rfl⟩
      · exact .inr ⟨g, hg, .inr (.inl rfl)⟩
    · rintro (h | ⟨g, hg, rfl | rfl | ⟨ht, rfl⟩ | ⟨t, hm, hp, rfl | rfl⟩⟩)
      · exact .inl (.inl (.inr (target.2 h)))
      · exact .inl (.inr ⟨g, hg, rfl⟩)
      · exact .inr ⟨g, hg, rfl⟩
      · exact .inl (.inl (.inl (.inl (.inl ⟨g, hg, ht, rfl⟩))))
      · exact .inl (.inl (.inl (.inl (.inr ⟨t, ⟨⟨g, hg, hm⟩, hp⟩, rfl⟩))))
      · exact .inl (.inl (.inl (.inr ⟨t, ⟨⟨g, hg, hm⟩, hp⟩, rfl⟩)))
  · simp [Dev.stageRows, Dev.staged, hr]

/- The end of a core cycle in which nothing is on its way to a scratchpad or a channel. -/

theorem Dev.mapTiles_frame (d : Dev) (p : TileId → Bool) (f : TileId → Tile → Tile) :
    d.mapTiles p f = { d with tiles := (d.mapTiles p f).tiles } := by unfold Dev.mapTiles; rfl

theorem Dev.serveRemote_none (d : Dev) (h : d.transfers = []) : d.serveRemote = d := by
  simp [Dev.serveRemote, h]

theorem Dev.serveQueues_none (d : Dev) (h : d.held = []) : d.serveQueues = d := by
  obtain ⟨⟩ := d
  subst h
  rfl

/-- Halo accounting changes the groups, and marks HALO_EXHAUSTED (R247). -/
theorem Dev.accountAll_frame (d : Dev) : d.accountAll = { d with groups := d.accountAll.groups, fresh := d.accountAll.fresh } := by
  unfold Dev.accountAll
  refine List.foldlRecOn (motive := fun x : Dev => x = { d with groups := x.groups, fresh := x.fresh }) allGroups _
    (by unfold Dev.mapGroups; rfl) fun x h g _ => ?_
  split
  · rw [h]; rfl
  · exact h

/-- Of `advance`, what passes in every core cycle: arrivals count, the tiles turn to the next cycle, and time goes on (R3, R137, R388). -/
def Dev.passCycle (d : Dev) : Dev :=
  let w := d.tick.wall
  let d := d.mapTiles (fun _ => true) (fun _ t => (t.arrivals w).turn (w + 1))
  let spread := if d.clocks.sscOn then d.freeValue % 101 else 0
  let d := if d.clocks.sscOn then d.drew else d
  { d with
    tick := { d.tick with wall := w + 1, cycle := d.tick.cycle + 1, phase := 0 }
    log := { d.log with time := d.log.time + 40000 + spread, tail := if w % 2 = 1 then 0 else d.log.tail } }

theorem Dev.advance_eq (d : Dev) : d.advance = d.serveRemote.accountAll.passCycle.serveQueues.tryEnd := rfl

theorem Dev.passCycle_frame (d : Dev) : d.passCycle = { d with
    tiles := (d.mapTiles (fun _ => true) (fun _ t => (t.arrivals d.tick.wall).turn (d.tick.wall + 1))).tiles
    tick := { d.tick with wall := d.tick.wall + 1, cycle := d.tick.cycle + 1, phase := 0 }
    log := { d.log with time := d.log.time + 40000 + (if d.clocks.sscOn then d.freeValue % 101 else 0)
                        tail := if d.tick.wall % 2 = 1 then 0 else d.log.tail }
    free := if d.clocks.sscOn then d.free + 1 else d.free } := by
  have frame := Dev.mapTiles_frame d (fun _ => true) (fun _ t => (t.arrivals d.tick.wall).turn (d.tick.wall + 1))
  generalize (d.mapTiles _ _).tiles = ts at frame ⊢
  unfold Dev.passCycle
  simp only [frame]
  by_cases hs : d.clocks.sscOn = true
  · simp only [hs, if_true]; rfl
  · simp only [if_neg hs]

theorem Dev.tile_passCycle (d : Dev) (t : TileId) : d.passCycle.tile t = ((d.tile t).arrivals d.tick.wall).turn (d.tick.wall + 1) := by
  rw [Dev.passCycle_frame]
  simp [Dev.tile, Dev.mapTiles]

/-- A cycle takes 40,000 units of time, and while spreading is on up to 100 more (R388; log 21). -/
theorem Dev.passCycle_time (d : Dev) : d.log.time + 40000 ≤ d.passCycle.log.time ∧ d.passCycle.log.time ≤ d.log.time + 40100 ∧
    (d.clocks.sscOn = false → d.passCycle.log.time = d.log.time + 40000) := by
  have spread : d.freeValue % 101 < 101 := Nat.mod_lt _ (by omega)
  rw [Dev.passCycle_frame]
  refine ⟨?_, ?_, fun h => ?_⟩ <;> simp only
  · omega
  · split <;> omega
  · simp [h]

end Sys2Proof.Machine

namespace Sys2Proof.Machine

/- What has still to land is not a matter of arrivals. -/

theorem Tile.count_keeps (t : Tile) (c : BitVec 6) : (t.count c).dma = t.dma ∧ (t.count c).nma = t.nma := by
  unfold Tile.count
  split <;> exact ⟨rfl, rfl⟩

theorem Tile.arrivals_keeps (t : Tile) (wall : Nat) : (t.arrivals wall).dma = t.dma ∧ (t.arrivals wall).nma = t.nma := by
  unfold Tile.arrivals
  refine List.foldlRecOn (motive := fun x : Tile => x.dma = t.dma ∧ x.nma = t.nma) _ _ ⟨rfl, rfl⟩ fun x h p _ => ?_
  obtain ⟨hd, hn⟩ := Tile.count_keeps x p.2
  exact ⟨hd.trans h.1, hn.trans h.2⟩

theorem Dev.imageTiles_of_run {d e : Dev} (h : e.run = d.run) : e.imageTiles = d.imageTiles := by
  unfold Dev.imageTiles Dev.inImage
  rw [h]

theorem Dev.passCycle_stillLands (d : Dev) : d.passCycle.stillLands = d.stillLands := by
  have tiles : ∀ t, d.passCycle.tileLands t = d.tileLands t := fun t => by
    obtain ⟨hd, hn⟩ := Tile.arrivals_keeps (d.tile t) d.tick.wall
    have hk : d.passCycle.keys = d.keys := by rw [Dev.passCycle_frame]
    simp only [Dev.tileLands, Dev.ksu, Dev.tile_passCycle, Tile.turn, hd, hn, hk]
  have image : d.passCycle.imageTiles = d.imageTiles := Dev.imageTiles_of_run (by rw [Dev.passCycle_frame])
  unfold Dev.stillLands
  rw [image, funext tiles]

/-- A core cycle in which nothing is on its way to a scratchpad or a channel: time passes, and then a run that has been stopped may end. -/
theorem Dev.advance_quiet (d : Dev) (ht : d.transfers = []) (hh : d.held = []) : ∃ e : Dev, d.advance = e.tryEnd ∧
    e.tick = { d.tick with wall := d.tick.wall + 1, cycle := d.tick.cycle + 1, phase := 0 } ∧
    d.log.time + 40000 ≤ e.log.time ∧ e.log.time ≤ d.log.time + 40100 ∧ (d.clocks.sscOn = false → e.log.time = d.log.time + 40000) ∧
    e.run = d.run ∧ e.mem = d.mem ∧ e.host = d.host ∧ e.stillLands = d.stillLands := by
  have frame := Dev.accountAll_frame d
  generalize ha : d.accountAll = a at frame
  have time := Dev.passCycle_time a
  refine ⟨a.passCycle, ?_, ?_, ?_, ?_, ?_, ?_, ?_, ?_, (Dev.passCycle_stillLands a).trans ?_⟩
  · rw [Dev.advance_eq, Dev.serveRemote_none d ht, ha, Dev.serveQueues_none]
    rw [Dev.passCycle_frame, frame]; exact hh
  · rw [Dev.passCycle_frame, frame]
  · rw [frame] at time ⊢; exact time.1
  · rw [frame] at time ⊢; exact time.2.1
  · rw [frame] at time ⊢; exact time.2.2
  · rw [Dev.passCycle_frame, frame]
  · rw [Dev.passCycle_frame, frame]
  · rw [Dev.passCycle_frame, frame]
  · rw [frame]; rfl

theorem Dev.tryEnd_ends (d : Dev) {e : Ending} (h : d.run.ending = some e) (hl : d.stillLands = false) : d.tryEnd = d.endRun.pumpAll := by
  simp [Dev.tryEnd, h, hl]

/- The end of a run (R348, R420, R433; log 46). -/

@[simp] theorem Dev.settled_run (d : Dev) : d.settled.run = { d.run with ending := none } := by
  simp [Dev.settled]

theorem Dev.abandonReductions_keeps (d : Dev) : d.abandonReductions.run = d.run ∧ d.abandonReductions.host.jobs = d.host.jobs := by
  unfold Dev.abandonReductions
  exact List.foldlRecOn (motive := fun x : Dev => x.run = d.run ∧ x.host.jobs = d.host.jobs) _ _ ⟨rfl, rfl⟩ fun x h i _ =>
    ⟨by rw [Dev.event_run, h.1], by rw [Dev.event_jobs, h.2]⟩

@[simp] theorem Dev.closeRun_run (d : Dev) (aborted : Bool) :
    (d.closeRun aborted).run = { d.run with resumable := false, toBegin := none, stopDrain := false, stopDue := false, target := none } := by
  simp [Dev.closeRun, (Dev.abandonReductions_keeps _).1]

@[simp] theorem Dev.finishRunJobs_run (d : Dev) (aborted : Bool) : (d.finishRunJobs aborted).run = d.run := by
  simp [Dev.finishRunJobs]

/-- An ABORT whose accepted requests have landed leaves HALTED, and nothing that ends (R348). -/
theorem Dev.abortEnd_state (d : Dev) : d.abortEnd.run.state = .halted ∧ d.abortEnd.run.ending = none := by
  simp [Dev.abortEnd, Dev.enterHalted]

theorem Dev.dropTest_run (d : Dev) : d.dropTest.run = d.run := by
  unfold Dev.dropTest
  split
  · rfl
  · split
    · simp only [Dev.onMem_run, Dev.drew_run]
    · rfl

theorem Dev.dropTick_run (d : Dev) : d.dropTick.run = d.run := by
  unfold Dev.dropTick
  split <;> rfl

/-- What an entry to FAULTED leaves at its end (R433). -/
theorem Dev.faultEnd_state (d : Dev) (cause : FaultCause) (unit : Nat) : (d.faultEnd cause unit).run = d.run ∧
    (d.faultEnd cause unit).host.jobs = [] ∧ (d.faultEnd cause unit).pins.faultCause = BitVec.ofNat 8 (causeCode cause) := by
  simp [Dev.faultEnd, Dev.noteFault, Dev.dropTest_run, Dev.dropTick_run, Dev.finishAll_every_jobs]

/-- No pending command is left for `closeAll` to finish. -/
theorem Dev.closeAll_jobs (d : Dev) (h : d.host.jobs = []) : d.closeAll.host.jobs = [] := by
  unfold Dev.closeAll
  refine List.foldlRecOn (motive := fun x : Dev => x.host.jobs = []) _ _ h fun x h n _ => ?_
  have hs : ((x.flushStream n).shut n).host.jobs = [] := by rw [Dev.shut, Dev.setStream_jobs, Dev.flushStream_jobs, h]
  simp only [hs, List.find?_nil]

theorem Dev.closeAll_run (d : Dev) : d.closeAll.run = d.run := by
  unfold Dev.closeAll
  refine List.foldlRecOn (motive := fun x : Dev => x.run = d.run) _ _ rfl fun x h n _ => ?_
  have hs : ((x.flushStream n).shut n).run = d.run := (Dev.flushBacklog_reports _ x n).run.trans h
  simp only
  split
  · exact (Dev.finish_frame _ _ _ _).run.trans hs
  · exact hs

theorem Dev.unload_keeps (d : Dev) (h : d.host.jobs = []) : d.unload.host.jobs = [] ∧ d.unload.run.ending = d.run.ending := by
  unfold Dev.unload
  simp only [Dev.mapGroups_host, Dev.mapTiles_host, Dev.mapGroups_run, Dev.mapTiles_run, Dev.closeAll_jobs d h, Dev.closeAll_run, and_self]

/-- What steps 2 to 5 of an FLR leave of the host port and the run (R420). -/
theorem Dev.flrRest_state (d : Dev) (before : DevState) (h : d.run.ending = none) : (d.flrRest before).host.jobs = [] ∧
    (d.flrRest before).host.fetched = [] ∧ (d.flrRest before).run.ending = none := by
  have drop : d.dropJobs.host.jobs = [] ∧ d.dropJobs.run.ending = none := by
    refine ⟨rfl, ?_⟩
    rw [show d.dropJobs.run = d.run from (Dev.dropTick_run _).trans (Dev.dropTest_run d), h]
  obtain ⟨hj, he⟩ := drop
  obtain ⟨uj, ue⟩ := Dev.unload_keeps _ hj
  unfold Dev.flrRest
  simp only
  generalize hx : (if before = .loaded ∨ before = .running ∨ before = .stopping ∨ before = .halted then d.dropJobs.unload.enter .ready 0
    else d.dropJobs) = x
  have state : x.host.jobs = [] ∧ x.run.ending = none := by
    rw [← hx]
    split
    · exact ⟨(Dev.enter_jobs _ _ _).trans uj, by rw [Dev.enter_state, ue, he]⟩
    · exact ⟨hj, he⟩
  generalize hy : (if x.pke.session.isSome = true then { x with pke := x.pke.close } else x) = y
  have state' : y.host.jobs = [] ∧ y.run.ending = none := by
    rw [← hy]
    split <;> exact state
  unfold Dev.flrDone
  rw [Dev.event_jobs, Dev.event_fetched, Dev.event_run]
  exact ⟨state'.1, rfl, state'.2⟩

theorem Dev.flr_end (d : Dev) (before : DevState) (h : d.run.ending = some (.flr before)) :
    d.endRun.pumpAll.host.jobs = [] ∧ d.endRun.pumpAll.run.ending = none := by
  have hr : d.endRun = (d.settled.closeRun true).flrRest before := by simp [Dev.endRun, h]
  obtain ⟨hj, -, he⟩ := Dev.flrRest_state (d.settled.closeRun true) before (by simp)
  rw [hr]
  exact ⟨Dev.pumpAll_jobs_nil _ hj, by rw [Dev.pumpAll_run, he]⟩

theorem Dev.fault_end (d : Dev) (cause : FaultCause) (unit : Nat) (h : d.run.ending = some (.fault cause unit)) :
    d.endRun.pumpAll.host.jobs = [] ∧ d.endRun.pumpAll.run.ending = none ∧
    d.endRun.pumpAll.pins.faultCause = BitVec.ofNat 8 (causeCode cause) := by
  have hr : d.endRun = (d.settled.closeRun true).faultEnd cause unit := by simp [Dev.endRun, h]
  obtain ⟨hs, hj, hf⟩ := Dev.faultEnd_state (d.settled.closeRun true) cause unit
  rw [hr]
  exact ⟨Dev.pumpAll_jobs_nil _ hj, by rw [Dev.pumpAll_run, hs, Dev.closeRun_run, Dev.settled_run], by rw [Dev.pumpAll_pins, hf]⟩

theorem Dev.abort_end (d : Dev) (h : d.run.ending = some .abort) :
    d.endRun.pumpAll.run.state = .halted ∧ d.endRun.pumpAll.run.ending = none := by
  have hr : d.endRun = d.abortEnd := by simp [Dev.endRun, h]
  rw [hr, Dev.pumpAll_run]
  exact Dev.abortEnd_state d

/- The steps. -/

theorem step_empty (s : State) (h : s.pending = []) : step s = .next s.clock := by
  unfold step
  rw [h]

/-- A phase before the last posts its rows, and the next one follows. -/
theorem step_posts (s : State) (hp : s.pending = []) (hr : s.dev.tick.running = true) (h : s.dev.tick.phase < 3) :
    step s = .next { pending := s.dev.phaseRows, dev := { s.dev with tick := { s.dev.tick with phase := s.dev.tick.phase + 1 } } } := by
  rw [step_empty s hp]
  simp [State.clock, hr, hp, Nat.not_le.2 h]

/-- The last phase ends the core cycle. -/
theorem step_advances (s : State) (hp : s.pending = []) (hr : s.dev.tick.running = true) (h : 3 ≤ s.dev.tick.phase) :
    step s = .next { s with dev := s.dev.advance } := by
  rw [step_empty s hp]
  simp [State.clock, hr, h]

/-- While the tick stands, a boot in progress takes its next step. -/
theorem step_boots (s : State) (hp : s.pending = []) (hr : s.dev.tick.running = false) {b : Booting} (hb : s.dev.booting = some b) :
    step s = .next { s with dev := s.dev.bootStep b } := by
  rw [step_empty s hp]
  simp [State.clock, hr, hb]

theorem step_idles (s : State) (hp : s.pending = []) (hr : s.dev.tick.running = false) (hb : s.dev.booting = none) : step s = .next s := by
  rw [step_empty s hp]
  simp [State.clock, hr, hb]

/-- Settles O3: while the tick stands the clock idles or boots; else each phase posts the rows of its list, whose members the lemmas above name, and the last
phase ends the cycle. -/
theorem emptyQueueSteps : Obligations.EmptyQueueSteps := by
  refine ⟨fun s hp hr => ?_, fun s hp hr => ?_⟩
  · exact ⟨step_idles s hp hr, fun b => step_boots s hp hr⟩
  · intro d k posts lost
    have ends : 3 ≤ k.phase → d.transfers = [] → d.held = [] → d.stillLands = false → ∀ e, d.run.ending = some e →
        ∃ x : Dev, step s = .next { s with dev := x.endRun.pumpAll } ∧ x.run.ending = some e := by
      intro h ht hh hl e he
      obtain ⟨x, ha, -, -, -, -, xrun, -, -, xl⟩ := Dev.advance_quiet d ht hh
      have hx : x.run.ending = some e := by rw [xrun, he]
      exact ⟨x, by rw [step_advances s hp hr h, ha, Dev.tryEnd_ends x hx (xl.trans hl)], hx⟩
    refine ⟨fun h => ?_, fun h => ?_, fun h => ?_, fun h ht hh hl => ⟨fun he => ?_, fun old he => ?_, fun cause unit he => ?_⟩, fun h ht hh he => ?_⟩
    · exact ⟨d.edgeRows, Dev.mem_edgeRows d, by rw [step_posts s hp hr (h ▸ by omega)]; simp [Dev.phaseRows, d, k, h]⟩
    · exact ⟨d.drainRows, Dev.mem_drainRows d, by rw [step_posts s hp hr (h ▸ by omega)]; simp [Dev.phaseRows, d, k, h]⟩
    · exact ⟨d.refreshRows ++ d.stageRows, fun c => by rw [List.mem_append, Dev.mem_refreshRows, Dev.mem_stageRows],
        by rw [step_posts s hp hr (h ▸ by omega)]; simp [Dev.phaseRows, d, k, h]⟩
    · obtain ⟨x, hs, hx⟩ := ends h ht hh hl _ he
      exact ⟨_, hs, Dev.abort_end x hx⟩
    · obtain ⟨x, hs, hx⟩ := ends h ht hh hl _ he
      exact ⟨_, hs, Dev.flr_end x old hx⟩
    · obtain ⟨x, hs, hx⟩ := ends h ht hh hl _ he
      exact ⟨_, hs, Dev.fault_end x cause unit hx⟩
    · obtain ⟨x, ha, xtick, x1, x2, x3, xrun, xmem, xhost, -⟩ := Dev.advance_quiet d ht hh
      refine ⟨x, ?_, xtick, x1, x2, x3, xrun, xmem, xhost⟩
      rw [step_advances s hp hr h, ha, Dev.tryEnd_none x (by rw [xrun, he])]

end Sys2Proof.Machine

/- Results that land and rows that reach their unit (R52, R59, R132, R141 to R144). -/

namespace Sys2Proof.Machine

/- Landing one result. -/

theorem Tile.landDue_one {x : Tile} {pipe : Nat} {fl : Flight} {dest : Dest} (hf : x.flights = [fl]) (hp : fl.due < pipe) (hd : fl.dests = [dest]) :
    x.landDue pipe = ({ x with flights := [] } : Tile).land dest := by
  cases hc : dest.isClear <;> simp [Tile.landDue, hf, hp, hd, hc]

/-- No result that lands halts its tile. -/
theorem Tile.land_halts (x : Tile) (dest : Dest) :
    (x.land dest).halted = x.halted ∧ (x.land dest).haltRank = x.haltRank ∧ (x.land dest).haltIssue = x.haltIssue ∧ (x.land dest).flights = x.flights := by
  cases dest with
  | row r v => unfold Tile.land Tile.engineWrite Tile.portWrite Tile.keepOld; simp only [List.foldl]; split <;> exact ⟨rfl, rfl, rfl, rfl⟩
  | clear reg bits => unfold Tile.land; simp only; split; exact ⟨rfl, rfl, rfl, rfl⟩; split <;> exact ⟨rfl, rfl, rfl, rfl⟩
  | _ => exact ⟨rfl, rfl, rfl, rfl⟩

/-- A change of a tile that leaves its halt as it is has no consequence beyond the tile. -/
theorem Dev.onTile_kept (d : Dev) (t : TileId) (f : Tile → Tile) (h : (f (d.tile t)).halted = (d.tile t).halted)
    (hr : (f (d.tile t)).haltRank = (d.tile t).haltRank) (hi : (f (d.tile t)).haltIssue = (d.tile t).haltIssue) :
    d.onTile t f = d.setTile t (f (d.tile t)) := by
  simp [Dev.onTile, h, hr, hi]

theorem lane_mkVec (f : Nat → Residue) {j : Nat} (hj : j < 1024) : lane (mkVec f) j = f j := by
  simp [lane, mkVec, hj]

/-- R59: a masked writeback changes the lanes of its mask. -/
theorem lane_mergeVec (old new : Vec) (m : BitVec 1024) {j : Nat} (hj : j < 1024) :
    lane (mergeVec old new m) j = if m.getLsbD j then lane new j else lane old j := by
  unfold mergeVec
  split
  next h => simp only [h, BitVec.getLsbD_allOnes, hj, decide_true, if_true]
  next => exact lane_mkVec _ hj

/-- What a port still reads of a row that is being written (R131). -/
theorem Tile.keepOld_find (x : Tile) (r : Nat) : (x.keepOld r).before.find? (fun p => p.1 == r) =
    some ((x.before.find? (fun p => p.1 == r)).getD (r, x.rowAt r, x.ceRows.contains r)) := by
  unfold Tile.keepOld
  split
  next h =>
    obtain ⟨p, hp⟩ := Option.isSome_iff_exists.1 (List.find?_isSome.2 (List.any_eq_true.1 h))
    rw [hp]; rfl
  next h =>
    have hn : x.before.find? (fun p => p.1 == r) = none :=
      List.find?_eq_none.2 fun p hp e => h (List.any_eq_true.2 ⟨p, hp, e⟩)
    simp [hn]

theorem Tile.keepOld_frame (x : Tile) (r : Nat) : x.keepOld r = { x with before := (x.keepOld r).before } := by
  unfold Tile.keepOld
  split <;> rfl

/-- A row that the engine writes: reads in flight are of what it held before, and ports read that until the cycle ends (R131, R141). -/
theorem Tile.land_row (x : Tile) (r : Nat) (v : Row) : x.land (.row r v) = { x with
    scratch := Store.write rowDefault x.scratch r v, ceRows := x.ceRows.filter (· != r), slotWrites := x.slotWrites ++ [bankOf r]
    before := (x.keepOld r).before, reads := x.reads.map (fun z => if z.row = r then { z with writes := z.writes + 1 } else z) } := by
  show ({ (x.keepOld r).setRow r v with slotWrites := _ } : Tile) = _
  rw [Tile.keepOld_frame]
  rfl

end Sys2Proof.Machine

namespace Sys2Proof.Machine

/-- A tile of a group in which a result is due: it lands, and nothing else changes. -/
theorem State.writeback_one {s : State} {t : TileId} {g : GroupId} (hg : s.dev.groupOf t = some g) {fl : Flight} {dest : Dest}
    (hf : (s.dev.tile t).flights = [fl]) (hp : fl.due < (s.sees t g).pipe) (hd : fl.dests = [dest]) :
    s.answers (.engineWriteback t) (s.dev.setTile t (({ s.dev.tile t with flights := [] } : Tile).land dest)) := by
  have land : (s.dev.tile t).landDue (s.dev.issueCtx t g).pipe = ({ s.dev.tile t with flights := [] } : Tile).land dest := Tile.landDue_one hf hp hd
  obtain ⟨h1, h2, h3, -⟩ := Tile.land_halts { s.dev.tile t with flights := [] } dest
  have act : s.dev.onMember t (fun ctx x => x.landDue ctx.pipe) = s.dev.setTile t (({ s.dev.tile t with flights := [] } : Tile).land dest) := by
    simp only [Dev.onMember, hg]
    rw [Dev.onTile_kept] <;> rw [land]
    · exact h1
    · exact h2
    · exact h3
  exact congrArg (fun d => Host.Outcome.next { s with dev := d }) act

/- What each kind of result leaves (R52, R59, R71, R131, R144, R188, R291). -/

theorem Tile.land_vector (x : Tile) (n : BitVec 5) (v : Vec) (m : BitVec 1024) : let y := x.land (.v n v m)
    y = { x with v := x.v.set n.toNat (y.vreg n) } ∧
    ∀ j, j < 1024 → lane (y.vreg n) j = if m.getLsbD j then lane v j else lane (x.vreg n) j := by
  have reg : (x.land (.v n v m)).vreg n = mergeVec (x.vreg n) v m := by simp [Tile.land, Tile.vreg]
  intro y
  rw [reg]
  exact ⟨rfl, fun j hj => lane_mergeVec _ _ _ hj⟩

theorem Tile.land_mask (x : Tile) (n : BitVec 3) (v m : BitVec 1024) : let y := x.land (.k n v m)
    y = { x with k := x.k.set n.toNat (y.kreg n) } ∧
    ∀ j, (y.kreg n).getLsbD j = if m.getLsbD j then v.getLsbD j else (x.kreg n).getLsbD j := by
  have reg : (x.land (.k n v m)).kreg n = (v &&& m) ||| (x.kreg n &&& ~~~m) := by simp [Tile.land, Tile.kreg]
  intro y
  rw [reg]
  refine ⟨rfl, fun j => ?_⟩
  simp only [BitVec.getLsbD_or, BitVec.getLsbD_and, BitVec.getLsbD_not]
  cases hm : m.getLsbD j
  · by_cases hj : j < 1024
    · simp [hj]
    · simp [BitVec.getLsbD_of_ge _ _ (Nat.not_lt.1 hj)]
  · simp

theorem Tile.land_header (x : Tile) (n : BitVec 3) (h : Header) (tag : Option Tag) : let y := x.land (.hop n h tag)
    y = { x with h := x.h.set n.toNat (y.hreg n), poisonLatch := false } ∧
    (y.hreg n).hdr = { h with poison := h.poison || x.poisonLatch } ∧ (y.hreg n).home = (x.hreg n).home ∧ (y.hreg n).tag = tag.getD (x.hreg n).tag := by
  have reg : (x.land (.hop n h tag)).hreg n =
      { x.hreg n with hdr := { h with poison := h.poison || x.poisonLatch }, tag := tag.getD (x.hreg n).tag } := by simp [Tile.land, Tile.hreg]
  intro y
  rw [reg]
  exact ⟨rfl, rfl, rfl, rfl⟩

theorem Tile.land_scratch (x : Tile) (r : Nat) (v : Row) (hx : x.wf = true) : let y := x.land (.row r v)
    y = { x with scratch := y.scratch, ceRows := x.ceRows.filter (· != r), slotWrites := x.slotWrites ++ [bankOf r], before := y.before
                 reads := x.reads.map (fun z => if z.row = r then { z with writes := z.writes + 1 } else z) } ∧
    y.before.find? (fun p => p.1 == r) = some ((x.before.find? (fun p => p.1 == r)).getD (r, x.rowAt r, x.ceRows.contains r)) ∧
    ∀ q, y.rowAt q = if q = r then v else x.rowAt q := by
  intro y
  have hy : y = _ := Tile.land_row x r v
  rw [hy]
  exact ⟨rfl, Tile.keepOld_find x r, fun q => Store.read_write rowDefault r v q hx⟩

theorem Tile.land_release (x : Tile) (r : BitVec 2) : let y := x.land (.release r)
    y = { x with rings := y.rings } ∧ (y.rings[r.toNat]).release = (x.rings[r.toNat]).release + 1 := by
  refine ⟨rfl, ?_⟩
  simp [Tile.land, Ring.releaseHead]

theorem Tile.land_clear (x : Tile) (reg : BitVec 2) (bits : Word) : let y := x.land (.clear reg bits)
    (reg = 0 → y = { x with mveFlags := x.mveFlags &&& ~~~(bits &&& ~~~x.raised.mve) }) ∧
    (reg = 1 → y = { x with nma := { x.nma with flags := x.nma.flags &&& ~~~(bits &&& ~~~x.raised.nma) } }) ∧
    (reg = 2 → y = x.clearScr (bits &&& ~~~x.raised.scr)) := by
  refine ⟨?_, ?_, ?_⟩ <;> rintro rfl <;> rfl

theorem test (s : State) (t : TileId) (g : GroupId) (hg : s.dev.groupOf t = some g) : let x := s.dev.tile t
    (∀ (fl : Flight) (dest : Dest), x.wf = true → x.flights = [fl] → fl.due < (s.sees t g).pipe → fl.dests = [dest] →
      ∃ y : Tile, s.answers (.engineWriteback t) (s.dev.setTile t y) ∧ y.flights = [] ∧ match dest with
        | .v n v m => y = { x with flights := [], v := x.v.set n.toNat (y.vreg n) } ∧
          ∀ j, j < 1024 → lane (y.vreg n) j = if m.getLsbD j then lane v j else lane (x.vreg n) j
        | .k n v m => y = { x with flights := [], k := x.k.set n.toNat (y.kreg n) } ∧
          ∀ j, (y.kreg n).getLsbD j = if m.getLsbD j then v.getLsbD j else (x.kreg n).getLsbD j
        | .s n v => y = { x with flights := [], s := x.s.set n.toNat v }
        | .a n v => y = { x with flights := [], a := x.a.set n.toNat v }
        | .hop n h tag => y = { x with flights := [], h := x.h.set n.toNat (y.hreg n), poisonLatch := false } ∧
          (y.hreg n).hdr = { h with poison := h.poison || x.poisonLatch } ∧ (y.hreg n).home = (x.hreg n).home ∧ (y.hreg n).tag = tag.getD (x.hreg n).tag
        | .hld n h home => y = { x with flights := [], h := x.h.set n.toNat { hdr := h, home := home, tag := {} } }
        | .home n row => y = { x with flights := [], h := x.h.set n.toNat { x.hreg n with home := row } }
        | .row r v =>
          y = { x with flights := [], scratch := y.scratch, ceRows := x.ceRows.filter (· != r), slotWrites := x.slotWrites ++ [bankOf r], before := y.before
                       reads := x.reads.map (fun z => if z.row = r then { z with writes := z.writes + 1 } else z) } ∧
          y.before.find? (fun p => p.1 == r) = some ((x.before.find? (fun p => p.1 == r)).getD (r, x.rowAt r, x.ceRows.contains r)) ∧
          ∀ q, y.rowAt q = if q = r then v else x.rowAt q
        | .mve bits => y = { x with flights := [], mveFlags := x.mveFlags ||| bits, raised := { x.raised with mve := x.raised.mve ||| bits } }
        | .clear reg bits => (reg = 0 → y = { x with flights := [], mveFlags := x.mveFlags &&& ~~~(bits &&& ~~~x.raised.mve) }) ∧
          (reg = 1 → y = { x with flights := [], nma := { x.nma with flags := x.nma.flags &&& ~~~(bits &&& ~~~x.raised.nma) } }) ∧
          (reg = 2 → y = ({ x with flights := [] } : Tile).clearScr (bits &&& ~~~x.raised.scr))
        | .pad n w => y = { x with flights := [], pads := x.pads.set n.toNat w }
        | .release r => y = { x with flights := [], rings := y.rings } ∧ (y.rings[r.toNat]).release = (x.rings[r.toNat]).release + 1) := by
  intro x fl dest hwf hf hp hd
  refine ⟨_, State.writeback_one hg hf hp hd, (Tile.land_halts _ _).2.2.2, ?_⟩
  cases dest with
  | v n v m => exact Tile.land_vector _ n v m
  | k n v m => exact Tile.land_mask _ n v m
  | hop n h tag => exact Tile.land_header _ n h tag
  | row r v => exact Tile.land_scratch _ r v hwf
  | clear reg bits => exact Tile.land_clear _ reg bits
  | release r => exact Tile.land_release _ r
  | s | a | hld | home | mve | pad => rfl

end Sys2Proof.Machine

namespace Sys2Proof.Machine

/- A tile that halts. -/

theorem Dev.onTile_congr (d : Dev) (t : TileId) {f f' : Tile → Tile} (h : f (d.tile t) = f' (d.tile t)) : d.onTile t f = d.onTile t f' := by
  simp only [Dev.onTile, h]

theorem Dev.onTile_halts (d : Dev) (t : TileId) (f : Tile → Tile) (h : (d.tile t).halted = false) (hf : (f (d.tile t)).halted = true) :
    d.onTile t f = (d.setTile t (f (d.tile t))).noteHalt t := by
  simp [Dev.onTile, h, hf]

/-- Of the halted tile the device changes its SEQ and its sentinel's sample alone (R115, R270). -/
theorem Dev.tile_noteHalt (d : Dev) (t : TileId) : ∃ n, (d.noteHalt t).tile t =
    { d.tile t with haltSeq := n, sent := { (d.tile t).sent with sample := none } } := by
  have tiles : ∀ e : Dev, ∀ ev data, (e.event t.toNat ev data).tile t = e.tile t := fun e ev data => by
    unfold Dev.tile
    rw [Dev.event_tiles]
  unfold Dev.noteHalt
  simp only [tiles]
  split <;> exact ⟨_, Dev.tile_setTile d t _⟩

theorem Tile.halt_going (x : Tile) (sched : Nat) (h : HaltRec) (hx : x.halted = false) : x.halt sched h = x.record sched h := by
  simp [Tile.halt, hx]

/-- A change that halts a going tile is seen in it but for SEQ and the sentinel's sample. -/
theorem Dev.tile_onTile_halts (d : Dev) (t : TileId) (f : Tile → Tile) (h : (d.tile t).halted = false) (hf : (f (d.tile t)).halted = true) :
    ∃ n, (d.onTile t f).tile t = { f (d.tile t) with haltSeq := n, sent := { (f (d.tile t)).sent with sample := none } } := by
  rw [Dev.onTile_halts d t f h hf]
  obtain ⟨n, hn⟩ := Dev.tile_noteHalt (d.setTile t (f (d.tile t))) t
  rw [Dev.tile_setTile] at hn
  exact ⟨n, hn⟩

/- The finding on a row. -/

/-- In an open cycle whose frozen cycles for corrected rows have passed, the tile's next read meets the finding. -/
theorem State.row_meets {s : State} {t : TileId} {g : GroupId} (hg : s.dev.groupOf t = some g) (ho : s.dev.cycleOpen (s.dev.group g) = true)
    (he : s.dev.correctionDue (s.dev.group g) = true → (s.dev.group g).eccFor = some (s.dev.group g).pipe) {r : RowRead}
    (hr : (s.dev.tile t).nextRead (s.dev.group g).pipe = some r) (ecc : EccOutcome) :
    s.answers (.engineRowDelivery t ecc) (s.dev.onTile t (fun x => x.rowMeets (s.sees t g) ecc r)) := by
  have act : s.dev.onOpen t (fun ctx x => match x.nextRead ctx.pipe with | some r => x.rowMeets ctx ecc r | none => x) =
      s.dev.onTile t (fun x => x.rowMeets (s.sees t g) ecc r) := by
    simp only [Dev.onOpen, hg, Dev.insertEcc_done s.dev g he, ho, if_true]
    refine Dev.onTile_congr _ _ ?_
    have : (s.dev.tile t).nextRead (s.dev.issueCtx t g).pipe = some r := hr
    simp only [this]
    rfl
  exact congrArg (fun d => Host.Outcome.next { s with dev := d }) act

theorem Tile.nextRead_only {x : Tile} {pipe : Nat} {r : RowRead} (h : x.reads = [r]) (hj : r.judged = false) (hp : r.due ≤ pipe) :
    x.nextRead pipe = some r := by
  simp [Tile.nextRead, h, hj, hp]

theorem Tile.nextRead_second {x : Tile} {pipe : Nat} {q r : RowRead} (h : x.reads = [q, r]) (hq : q.judged = true) (hj : r.judged = false)
    (hp : r.due ≤ pipe) : x.nextRead pipe = some r := by
  simp [Tile.nextRead, h, hq, hj, hp]

/-- A halt at delivery: the rest of the tile stays but for what its instruction would have written (R143). -/
def Tile.stoppedAt (x : Tile) (sched : Nat) (r : RowRead) (reason : HaltReason) : Tile :=
  (x.cancel r.seq).record sched { reason := reason, bundle := r.bundle, slot := r.slot.code, issue := r.seq }

section Delivery

variable {x : Tile} (ctx : IssueCtx) {r : RowRead}

theorem Tile.deliver_uncorrectable (hx : x.halted = false) : x.deliver ctx r .uncorrectable =
    ({ x with reads := x.reads.erase r, errRow := BitVec.ofNat 15 r.row, errPort := 0, errKind := 1 } : Tile).stoppedAt ctx.sched r .uncorrectable :=
  Tile.halt_going _ _ _ hx

theorem Tile.deliver_clean (hp : r.poisoned = false) (hr : r.reader ≠ .header true) :
    x.deliver ctx r .clean = { x with reads := x.reads.erase r } := by
  unfold Tile.deliver
  simp only [reduceCtorEq, if_false, hp, Bool.false_and, Bool.false_eq_true]

theorem Tile.deliver_corrected (hp : r.poisoned = false) (hr : r.reader ≠ .header true) : x.deliver ctx r .corrected =
    { ((({ x with reads := x.reads.erase r } : Tile).raiseScr 1).findError r.row r.writes) with ceEngine := satInc x.ceEngine } := by
  unfold Tile.deliver
  simp only [if_true, hp, Bool.false_and, Bool.false_eq_true, if_false]

theorem Tile.deliver_poisoned (hp : r.poisoned = true) (hc : ctx.poisonHalt = false) (hr : r.reader ≠ .header true) : x.deliver ctx r .clean =
    { x with reads := x.reads.erase r, errRow := BitVec.ofNat 15 r.row, errPort := 0, errKind := 2, poisonLatch := true } := by
  unfold Tile.deliver
  simp only [reduceCtorEq, if_false, hp, hc, Bool.and_false, Bool.false_eq_true, if_true]
  rfl

theorem Tile.deliver_poison_halt (hx : x.halted = false) (hp : r.poisoned = true) (hc : ctx.poisonHalt = true) : x.deliver ctx r .clean =
    ({ x with reads := x.reads.erase r, errRow := BitVec.ofNat 15 r.row, errPort := 0, errKind := 2 } : Tile).stoppedAt ctx.sched r .poisonRead := by
  unfold Tile.deliver
  simp only [reduceCtorEq, if_false, hp, hc, Bool.and_self, if_true]
  exact Tile.halt_going _ _ _ hx

theorem Tile.deliver_bad_header (hx : x.halted = false) (hp : r.poisoned = false) (hr : r.reader = .header true) : x.deliver ctx r .clean =
    ({ x with reads := x.reads.erase r } : Tile).stoppedAt ctx.sched r .headerInvalid := by
  unfold Tile.deliver
  simp only [reduceCtorEq, if_false, hp, hr, Bool.false_and, Bool.false_eq_true]
  exact Tile.halt_going _ _ _ hx

end Delivery

/-- R141, R241: a row found correctable is held back. -/
theorem Tile.correct_only {x : Tile} {r : RowRead} (h : x.reads = [r]) : x.correct r =
    { x with reads := [{ r with corrected := true, judged := true }]
             ceRows := if r.writes ≠ 0 ∨ x.ceRows.contains r.row = true then x.ceRows else r.row :: x.ceRows } := by
  simp [Tile.correct, Tile.judge, Tile.findError, h]

section Findings

variable {s : State} {t : TileId} {g : GroupId} {r : RowRead} {ecc : EccOutcome} {y : Tile}

/-- A finding that halts the tile: what is seen of the row and of the halt. -/
theorem State.row_halts {reason : HaltReason} (meets : s.answers (.engineRowDelivery t ecc) (s.dev.onTile t (fun x => x.rowMeets (s.sees t g) ecc r)))
    (hh : (s.dev.tile t).halted = false) (hy : (s.dev.tile t).rowMeets (s.sees t g) ecc r = y.stoppedAt (s.sees t g).sched r reason) :
    ∃ d : Dev, s.answers (.engineRowDelivery t ecc) d ∧ (d.tile t).halted = true ∧ (d.tile t).haltReason = reason ∧ (d.tile t).haltAddr = r.bundle ∧
      (d.tile t).errRow = y.errRow ∧ (d.tile t).errKind = y.errKind ∧ (d.tile t).scratch = y.scratch ∧ (d.tile t).h = y.h ∧ (d.tile t).reads = y.reads := by
  obtain ⟨n, hn⟩ := Dev.tile_onTile_halts s.dev t (fun x => x.rowMeets (s.sees t g) ecc r) hh (congrArg Tile.halted hy)
  refine ⟨_, meets, ?_⟩
  rw [hn, hy]
  exact ⟨rfl, rfl, rfl, rfl, rfl, rfl, rfl, rfl⟩

/-- A finding that leaves the tile going. -/
theorem State.row_goes_on (meets : s.answers (.engineRowDelivery t ecc) (s.dev.onTile t (fun x => x.rowMeets (s.sees t g) ecc r)))
    (hy : (s.dev.tile t).rowMeets (s.sees t g) ecc r = y) (h1 : y.halted = (s.dev.tile t).halted) (h2 : y.haltRank = (s.dev.tile t).haltRank)
    (h3 : y.haltIssue = (s.dev.tile t).haltIssue) : s.answers (.engineRowDelivery t ecc) (s.dev.setTile t y) := by
  rw [Dev.onTile_kept _ _ _ ((congrArg Tile.halted hy).trans h1) ((congrArg Tile.haltRank hy).trans h2) ((congrArg Tile.haltIssue hy).trans h3), hy] at meets
  exact meets

end Findings

/-- Settles O44: each kind of result by the lemma on its landing, each finding on a row by the lemma on its delivery. -/
theorem resultsLand : Obligations.ResultsLand := by
  intro s t g hg x
  refine ⟨fun fl dest hwf hf hp hd => ?_, fun r hx hj hp ho he hh => ?_, fun held r hx hq hj hp ho he hh => ?_⟩
  · refine ⟨_, State.writeback_one hg hf hp hd, (Tile.land_halts _ _).2.2.2, ?_⟩
    cases dest with
    | v n v m => exact Tile.land_vector _ n v m
    | k n v m => exact Tile.land_mask _ n v m
    | hop n h tag => exact Tile.land_header _ n h tag
    | row r v => exact Tile.land_scratch _ r v hwf
    | clear reg bits => exact Tile.land_clear _ reg bits
    | release r => exact Tile.land_release _ r
    | s | a | hld | home | mve | pad => rfl
  · have meets := State.row_meets hg ho he (Tile.nextRead_only hx hj hp)
    have gone : x.reads.erase r = [] := by simp [hx]
    have clean : r.corrected = false → x.rowMeets (s.sees t g) .clean r = x.deliver (s.sees t g) r .clean := fun hc => by simp [Tile.rowMeets, hc]
    refine ⟨?_, fun hc => ⟨?_, fun hr hn => ?_, fun hr hn => ?_, fun hr hn hb => ?_, fun hr hn => ?_, fun hn hb => ?_⟩⟩
    · obtain ⟨d, ha, h1, h2, h3, h4, h5, h6, -⟩ := State.row_halts (meets .uncorrectable) hh (Tile.deliver_uncorrectable _ hh)
      exact ⟨d, ha, h1, h2, h3, h4, h5, h6⟩
    · exact State.row_goes_on (meets .corrected) (Tile.correct_only hx) rfl rfl rfl
    · exact State.row_goes_on (meets .clean) (by rw [clean hc, Tile.deliver_clean _ hn hr, gone]) rfl rfl rfl
    · have late : ({ r with corrected := true, judged := true } : RowRead).poisoned = false := hn
      rw [Tile.meet, if_pos rfl, Tile.deliver_corrected _ late hr]
      simp [Tile.raiseScr, Tile.findError]
    · exact State.row_goes_on (meets .clean) (by rw [clean hc, Tile.deliver_poisoned _ hn hb hr, gone]) rfl rfl rfl
    · obtain ⟨d, ha, h1, h2, h3, -, -, -, h4, -⟩ := State.row_halts (meets .clean) hh ((clean hc).trans (Tile.deliver_bad_header _ hh hn hr))
      exact ⟨d, ha, h1, h2, h3, h4⟩
    · obtain ⟨d, ha, h1, h2, h3, -, -, h4, -⟩ := State.row_halts (meets .clean) hh ((clean hc).trans (Tile.deliver_poison_halt _ hh hn hb))
      exact ⟨d, ha, h1, h2, h3, h4⟩
  · have meets := State.row_meets hg ho he (Tile.nextRead_second hx hq hj hp)
    have differ : held ≠ r := fun h => by rw [h, hj] at hq; exact Bool.false_ne_true hq
    have gone : x.reads.erase r = [held] := by simp [hx, differ]
    obtain ⟨d, ha, h1, h2, h3, h4, -, -, -, h5⟩ := State.row_halts (meets .uncorrectable) hh (Tile.deliver_uncorrectable _ hh)
    exact ⟨d, ha, h1, h2, h3, h4, h5.trans gone⟩

end Sys2Proof.Machine

/- Byte strings in sectors (R1, R206, R320). -/

namespace Sys2Proof.Machine

theorem testBit_packNat_one (f : Nat → Bool) (n j : Nat) : (packNat 1 (fun i => (f i).toNat) n).testBit j = (decide (j < n) && f j) := by
  have bound : ∀ n, packNat 1 (fun i => (f i).toNat) n < 2 ^ n := fun n => by
    induction n with
    | zero => simp [packNat]
    | succ n ih =>
      have : (f n).toNat ≤ 1 := Bool.toNat_le _
      simp only [packNat, Nat.one_mul, Nat.pow_succ]
      nlinarith [Nat.two_pow_pos n]
  induction n with
  | zero => simp [packNat]
  | succ n ih =>
    simp only [packNat, Nat.one_mul]
    rw [Nat.add_comm, Nat.mul_comm, Nat.testBit_two_pow_mul_add _ (bound n)]
    split
    next h => rw [ih]; simp [h, Nat.lt_succ_of_lt h]
    next h =>
      obtain ⟨k, rfl⟩ := Nat.exists_eq_add_of_le (Nat.not_lt.1 h)
      cases k with
      | zero => cases f n <;> simp
      | succ k => cases f n <;> simp [Nat.testBit_succ]

/-- Bit k of byte i of a byte string is bit 8i + k of its value (R1). -/
theorem testBit_leNat (bs : List Byte) (i : Nat) {k : Nat} (hk : k < 8) : (leNat bs).testBit (8 * i + k) = (bs.getD i 0).getLsbD k := by
  induction bs generalizing i with
  | nil => simp [leNat]
  | cons b bs ih =>
    have hb : b.toNat < 2 ^ 8 := b.isLt
    rw [leNat, Nat.add_comm, show 256 = 2 ^ 8 from rfl, Nat.testBit_two_pow_mul_add _ hb]
    cases i with
    | zero => simp [hk, BitVec.getLsbD]
    | succ i =>
      rw [if_neg (by omega), show 8 * (i + 1) + k - 8 = 8 * i + k by omega, ih]
      simp

/-- The bytes of a sector after a write within it. -/
theorem Sector.patch_byte (x : Sector) (a : Nat) (bs : List Byte) {i : Nat} (hi : i < 576) : (x.patch a bs).data.extractLsb' (8 * i) 8 =
    if a ≤ i ∧ i < a + bs.length then bs.getD (i - a) 0 else x.data.extractLsb' (8 * i) 8 := by
  refine BitVec.eq_of_getLsbD_eq fun k hk => ?_
  have mask : ((2 ^ (8 * bs.length) - 1) * 2 ^ (8 * a)).testBit (8 * i + k) = decide (a ≤ i ∧ i < a + bs.length) := by
    rw [Nat.testBit_mul_two_pow, Nat.testBit_two_pow_sub_one, ← Bool.decide_and]
    exact decide_eq_decide.2 (by omega)
  have new : (leNat bs * 2 ^ (8 * a)).testBit (8 * i + k) = (decide (a ≤ i) && (bs.getD (i - a) 0).getLsbD k) := by
    rw [Nat.testBit_mul_two_pow]
    by_cases h : a ≤ i
    · rw [show 8 * i + k - 8 * a = 8 * (i - a) + k by omega, testBit_leNat _ _ hk]
      simp [h, show 8 * a ≤ 8 * i + k by omega]
    · simp [h, show ¬ 8 * a ≤ 8 * i + k by omega]
  have inside : 8 * i + k < 4608 := by omega
  simp only [Sector.patch, BitVec.getLsbD_extractLsb', BitVec.getLsbD_or, BitVec.getLsbD_and, BitVec.getLsbD_not, BitVec.getLsbD_ofNat, mask, new, hk,
    inside, decide_true, Bool.true_and]
  by_cases h : a ≤ i ∧ i < a + bs.length
  · simp [h]
  · rw [if_neg h]
    have out : (decide (a ≤ i) && (bs.getD (i - a) 0).getLsbD k) = false := by
      by_cases ha : a ≤ i
      · rw [List.getD_eq_default _ _ (by omega)]; simp
      · simp [ha]
    rw [out]
    simp [h, hk]

/-- R206: a codeword that the write covers whole loses its poison. -/
theorem Sector.patch_poison (x : Sector) (a : Nat) (bs : List Byte) {c : Nat} (hc : c < 32) : (x.patch a bs).poison.getLsbD c =
    if a ≤ 18 * c ∧ 18 * c + 18 ≤ a + bs.length then false else x.poison.getLsbD c := by
  simp only [Sector.patch, BitVec.getLsbD_and, BitVec.getLsbD_not, BitVec.getLsbD_ofNat, testBit_packNat_one, hc, decide_true, Bool.true_and, ← Bool.decide_and]
  by_cases h : a ≤ 18 * c ∧ 18 * c + 18 ≤ a + bs.length
  · simp [h]
  · simp only [h, decide_false, Bool.not_false, Bool.and_true, if_false]

/-- R320: a poisoned write poisons every codeword that it touches. -/
theorem Sector.patchPoisoned_poison (x : Sector) (a : Nat) (bs : List Byte) {c : Nat} (hc : c < 32) : (x.patchPoisoned a bs).poison.getLsbD c =
    if a < 18 * c + 18 ∧ 18 * c < a + bs.length then true else (x.patch a bs).poison.getLsbD c := by
  simp only [Sector.patchPoisoned, BitVec.getLsbD_or, BitVec.getLsbD_ofNat, testBit_packNat_one, hc, decide_true, Bool.true_and, ← Bool.decide_and]
  by_cases h : a < 18 * c + 18 ∧ 18 * c < a + bs.length
  · simp [h]
  · simp only [h, decide_false, Bool.or_false, if_false]

/-- The sector that a write within it leaves, `Dev.writePiece`'s own: a write of all of it does not read it first. -/
def Sector.written (x : Sector) (a : Nat) (bs : List Byte) (poisoned : Bool) : Sector :=
  let base := if bs.length = 576 then {} else x
  if poisoned then base.patchPoisoned a bs else base.patch a bs

section Written

variable (x : Sector) {a : Nat} {bs : List Byte} (poisoned : Bool) (within : a + bs.length ≤ 576)
include within

theorem Sector.written_byte {i : Nat} (hi : i < 576) : (x.written a bs poisoned).data.extractLsb' (8 * i) 8 =
    if a ≤ i ∧ i < a + bs.length then bs.getD (i - a) 0 else x.data.extractLsb' (8 * i) 8 := by
  have data : (x.written a bs poisoned).data = ((if bs.length = 576 then {} else x : Sector).patch a bs).data := by
    cases poisoned <;> rfl
  rw [data, Sector.patch_byte _ _ _ hi]
  by_cases whole : bs.length = 576
  · rw [if_pos (by omega), if_pos (by omega)]
  · rw [if_neg whole]

theorem Sector.written_poison {c : Nat} (hc : c < 32) : (x.written a bs poisoned).poison.getLsbD c =
    if poisoned = true ∧ a < 18 * c + 18 ∧ 18 * c < a + bs.length then true
    else if a ≤ 18 * c ∧ 18 * c + 18 ≤ a + bs.length then false else x.poison.getLsbD c := by
  have clean : ((if bs.length = 576 then {} else x : Sector).patch a bs).poison.getLsbD c =
      if a ≤ 18 * c ∧ 18 * c + 18 ≤ a + bs.length then false else x.poison.getLsbD c := by
    rw [Sector.patch_poison _ _ _ hc]
    by_cases whole : bs.length = 576
    · rw [if_pos (by omega), if_pos (by omega)]
    · rw [if_neg whole]
  cases poisoned
  · simp only [Sector.written, Bool.false_eq_true, if_false, false_and, clean]
  · simp only [Sector.written, if_true, Sector.patchPoisoned_poison _ _ _ hc, clean, true_and]

end Written

end Sys2Proof.Machine

/- The BAR4 window (R206, R207, R320). -/

namespace Sys2Proof.Machine

/- Reads and writes of a channel whose ECC finds nothing. -/

theorem Mem.readNear_frame (m : Mem) (p o : Nat) : m.readNear p o = ({ m with channels := (m.readNear p o).1.channels }, m.peekNear p o) := by
  unfold Mem.readNear
  split <;> rfl

/-- A read on which the ECC finds nothing counts at its channel, and gives what the sector holds. -/
theorem Dev.readNear_clean (d : Dev) (p o : Nat) : ∃ cs, d.readNear p o {} = ({ d with mem := { d.mem with channels := cs } }, d.mem.peekNear p o) := by
  have clean : ∃ cs, (if d.mem.retiredNear.contains p then d else (d.memCe p ({} : SectorEcc).ce).memUe p o ({} : SectorEcc).ue) =
      { d with mem := { d.mem with channels := cs } } := by
    split
    · exact ⟨d.mem.channels, rfl⟩
    · exact ⟨(d.memCe p 0).mem.channels, rfl⟩
  obtain ⟨cs, hcs⟩ := clean
  refine ⟨({ d.mem with channels := cs }.readNear p o).1.channels, ?_⟩
  unfold Dev.readNear
  simp only [hcs]
  rw [Mem.readNear_frame]
  rfl

/-- A write to a page that is not retired stores the sector, and counts at its channel. -/
theorem Mem.writeNear_stores (m : Mem) (p o : Nat) (x : Sector) (h : m.retiredNear.contains p = false) : ∃ cs,
    m.writeNear p o x = { m with channels := cs, near := Store.write m.nearDefault m.near (p * 113 + o) x } := by
  refine ⟨(m.writeNear p o x).channels, ?_⟩
  unfold Mem.writeNear Mem.storeNear
  simp only [Mem.onChannel, Mem.setChannel, h, Bool.false_eq_true, if_false]
  rfl

/-- What a sector holds after a write of it, and what every other one does. -/
theorem Mem.peekNear_writeNear (m : Mem) (p o : Nat) (x : Sector) (h : m.retiredNear.contains p = false) (hm : m.wf = true) :
    (m.writeNear p o x).peekNear p o = x ∧
    ∀ p' o', p' * 113 + o' ≠ p * 113 + o → (m.writeNear p o x).peekNear p' o' = m.peekNear p' o' := by
  obtain ⟨cs, hcs⟩ := Mem.writeNear_stores m p o x h
  have read := fun j => Store.read_write m.nearDefault (p * 113 + o) x j ((Mem.wf_iff m).1 hm).1
  rw [hcs]
  refine ⟨?_, fun p' o' hne => ?_⟩
  · unfold Mem.peekNear
    rw [if_neg (by simpa using h)]
    exact (read _).trans (if_pos rfl)
  · unfold Mem.peekNear
    split
    · rfl
    · exact (read _).trans (if_neg hne)

/- The window. -/

/-- An access within one sector is one piece. -/
theorem pieces_within {o n : Nat} (hn : 1 ≤ n) (h : o % 576 + n ≤ 576) : pieces o (n + 1) n = [(o, n)] := by
  obtain ⟨m, rfl⟩ := Nat.exists_eq_add_of_le' hn
  simp [pieces, show min (m + 1) (576 - o % 576) = m + 1 by omega]

/-- A sector that does not exist keeps no access waiting. -/
theorem Dev.mustWait_invalid (d : Dev) (s a : Nat) (bs : List Byte) (p : Bool) (e : SectorEcc) (h : d.mem.nearValid s = false) :
    d.mustWait d.held (.write s a bs p e) = false := by
  simp [Dev.mustWait, Dev.channelsOf, Dev.linksOf, Held.sectors, h, Dev.linkHeld]

theorem Dev.mustWait_invalid_read (d : Dev) (s a n : Nat) (h : d.mem.nearValid s = false) : d.mustWait d.held (.read [(s, a, n)] []) = false := by
  simp [Dev.mustWait, Dev.channelsOf, Dev.linksOf, Held.sectors, h, Dev.linkHeld]

/-- A write within a sector that exists is a write of the sector, which it reads first where it covers less (R206, R320). -/
theorem Dev.writePiece_sector (d : Dev) (s a : Nat) (bs : List Byte) (poisoned : Bool) (hv : d.mem.nearValid s = true) : ∃ cs,
    let k := d.mem.nearKey s
    d.writePiece s a bs poisoned {} =
      { d with mem := ({ d.mem with channels := cs } : Mem).writeNear k.1 k.2 ((d.mem.peekNear k.1 k.2).written a bs poisoned) } := by
  unfold Dev.writePiece Sector.written
  simp only [hv, Bool.not_true, Bool.false_eq_true, if_false]
  split
  · exact ⟨d.mem.channels, rfl⟩
  · obtain ⟨cs, hcs⟩ := Dev.readNear_clean d (d.mem.nearKey s).1 (d.mem.nearKey s).2
    refine ⟨cs, ?_⟩
    simp only [hcs]
    rfl

/-- A read within a sector that exists: its bytes, or free ones where a codeword is poisoned (R320). -/
theorem Dev.readPiece_clean (d : Dev) (s a n : Nat) (hv : d.mem.nearValid s = true)
    (hp : (d.mem.peekNear (d.mem.nearKey s).1 (d.mem.nearKey s).2).poison = 0) : ∃ cs, d.readPiece s a n {} =
    ({ d with mem := { d.mem with channels := cs } }, (List.range n).map (fun i =>
      (d.mem.peekNear (d.mem.nearKey s).1 (d.mem.nearKey s).2).data.extractLsb' (8 * (a + i)) 8), false) := by
  obtain ⟨cs, hcs⟩ := Dev.readNear_clean d (d.mem.nearKey s).1 (d.mem.nearKey s).2
  refine ⟨cs, ?_⟩
  unfold Dev.readPiece
  simp only [hv, Bool.not_true, Bool.false_eq_true, if_false, hcs, hp, if_true]
  simp

theorem Dev.readPiece_poisoned (d : Dev) (s a n : Nat) (hv : d.mem.nearValid s = true)
    (hp : (d.mem.peekNear (d.mem.nearKey s).1 (d.mem.nearKey s).2).poison ≠ 0) : ∃ e bytes, d.readPiece s a n {} = (e, bytes, true) ∧
    bytes.length = n ∧ e.host = { d.host with windowPoison := true } ∧ e.tiles = d.tiles := by
  obtain ⟨cs, hcs⟩ := Dev.readNear_clean d (d.mem.nearKey s).1 (d.mem.nearKey s).2
  unfold Dev.readPiece
  simp only [hv, Bool.not_true, Bool.false_eq_true, if_false, hcs, hp]
  exact ⟨_, _, rfl, by simp, rfl, rfl⟩

theorem Dev.serveMem_read_one (d : Dev) (s a n : Nat) {e : Dev} {bytes : List Byte} {b : Bool} (h : d.readPiece s a n {} = (e, bytes, b)) :
    d.serveMem (.read [(s, a, n)] []) = e.emit (.window bytes b) := by
  have parts : d.readParts [(s, a, n)] [] = (e, bytes, b) := by
    simp only [Dev.readParts, List.zipIdx_cons, List.zipIdx_nil, List.foldl_cons, List.foldl_nil, List.getD_nil, h, List.nil_append, Bool.false_or]
  simp only [Dev.serveMem, parts]

section Within

variable {s : State} {o n : Nat} (open_ : s.dev.windowShut = false) (power : s.dev.pins.tripped = false) (size : o + n ≤ s.dev.host.bar4Size)
  (hn : 1 ≤ n) (hw : o % 576 + n ≤ 576)
include open_ power size hn hw

/-- A write within one sector comes to its channel whole. -/
theorem State.bar4Write_one {data : List Byte} (hl : data.length = n) (poisoned : Bool) :
    s.answers (.bar4Write o data { poisoned := poisoned })
      (s.dev.receive (.write (s.dev.host.bar4Base.toNat + o / 576) (o % 576) data poisoned {})) := by
  subst hl
  show execBar4Write o data { poisoned := poisoned } s = _
  simp [execBar4Write, State.act, open_, power, Nat.not_lt.2 size, pieces_within hn hw, Dev.windowAt]

theorem State.bar4Read_one : s.answers (.bar4Read o { length := n })
    (s.dev.receive (.read [(s.dev.host.bar4Base.toNat + o / 576, o % 576, n)] [])) := by
  show execBar4Read o { length := n } s = _
  simp [execBar4Read, State.act, open_, power, Nat.not_lt.2 size, pieces_within hn hw, Dev.windowAt]

end Within

end Sys2Proof.Machine

/- Register accesses with effects (R6, R7, R319, R386, R389, R430, R463, R464). -/

namespace Sys2Proof.Machine

/- Writes. -/

/-- R7 concerns the registers with W1C bits alone. -/
theorem Dev.clearing_plain (d : Dev) {off : Nat} (v : Word) (h : w1cAt off = false) : d.clearing off v = v := by
  simp [Dev.clearing, h]

theorem Dev.writeReg_tripped (d : Dev) (off : Nat) (v : Word) (h : d.pins.tripped = true) : d.writeReg off v = d := by
  simp [Dev.writeReg, h]

/-- R464: before their boot step has ended the regions past 0x10000 but that of the security block take no write, and in BOOT those of the tiles take none. -/
theorem Dev.writeReg_shut (d : Dev) {off : Nat} (v : Word) (h : d.regionsUp = false ∨ (d.run.state = .boot ∧ 0x1000000 ≤ off)) (lo : 0x10000 ≤ off)
    (sec : off < 0x60000 ∨ 0x100000 ≤ off) : d.writeReg off v = d := by
  unfold Dev.writeReg
  simp only [show ¬ (0x1000 ≤ off ∧ off < 0x10000) by omega, show ¬ (0x60000 ≤ off ∧ off < 0x100000) by omega, if_false]
  split
  · rfl
  · rcases h with h | ⟨hb, ht⟩
    · simp [h]
    · simp only [show ¬ (0x10000 ≤ off ∧ off < 0x30000) by omega, show ¬ (0x30000 ≤ off ∧ off < 0x40000) by omega,
        show ¬ (0x40000 ≤ off ∧ off < 0x50000) by omega, show ¬ (0x50000 ≤ off ∧ off < 0x60000) by omega,
        show ¬ (0x100000 ≤ off ∧ off < 0x140000) by omega, show ¬ (0x140000 ≤ off ∧ off < 0x200000) by omega,
        show ¬ (0x200000 ≤ off ∧ off < 0x1000000) by omega, if_false]
      simp [Dev.writeTile, hb]

section Powered

variable (d : Dev) (v : Word) (power : d.pins.tripped = false)
include power

theorem Dev.writeReg_bar4Base : d.writeReg 0x1004 v = { d with host := { d.host with bar4Base := v } } := by
  simp [Dev.writeReg, Dev.clearing_plain d v (by decide : w1cAt 0x1004 = false), power, Dev.writeDev]

variable (up : d.regionsUp = true)
include up

theorem Dev.writeReg_floor :
    d.writeReg 0x40004 v = { d with power := { d.power with floor := max 250 (min 930 (v.toNat % 65536)) } } := by
  simp [Dev.writeReg, Dev.clearing_plain d v (by decide : w1cAt 0x40004 = false), power, up, Dev.writePower, Dev.onPower, clamp]

/-- LOG_ACK acknowledges, and ALERT# may fall by it (R430, R442). -/
theorem Dev.writeReg_logAck : ∃ sl, d.writeReg 0x3000C v = { d with log := { d.log with
      ack := min v.toNat d.log.next, lost := d.log.lost.filter (fun p => decide (min v.toNat d.log.next ≤ p.1)), slew := sl } } ∧
    (sl = d.log.slew ∨ sl = d.pins.slew.extractLsb' 2 2) := by
  have write : d.writeReg 0x3000C v = { d with log := d.alertEdge (d.log.acknowledge v.toNat) } := by
    simp [Dev.writeReg, Dev.clearing_plain d v (by decide : w1cAt 0x3000C = false), power, up, Dev.writeLog]
  rw [write]
  unfold Dev.alertEdge
  split
  · exact ⟨_, rfl, .inr rfl⟩
  · exact ⟨_, rfl, .inl rfl⟩

theorem Dev.writeReg_clkCtrl : d.writeReg 0x50000 v = d.writeClkCtrl v := by
  simp [Dev.writeReg, Dev.clearing_plain d v (by decide : w1cAt 0x50000 = false), power, up, Dev.writeClocks]

theorem Dev.writeReg_budget : d.writeReg 0x40000 v = d.writeBudget v := by
  simp [Dev.writeReg, Dev.clearing_plain d v (by decide : w1cAt 0x40000 = false), power, up, Dev.writePower]

end Powered

/-- R386: a budget that covers the plan's peak is taken. -/
theorem Dev.writeBudget_covers (d : Dev) (v : Word)
    (h : d.run.image = none ∨ d.power.planPeak ≤ max d.power.floor (min 930 (v.toNat % 65536))) :
    d.writeBudget v = { d with power := { d.power with budget := max d.power.floor (min 930 (v.toNat % 65536)) } } := by
  have covers : (d.run.image.isSome && decide (clamp d.power.floor 930 (v.toNat % 65536) < d.power.planPeak)) = false := by
    rcases h with h | h
    · simp [h]
    · rw [decide_eq_false (p := clamp _ _ _ < _) (Nat.not_lt.2 h), Bool.and_false]
  unfold Dev.writeBudget Dev.onPower
  simp only [covers, Bool.false_eq_true, if_false]
  rfl

/-- R386: one below the plan's peak is taken too, flagged and logged. -/
theorem Dev.writeBudget_below (d : Dev) (v : Word) (hi : d.run.image ≠ none)
    (h : max d.power.floor (min 930 (v.toNat % 65536)) < d.power.planPeak) : let e := d.writeBudget v
    e.power.budget = max d.power.floor (min 930 (v.toNat % 65536)) ∧ e.power.events.getLsbD 6 = true ∧ e.log.next = d.log.next + 1 ∧ e.run = d.run := by
  have below : (d.run.image.isSome && decide (clamp d.power.floor 930 (v.toNat % 65536) < d.power.planPeak)) = true := by
    simp [Option.isSome_iff_ne_none, hi, clamp, h]
  unfold Dev.writeBudget Dev.onPower
  simp only [below, if_true, Dev.event_power, Dev.event_next, Dev.event_run]
  refine ⟨rfl, ?_, rfl, rfl⟩
  simp [Dev.powerEvent, Dev.onPower]

/- Reads. -/

theorem Dev.readWord_plain (d : Dev) {off : Nat} (h : lowWord off = false) (h1 : off ≠ 0x201010) (h2 : off ≠ 0x30020) :
    d.readWord off = d.emit (.read off (d.readReg off)) := by
  simp [Dev.readWord, h, Dev.snap, h1, h2]

/-- R463: the snapshot of the selected KRT entry. -/
theorem Dev.readWord_krt (d : Dev) (up : d.regionsUp = true) : d.readWord 0x201010 = { d.emit (.read 0x201010 (d.readReg 0x201010)) with
    keys := { d.keys with snapshot := d.keys.words d.keys.select.toNat } } := by
  have hup : (d.emit (.read 0x201010 (d.readReg 0x201010))).regionsUp = true := up
  simp [Dev.readWord, show lowWord 0x201010 = false by decide, Dev.snap, hup]

theorem Dev.readWord_log (d : Dev) (up : d.regionsUp = true) : d.readWord 0x30020 = { d.emit (.read 0x30020 (d.readReg 0x30020)) with
    log := { d.log with snapshot := d.log.words d.log.select.toNat } } := by
  have hup : (d.emit (.read 0x30020 (d.readReg 0x30020))).regionsUp = true := up
  simp [Dev.readWord, show lowWord 0x30020 = false by decide, Dev.snap, hup]

/-- A write of a value that is not the default is read back, whatever else the store lists. -/
theorem Store.read_write_listed {α : Type} [DecidableEq α] (d : Nat → α) (m : Sparse α) (k : Nat) {x : α} (h : x ≠ d k) :
    Store.read d (Store.write d m k x) k = x := by
  induction m with
  | nil => simp [Store.write, h, Store.read]
  | cons e m ih =>
    obtain ⟨a, y⟩ := e
    simp only [Store.write, h, if_false]
    split
    · simp [Store.read]
    · split
      · simp [Store.read]
      next hne => simp [Store.read, Ne.symm hne, ih]

/-- R6: TICK_NUMBER_LO, and beside it the high word latched. -/
theorem Dev.readWord_tickNumber (d : Dev) : ∃ latches, d.readWord 0x1028 =
      { d with host := { d.host with out := d.host.out ++ [.read 0x1028 (d.tick.number.setWidth 32)], latches := latches } } ∧
    Store.read (fun _ => none) latches 0x102C = some (BitVec.ofNat 32 (d.tick.number.toNat / 2 ^ 32)) := by
  have low : d.readReg 0x1028 = d.tick.number.setWidth 32 := by
    refine BitVec.eq_of_toNat_eq ?_
    simp [Dev.readReg, Dev.readDev]
  have high : d.highWord 0x1028 = BitVec.ofNat 32 (d.tick.number.toNat / 2 ^ 32) := by
    refine BitVec.eq_of_toNat_eq ?_
    simp [Dev.highWord, Dev.readReg, Dev.readDev, Dev.latched, Store.read, Nat.shiftRight_eq_div_pow]
  refine ⟨Store.write (fun _ => none) d.host.latches 0x102C (some (d.highWord 0x1028)), ?_, ?_⟩
  · simp [Dev.readWord, show lowWord 0x1028 = true by decide, low, Dev.emit]
  · rw [Store.read_write_listed _ _ _ (by simp), high]

/- The rows. -/

section Rows

variable {s : State}

/-- A row that acts on the device answers with what the action leaves. -/
theorem State.answers_of_act {i : Instr} {f : Dev → Dev} {d : Dev} (row : exec i s = s.act f) (h : f s.dev = d) : s.answers i d := by
  rw [State.answers, row, State.act, h]

theorem exec_registerWrite (a : Access) (v : Word) : exec (.registerWrite a v) s = execRegisterWrite a v s := rfl

theorem exec_lowWordRead (a : Access) : exec (.lowWordRead a) s = execLowWordRead a s := rfl

theorem exec_krtData0Read : exec .krtData0Read s = execKrtData0Read s := rfl

theorem exec_bar4BaseWrite (v : Word) : exec (.bar4BaseWrite v) s = execBar4BaseWrite v s := rfl

theorem exec_logAckWrite (v : Word) : exec (.logAckWrite v) s = execLogAckWrite v s := rfl

theorem exec_pwrBudgetWrite (v : Word) : exec (.pwrBudgetWrite v) s = execPwrBudgetWrite v s := rfl

theorem exec_clkCtrlWrite (v : Word) : exec (.clkCtrlWrite v) s = execClkCtrlWrite v s := rfl

theorem exec_logMsiTimer : exec .logMsiTimer s = execLogMsiTimer s := rfl

theorem exec_logData0Read : exec .logData0Read s = execLogData0Read s := rfl

/-- Nothing is acted on after a trip (R446). -/
theorem State.rows_tripped (h : s.dev.pins.tripped = true) (v : Word) :
    (∀ a, s.answers (.registerWrite a v) s.dev ∧ s.answers (.lowWordRead a) s.dev) ∧
    ∀ i ∈ [Instr.bar4BaseWrite v, .krtData0Read, .logData0Read], s.answers i s.dev := by
  have shut : ∀ f : Dev → Dev, s.dev.unlessTripped f = s.dev := fun f => by simp [Dev.unlessTripped, h]
  refine ⟨fun a => ⟨State.answers_of_act (exec_registerWrite _ _) ?_, State.answers_of_act (exec_lowWordRead _) ?_⟩, fun i hi => ?_⟩
  · exact shut _
  · exact shut _
  simp only [List.mem_cons, List.not_mem_nil, or_false] at hi
  rcases hi with rfl | rfl | rfl
  · exact State.answers_of_act (exec_bar4BaseWrite v) (Dev.writeReg_tripped s.dev _ v h)
  · refine State.answers_of_act exec_krtData0Read ?_
    exact shut _
  · refine State.answers_of_act exec_logData0Read ?_
    exact shut _

variable (power : s.dev.pins.tripped = false)
include power

theorem Dev.unlessTripped_powered (f : Dev → Dev) : s.dev.unlessTripped f = f s.dev := by
  simp [Dev.unlessTripped, power]

theorem State.registerWrite_reg (off : BitVec 26) (v : Word) (h : off.toNat % 4 = 0) :
    s.answers (.registerWrite (.reg off) v) (s.dev.writeReg off.toNat v) := by
  refine State.answers_of_act (exec_registerWrite _ _) ?_
  simp [Dev.unlessTripped_powered power, Access.reg, Access.ok, h]

theorem State.lowWordRead_reg (off : BitVec 26) (h : off.toNat % 4 = 0) :
    s.answers (.lowWordRead (.reg off)) (s.dev.readWord off.toNat) := by
  refine State.answers_of_act (exec_lowWordRead _) ?_
  simp [Dev.unlessTripped_powered power, Access.reg, Access.ok, h]

theorem State.lowWordRead_doorbell (off : BitVec 26) (h : off.toNat % 4 = 0) :
    s.answers (.lowWordRead { bar := .bar2, offset := off }) (s.dev.emit (.doorbellRead off.toNat 0)) := by
  refine State.answers_of_act (exec_lowWordRead _) ?_
  simp [Dev.unlessTripped_powered power, Access.ok, h]

theorem State.krtData0Read_answers : s.answers .krtData0Read (s.dev.readWord 0x201010) := by
  refine State.answers_of_act exec_krtData0Read ?_
  exact Dev.unlessTripped_powered power _

theorem State.logData0Read_answers : s.answers .logData0Read (s.dev.readWord 0x30020) := by
  refine State.answers_of_act exec_logData0Read ?_
  exact Dev.unlessTripped_powered power _

/-- R319: an access that is not of 32 aligned bits. -/
theorem State.access_unsupported (a : Access) (v : Word) (hb : a.bar ≠ .bar4Size) (h : a.bytes ≠ 4 ∨ a.offset.toNat % 4 ≠ 0) :
    s.answers (.registerWrite a v) (s.dev.emit .unsupported) ∧ s.answers (.lowWordRead a) (s.dev.emit .unsupported) := by
  have bad : a.ok = false := by
    rcases h with h | h <;> simp [Access.ok, h]
  obtain ⟨bar, offset, bytes⟩ := a
  refine ⟨State.answers_of_act (exec_registerWrite _ _) ?_, State.answers_of_act (exec_lowWordRead _) ?_⟩ <;> cases bar
  all_goals simp_all [Dev.unlessTripped_powered power]

/-- R319: the size control of BAR4. -/
theorem State.registerWrite_bar4Size (n : Nat) (lo : 10 ≤ n) (hi : n ≤ 16) :
    s.answers (.registerWrite { bar := .bar4Size, offset := 0 } (BitVec.ofNat 32 (256 * n)))
      { s.dev with host := { s.dev.host with bar4Size := 2 ^ (20 + n) } } := by
  have code : field (BitVec.ofNat 32 (256 * n)).toNat 8 6 = n := by
    rw [BitVec.toNat_ofNat, Nat.mod_eq_of_lt (by omega), field, Nat.shiftRight_eq_div_pow]
    omega
  refine State.answers_of_act (exec_registerWrite _ _) ?_
  unfold Dev.unlessTripped Dev.resizeBar4
  simp only [power, code, lo, hi, and_self, Bool.false_eq_true, if_true, if_false]

variable (up : s.dev.regionsUp = true) (v : Word)
include up

theorem State.logAckWrite_answers : ∃ sl, s.answers (.logAckWrite v) { s.dev with log := { s.dev.log with
      ack := min v.toNat s.dev.log.next, lost := s.dev.log.lost.filter (fun p => decide (min v.toNat s.dev.log.next ≤ p.1)), slew := sl } } ∧
    (sl = s.dev.log.slew ∨ sl = s.dev.pins.slew.extractLsb' 2 2) := by
  obtain ⟨sl, write, slew⟩ := Dev.writeReg_logAck s.dev v power up
  exact ⟨sl, State.answers_of_act (exec_logAckWrite v) write, slew⟩

/-- R389: a write of CLK_CTRL outside READY is ignored, and marked so. -/
theorem State.clkCtrlWrite_answers :
    (s.dev.run.state = .ready → s.answers (.clkCtrlWrite v)
      { s.dev with clocks := { s.dev.clocks with sscEn := v.getLsbD 0, sscOn := v.getLsbD 0 } }) ∧
    (s.dev.run.state ≠ .ready → s.answers (.clkCtrlWrite v)
      (({ s.dev with clocks := { s.dev.clocks with writeIgnored := true } }).mark 0x50004 0x10)) := by
  have write := Dev.writeReg_clkCtrl s.dev v power up
  unfold Dev.writeClkCtrl Dev.onClocks at write
  refine ⟨fun ready => ?_, fun ready => ?_⟩
  · exact State.answers_of_act (exec_clkCtrlWrite v) (write.trans (if_pos ready))
  · exact State.answers_of_act (exec_clkCtrlWrite v) (write.trans (if_neg ready))

theorem State.pwrBudgetWrite_answers : s.answers (.pwrBudgetWrite v) (s.dev.writeBudget v) :=
  State.answers_of_act (exec_pwrBudgetWrite v) (Dev.writeReg_budget s.dev v power up)

/-- R463: both reads that take the snapshot of a KRT entry. -/
theorem State.krtReads_answer : ∃ x, ∀ i ∈ [Instr.krtData0Read, .lowWordRead (.reg 0x201010)], s.answers i { s.dev.emit (.read 0x201010 x) with
    keys := { s.dev.keys with snapshot := s.dev.keys.words s.dev.keys.select.toNat } } := by
  refine ⟨s.dev.readReg 0x201010, fun i hi => ?_⟩
  rw [← Dev.readWord_krt s.dev up]
  simp only [List.mem_cons, List.not_mem_nil, or_false] at hi
  rcases hi with rfl | rfl
  · exact State.krtData0Read_answers power
  · exact State.lowWordRead_reg power 0x201010 (by decide)

/-- R463, R431: both reads that take the snapshot of a log entry. -/
theorem State.logReads_answer : ∃ x, ∀ i ∈ [Instr.logData0Read, .lowWordRead (.reg 0x30020)], s.answers i { s.dev.emit (.read 0x30020 x) with
    log := { s.dev.log with snapshot := s.dev.log.words s.dev.log.select.toNat } } := by
  refine ⟨s.dev.readReg 0x30020, fun i hi => ?_⟩
  rw [← Dev.readWord_log s.dev up]
  simp only [List.mem_cons, List.not_mem_nil, or_false] at hi
  rcases hi with rfl | rfl
  · exact State.logData0Read_answers power
  · exact State.lowWordRead_reg power 0x30020 (by decide)

end Rows

end Sys2Proof.Machine

/- Register accesses (O56), assembled. -/

namespace Sys2Proof.Machine

section Timer

variable {s : State}

/-- R430: the timer sends the message that waits, or lets the next one go at once. -/
theorem State.logMsiTimer_sends (ho : s.dev.log.holdOff = true) (hw : s.dev.log.waiting = true) (en : s.dev.log.msiEn = true) :
    s.answers .logMsiTimer (({ s.dev with log := { s.dev.log with waiting := false } }).message s.dev.log.vector) := by
  refine State.answers_of_act exec_logMsiTimer ?_
  simp only [ho, hw, en, Bool.and_self, if_true]

theorem State.logMsiTimer_idle (hw : s.dev.log.waiting = false) :
    s.answers .logMsiTimer { s.dev with log := { s.dev.log with holdOff := false, waiting := false } } := by
  refine State.answers_of_act exec_logMsiTimer ?_
  simp only [hw, Bool.and_false, Bool.false_and, Bool.false_eq_true, if_false]

end Timer

/- What the window's accesses do once they are served. -/

theorem Dev.receive_serves (d : Dev) {h : Held} (free : d.mustWait d.held h = false) : d.receive h = d.serveHeld h := by
  unfold Dev.receive
  simp only [free, Bool.false_eq_true, if_false]

theorem Dev.receive_waits (d : Dev) {h : Held} (waits : d.mustWait d.held h = true) : d.receive h = { d with held := d.held ++ [h] } := by
  unfold Dev.receive
  simp only [waits, if_true]

theorem Dev.receive_write_invalid (d : Dev) (s a : Nat) (bs : List Byte) (p : Bool) (h : d.mem.nearValid s = false) :
    d.receive (.write s a bs p {}) = d.windowError := by
  rw [Dev.receive_serves d (Dev.mustWait_invalid d s a bs p {} h)]
  show d.writePiece s a bs p {} = d.windowError
  unfold Dev.writePiece
  simp [h]

theorem Dev.receive_read_invalid (d : Dev) (s a n : Nat) (h : d.mem.nearValid s = false) :
    d.receive (.read [(s, a, n)] []) = d.windowError.emit (.window (List.replicate n 0xFF) false) := by
  have piece : d.readPiece s a n {} = (d.windowError, List.replicate n 0xFF, false) := by
    unfold Dev.readPiece
    simp [h]
  rw [Dev.receive_serves d (Dev.mustWait_invalid_read d s a n h)]
  exact Dev.serveMem_read_one d s a n piece

/-- R320: the bytes of a write take their places in the sector, and every other sector keeps its own. -/
theorem Dev.receive_write (d : Dev) (s a : Nat) (bs : List Byte) (p : Bool) (hv : d.mem.nearValid s = true) (wf : d.mem.wf = true)
    (here : d.mem.retiredNear.contains (d.mem.nearKey s).1 = false) (free : d.mustWait d.held (.write s a bs p {}) = false)
    (within : a + bs.length ≤ 576) : let e := d.receive (.write s a bs p {})
    let k := d.mem.nearKey s
    let old := d.mem.peekNear k.1 k.2
    let new := e.mem.peekNear k.1 k.2
    (∀ i, i < 576 → new.data.extractLsb' (8 * i) 8 = if a ≤ i ∧ i < a + bs.length then bs.getD (i - a) 0 else old.data.extractLsb' (8 * i) 8) ∧
    (∀ c, c < 32 → new.poison.getLsbD c = if p = true ∧ a < 18 * c + 18 ∧ 18 * c < a + bs.length then true
      else if a ≤ 18 * c ∧ 18 * c + 18 ≤ a + bs.length then false else old.poison.getLsbD c) ∧
    (∀ q o, q * 113 + o ≠ k.1 * 113 + k.2 → e.mem.peekNear q o = d.mem.peekNear q o) ∧ e.tiles = d.tiles ∧ e.host = d.host := by
  obtain ⟨cs, piece⟩ := Dev.writePiece_sector d s a bs p hv
  have served : d.receive (.write s a bs p {}) = d.writePiece s a bs p {} := Dev.receive_serves d free
  obtain ⟨stored, others⟩ := Mem.peekNear_writeNear { d.mem with channels := cs } (d.mem.nearKey s).1 (d.mem.nearKey s).2
    ((d.mem.peekNear (d.mem.nearKey s).1 (d.mem.nearKey s).2).written a bs p) here wf
  rw [served, piece]
  refine ⟨fun i hi => ?_, fun c hc => ?_, others, rfl, rfl⟩
  · exact (congrArg (fun x => x.data.extractLsb' (8 * i) 8) stored).trans (Sector.written_byte _ p within hi)
  · exact (congrArg (fun x => x.poison.getLsbD c) stored).trans (Sector.written_poison _ p within hc)

/-- R320: a read of a sector that is not poisoned gives its bytes. -/
theorem Dev.receive_read_clean (d : Dev) (s a n : Nat) (hv : d.mem.nearValid s = true) (free : d.mustWait d.held (.read [(s, a, n)] []) = false)
    (clean : (d.mem.peekNear (d.mem.nearKey s).1 (d.mem.nearKey s).2).poison = 0) : let e := d.receive (.read [(s, a, n)] [])
    e.host.out = d.host.out ++ [.window ((List.range n).map (fun i =>
      (d.mem.peekNear (d.mem.nearKey s).1 (d.mem.nearKey s).2).data.extractLsb' (8 * (a + i)) 8)) false] ∧
    (∀ q o, e.mem.peekNear q o = d.mem.peekNear q o) ∧ e.tiles = d.tiles := by
  obtain ⟨cs, piece⟩ := Dev.readPiece_clean d s a n hv clean
  have served : d.receive (.read [(s, a, n)] []) = d.serveMem (.read [(s, a, n)] []) := Dev.receive_serves d free
  rw [served, Dev.serveMem_read_one d s a n piece]
  exact ⟨rfl, fun _ _ => rfl, rfl⟩

/-- R320: one of a poisoned sector gives bytes that are free, and says so. -/
theorem Dev.receive_read_poisoned (d : Dev) (s a n : Nat) (hv : d.mem.nearValid s = true) (free : d.mustWait d.held (.read [(s, a, n)] []) = false)
    (bad : (d.mem.peekNear (d.mem.nearKey s).1 (d.mem.nearKey s).2).poison ≠ 0) : let e := d.receive (.read [(s, a, n)] [])
    ∃ bytes, bytes.length = n ∧ e.host.out = d.host.out ++ [.window bytes true] ∧ e.host.windowPoison = true ∧ e.tiles = d.tiles := by
  obtain ⟨e, bytes, piece, hl, host, tiles⟩ := Dev.readPiece_poisoned d s a n hv bad
  have served : d.receive (.read [(s, a, n)] []) = d.serveMem (.read [(s, a, n)] []) := Dev.receive_serves d free
  simp only [served, Dev.serveMem_read_one d s a n piece]
  refine ⟨bytes, hl, ?_, ?_, tiles⟩
  · exact congrArg (fun h => h.out ++ [Output.window bytes true]) host
  · exact congrArg (·.windowPoison) host

/-- Settles O56: each row by the register it writes or reads; a write of the window by what the sector holds byte by byte. -/
theorem registerCommands : Obligations.RegisterCommands := by
  unfold Obligations.RegisterCommands
  intro s v
  refine ⟨fun h => State.rows_tripped h v, fun power => ⟨?_, fun a => State.access_unsupported power a v, ?_, State.registerWrite_bar4Size power, ?_, ?_,
    State.logMsiTimer_sends, State.logMsiTimer_idle, ?_⟩⟩
  case refine_1 => exact State.answers_of_act (exec_bar4BaseWrite v) (Dev.writeReg_bar4Base s.dev v power)
  case refine_2 =>
    refine fun off aligned => ⟨State.lowWordRead_doorbell power off aligned, fun low h1 h2 => ?_, fun shut lo sec => ?_⟩
    · rw [← Dev.readWord_plain s.dev low (fun h => h1 (BitVec.eq_of_toNat_eq h)) (fun h => h2 (BitVec.eq_of_toNat_eq h))]
      exact State.lowWordRead_reg power off aligned
    · have write := State.registerWrite_reg power off v aligned
      rwa [Dev.writeReg_shut s.dev v shut lo sec] at write
  case refine_3 =>
    intro up
    refine ⟨?_, State.logAckWrite_answers power up v, (State.clkCtrlWrite_answers power up v).1, (State.clkCtrlWrite_answers power up v).2,
      ⟨fun covers => ?_, fun hi below => ?_⟩, State.krtReads_answer power up, State.logReads_answer power up⟩
    · rw [← Dev.writeReg_floor s.dev v power up]
      exact State.registerWrite_reg power 0x40004 v (by decide)
    · rw [← Dev.writeBudget_covers s.dev v covers]
      exact State.pwrBudgetWrite_answers power up v
    · exact ⟨_, State.pwrBudgetWrite_answers power up v, Dev.writeBudget_below s.dev v hi below⟩
  case refine_4 =>
    obtain ⟨latches, read, high⟩ := Dev.readWord_tickNumber s.dev
    refine ⟨_, State.lowWordRead_reg power 0x1028 (by decide), ?_⟩
    rw [show (0x1028 : BitVec 26).toNat = 0x1028 by decide, read]
    exact ⟨rfl, high, rfl⟩
  case refine_5 =>
    intro notBoot notFaulted notSanitizing o n hn hw size
    have open_ : s.dev.windowShut = false := by simp [Dev.windowShut, notBoot, notFaulted, notSanitizing]
    have read := State.bar4Read_one open_ power size hn hw
    refine ⟨fun data poisoned hl => ?_, fun hv => ?_, fun hv free => ⟨fun clean => ?_, fun bad => ?_⟩⟩
    · have write := State.bar4Write_one open_ power size hn hw hl poisoned
      subst hl
      refine ⟨fun hv => ?_, fun waits => ?_, fun hv wf here free => ⟨_, write, ?_⟩⟩
      · rwa [Dev.receive_write_invalid _ _ _ _ _ hv] at write
      · rwa [Dev.receive_waits _ waits] at write
      · obtain ⟨bytes, poison, others, tiles, host⟩ := Dev.receive_write s.dev _ _ data poisoned hv wf here free hw
        exact ⟨⟨bytes, poison⟩, others, tiles, host⟩
    · rwa [Dev.receive_read_invalid _ _ _ _ hv] at read
    · exact ⟨_, read, Dev.receive_read_clean s.dev _ _ n hv free clean⟩
    · obtain ⟨bytes, hl, out, flag, tiles⟩ := Dev.receive_read_poisoned s.dev _ _ n hv free bad
      exact ⟨_, bytes, read, hl, out, flag, tiles⟩

end Sys2Proof.Machine

/- SANITIZE in a fault whose run has still to end (R415, R433; log 46). -/

namespace Sys2Proof.Machine

/- The outputs of skipped stages poisoned (R250). -/

theorem Dev.poisonOutput_host (d : Dev) (r : BitVec 64) : (d.poisonOutput r).host = d.host := by
  obtain ⟨cs, read⟩ := Dev.readNear_clean d (d.mem.nearKey (refAddr r)).1 (d.mem.nearKey (refAddr r)).2
  have marked : (d.serveMem (.mark (refAddr r) {} none)).host = d.host := congrArg (·.1.host) read
  unfold Dev.poisonOutput
  split
  · simp only
    split <;> rfl
  · split
    · unfold Dev.receiveMem
      split
      · rfl
      · exact marked
    · rfl

theorem Dev.poisonStage_host (d : Dev) (n : Option Nat) : (d.poisonStage n).host = d.host := by
  unfold Dev.poisonStage
  split
  · exact List.foldlRecOn (motive := fun x : Dev => x.host = d.host) _ _ rfl fun x h r _ => (Dev.poisonOutput_host x r).trans h
  · rfl

theorem Dev.poisonOutputs_host (d : Dev) : d.poisonOutputs.host = d.host := by
  unfold Dev.poisonOutputs
  rw [Dev.mapGroups_host]
  exact List.foldlRecOn (motive := fun x : Dev => x.host = d.host) _ _ rfl fun x h g _ => (Dev.poisonStage_host x _).trans h

theorem Dev.settled_host (d : Dev) : d.settled.host = d.host := by
  unfold Dev.settled
  simp only [Dev.poisonOutputs_host, Dev.mapTiles_host]

/- What an ending leaves of the memory and the host port. -/

@[simp] theorem Dev.abandonReductions_mem (d : Dev) : d.abandonReductions.mem = d.mem := by
  unfold Dev.abandonReductions
  exact List.foldlRecOn (motive := fun x : Dev => x.mem = d.mem) _ _ rfl fun x h i _ => (Dev.event_mem _ _ _ _).trans h

@[simp] theorem Dev.abandonReductions_fetched (d : Dev) : d.abandonReductions.host.fetched = d.host.fetched := by
  unfold Dev.abandonReductions
  exact List.foldlRecOn (motive := fun x : Dev => x.host.fetched = d.host.fetched) _ _ rfl fun x h i _ => (Dev.event_fetched _ _ _ _).trans h

theorem Dev.closeRun_keeps (d : Dev) (aborted : Bool) : (d.closeRun aborted).mem = d.mem ∧ (d.closeRun aborted).host.jobs = d.host.jobs ∧
    (d.closeRun aborted).host.fetched = d.host.fetched := by
  simp [Dev.closeRun, (Dev.abandonReductions_keeps _).2]

/-- A fault that ends no pending command notes itself, and no more (R433). -/
theorem Dev.faultEnd_keeps (d : Dev) (cause : FaultCause) (unit : Nat) (h : d.host.jobs = []) :
    (d.faultEnd cause unit).mem = d.mem ∧ (d.faultEnd cause unit).host.fetched = d.host.fetched := by
  have test : d.dropTest = d := by simp [Dev.dropTest, h]
  have tick : d.dropTick = d := by simp [Dev.dropTick, Dev.hasJob, h]
  have jobs : ∀ p st detail, d.finishAll p st detail = d := fun p st detail => by simp [Dev.finishAll, h]
  have done : d.faultEnd cause unit = d.noteFault cause unit false := by
    unfold Dev.faultEnd
    simp only [test, tick, jobs]
  rw [done]
  exact ⟨Dev.event_mem _ _ _ _, Dev.event_fetched _ _ _ _⟩

/-- A run that a fault has stopped ends with the outputs of its skipped stages poisoned (R250, R433). -/
theorem Dev.endRun_fault (d : Dev) {cause : FaultCause} {unit : Nat} (h : d.run.ending = some (.fault cause unit)) (hj : d.host.jobs = []) :
    d.endRun.mem = d.settled.mem ∧ d.endRun.run.state = d.run.state ∧ d.endRun.host.fetched = d.host.fetched := by
  have ends : d.endRun = (d.settled.closeRun true).faultEnd cause unit := by simp [Dev.endRun, h]
  obtain ⟨mem, jobs, fetched⟩ := Dev.closeRun_keeps d.settled true
  rw [Dev.settled_host] at jobs fetched
  obtain ⟨faultMem, faultFetched⟩ := Dev.faultEnd_keeps (d.settled.closeRun true) cause unit (jobs.trans hj)
  rw [ends, faultMem, faultFetched, mem, fetched, (Dev.faultEnd_state _ _ _).1, Dev.closeRun_run, Dev.settled_run]
  exact ⟨rfl, rfl, rfl⟩

/- SANITIZE accepted in FAULTED. -/

theorem Dev.becomePending_keeps (d : Dev) (f : Fetched) (k : JobKind) : (d.becomePending f k).mem = d.mem ∧
    (d.becomePending f k).run = d.run ∧ (d.becomePending f k).host.fetched = d.host.fetched := by
  rw [Dev.becomePending_frame]
  exact ⟨rfl, rfl, rfl⟩

theorem Dev.enter_keeps (d : Dev) (next : DevState) (n : Nat) : (d.enter next n).mem = d.mem ∧ (d.enter next n).host.fetched = d.host.fetched := by
  rw [Dev.enter_frame]
  exact ⟨rfl, rfl⟩

theorem Dev.sanitizeFirst_faulted (d : Dev) : (d.sanitizeFirst .faulted).mem = d.mem ∧ (d.sanitizeFirst .faulted).host = d.host := by
  simp [Dev.sanitizeFirst]

/-- What SANITIZE does once its tests have passed: a run that still has to end is ended first. -/
def Dev.sanitizeBegins (d : Dev) (f : Fetched) (far : Bool) : Dev :=
  let d : Dev := { d.endRun with flash := { d.flash with sanitize := some far } }
  let d := d.becomePending f (.sanitize far (d.run.state == .faulted))
  (d.enter .sanitizing 0x73).sanitizeFirst d.run.state

theorem Dev.sanitizeBegins_faulted (d : Dev) (f : Fetched) (far : Bool) (h : d.endRun.run.state = .faulted) :
    (d.sanitizeBegins f far).mem = d.endRun.mem ∧ (d.sanitizeBegins f far).host.fetched = d.endRun.host.fetched := by
  generalize hx : ({ d.endRun with flash := { d.flash with sanitize := some far } } : Dev) = x
  generalize hy : x.becomePending f (.sanitize far (x.run.state == .faulted)) = y
  have begins : d.sanitizeBegins f far = (y.enter .sanitizing 0x73).sanitizeFirst y.run.state := by
    subst hy hx
    rfl
  obtain ⟨pendMem, pendRun, pendFetched⟩ := Dev.becomePending_keeps x f (.sanitize far (x.run.state == .faulted))
  rw [hy] at pendMem pendRun pendFetched
  obtain ⟨enterMem, enterFetched⟩ := Dev.enter_keeps y .sanitizing 0x73
  obtain ⟨firstMem, firstHost⟩ := Dev.sanitizeFirst_faulted (y.enter .sanitizing 0x73)
  have faulted : y.run.state = .faulted := by
    rw [pendRun, ← hx]
    exact h
  rw [begins, faulted, firstMem, firstHost, enterMem, enterFetched, pendMem, pendFetched, ← hx]
  exact ⟨rfl, rfl⟩

theorem exec_sanitize {s : State} (c : Packet) : exec (.sanitize c) s = execSanitize c s := rfl

theorem State.answers_unique {s : State} {i : Instr} {d e : Dev} (hd : s.answers i d) (he : s.answers i e) : d = e := by
  have same : Host.Outcome.next { s with dev := d } = (Host.Outcome.next { s with dev := e } : Host.Outcome State Fault Refusal) := hd.symm.trans he
  injection same with states
  exact congrArg State.dev states

/-- `Dev.command_offered` of a packet whose opcode is known. -/
theorem Dev.command_accepted {s : State} {c : Packet} {f : Fetched} {n : Nat} (opcode : c.opcode = n) (h : s.offers c f) (t : Tests)
    (effect : Dev → Fetched → Dev) (valid : t.valid = true) (condition : t.condition = true) (free : t.busy = false)
    (idle : (t.signature && s.dev.pke.session.isSome) = false) (he : (effect (s.taken f) f).host.fetched = []) :
    s.dev.command c n t effect = effect (s.taken f) f := by
  subst opcode
  exact Dev.command_offered h t effect valid condition free idle he

/-- A SANITIZE that meets a fault's run before its end ends it first, and so poisons the outputs of its skipped stages (R250). -/
theorem State.sanitize_ends_fault {s : State} {c : Packet} {f : Fetched} (h : s.commands c f 0x73 none none 1) (hj : s.dev.host.jobs = [])
    (hs : s.dev.run.state = .faulted) {cause : FaultCause} {unit : Nat} (he : s.dev.run.ending = some (.fault cause unit)) {d : Dev}
    (ans : s.answers (.sanitize c) d) : d.mem = (s.taken f).settled.mem := by
  obtain ⟨offers, opcode, fields⟩ := h
  obtain ⟨endMem, endState, endFetched⟩ := Dev.endRun_fault (s.taken f) he hj
  obtain ⟨mem, fetched⟩ := Dev.sanitizeBegins_faulted (s.taken f) f ((c.inl 0 1).testBit 0) (endState.trans hs)
  have free : s.dev.testing = false ∧ ∀ p, s.dev.hasJob p = false := by
    simp [Dev.testing, Dev.hasJob, hj]
  have begins : s.answers (.sanitize c) ((s.taken f).sanitizeBegins f ((c.inl 0 1).testBit 0)) := by
    refine State.answers_of_act (exec_sanitize c) ?_
    refine Dev.command_accepted opcode offers _ _ fields rfl ?_ rfl ((fetched.trans endFetched).trans (Dev.take_only _ _ offers.1))
    simp only [free, Bool.or_self]
  rw [State.answers_unique ans begins, mem, endMem]

/- A counterexample. -/

/-- A SANITIZE for the near tier alone. -/
def sanitizePacket : Packet := { sq := 0, bits := 0x73 }

/-- An image of one group, in whose stage one header goes to sector 0 of the near tier. -/
def skippingImage : Image :=
  { tileMask := 1, debug := false, poisonHalt := false, overflowHalt := false, skip := true, period := 200000, securityVersion := 0, measurement := []
    keysets := [], membership := 0 :: List.replicate 63 0xFF, groups := [{ group := 0, priority := 0, waitLimit := 0, rota := [0] }]
    stages := [{ group := 0, entries := [], planLen := 0, halo := 0, outputs := [BitVec.ofNat 64 (2 * 2 ^ 46)], uncore := [0, 0, 0, 0], classes := [] }]
    regions := [{ far := false, length := 113, base := 0 }], segments := [], baseUncore := 0, planPeak := 0 }

/-- A run whose group's stage has been skipped while a chain packet has still to land. -/
def skippedRun : Dev :=
  { run := { state := .running, image := some skippingImage }
    tiles := Vector.replicate 64 { nma := { outbox := [{ tile := 1, counter := 0, row := 0, rows := [0], ready := 0 }] } }
    groups := Vector.replicate 16 { members := [0], skipped := some 0 } }

def sanitizeFetched : Fetched := { packet := sanitizePacket, head := 0, cq := 0 }

/-- Channel 0 fails in that run (R433), and the host's SANITIZE comes before the packet has landed. -/
def sanitizedInFault : State :=
  { dev := { skippedRun.enterFaulted .channel 0 true 0 with host := { fetched := [sanitizeFetched] } } }

theorem sanitizedInFault_run : sanitizedInFault.dev.run.state = .faulted ∧ sanitizedInFault.dev.run.ending = some (.fault .channel 0) :=
  ⟨by decide +kernel, by decide +kernel⟩

theorem sanitizedInFault_commands : sanitizedInFault.commands sanitizePacket sanitizeFetched 0x73 none none 1 := by
  decide +kernel

/-- The end of the run poisons the header, which no sector was listed for. -/
theorem sanitizedInFault_poisons : (sanitizedInFault.taken sanitizeFetched).settled.mem.near ≠ sanitizedInFault.dev.mem.near := by
  decide +kernel

/-- Refutes O36: the clause on SANITIZE has it leave the memory as it is, but one accepted in FAULTED while what a failed run has on its way has still to land ends
that run first (log 46), which poisons the outputs of a skipped stage in the near tier (R250). -/
theorem not_peerAndSanitizeCommands : ¬ Obligations.PeerAndSanitizeCommands := by
  unfold Obligations.PeerAndSanitizeCommands
  intro h
  obtain ⟨-, -, -, sanitize, -⟩ := h sanitizedInFault sanitizePacket sanitizeFetched
  obtain ⟨d, ans, -, -, -, -, -, -, -, -, -, -, same⟩ := sanitize sanitizedInFault_commands rfl
  obtain ⟨faulted, ending⟩ := sanitizedInFault_run
  have ended := State.sanitize_ends_fault sanitizedInFault_commands rfl faulted ending ans
  exact sanitizedInFault_poisons (congrArg (·.near) (ended.symm.trans same))

end Sys2Proof.Machine

/- Slot instructions that issue or halt, from what their issue functions give (R269, R271, R274). -/

namespace Sys2Proof.Machine

/-- A halt that is noted keeps every other tile (R115, R270). -/
theorem Dev.noteHalt_others (d : Dev) {t u : TileId} (h : u ≠ t) : (d.noteHalt t).tile u = d.tile u := by
  have tiles : ∀ e : Dev, ∀ ev data, (e.event t.toNat ev data).tile u = e.tile u := fun e ev data => by
    unfold Dev.tile
    rw [Dev.event_tiles]
  unfold Dev.noteHalt
  simp only [tiles]
  split <;> exact Dev.tile_setTile_other d _ h.symm

theorem Dev.noteHalt_mem (d : Dev) (t : TileId) : (d.noteHalt t).mem = d.mem := by
  unfold Dev.noteHalt
  simp only [Dev.event_mem]
  split <;> rfl

theorem Dev.noteHalt_hazard (d : Dev) (t : TileId) : (d.noteHalt t).run.hazard = d.run.hazard := by
  unfold Dev.noteHalt
  simp only [Dev.event_run]
  split <;> rfl

/-- An issue check that fails without a row halts a going tile, and records the check's reason (R269, R271). -/
theorem Tile.issueHalt_going (x : Tile) (ctx : IssueCtx) (sl : Slot) (reason : HaltReason) (h : x.halted = false) :
    x.issueHalt ctx (sl, ⟨reason, none⟩, false) = x.record ctx.sched { reason := reason, bundle := ctx.bundle, slot := sl.code, rank := 4 } :=
  Tile.halt_going x _ _ h

/-- A tile that may issue by itself does so with the hazard detector off. -/
theorem State.ready_hazard {s : State} {t : TileId} {g : GroupId} (ready : s.ready t g) : (s.sees t g).hazard = false := by
  obtain ⟨-, -, -, detector, -⟩ := ready
  exact detector

/-- What a slot instruction issued by itself makes of its tile, `Dev.issueSlotOf`'s own. -/
def Tile.issueAlone (x : Tile) (ctx : IssueCtx) (sl : Slot) (f : IssueCtx → Tile → Issue) : Tile :=
  let y := x.settle ctx
  if y.halted then y else y.issueOne ctx sl f

/-- An instruction that fails a check without a row halts a tile that was going when it issued. -/
theorem Tile.issueAlone_fails {x : Tile} {ctx : IssueCtx} {sl : Slot} {f : IssueCtx → Tile → Issue} {reason : HaltReason}
    (going : (x.settle ctx).halted = false) (fails : f ctx (x.settle ctx) = .error ⟨reason, none⟩) :
    x.issueAlone ctx sl f = (x.settle ctx).record ctx.sched { reason := reason, bundle := ctx.bundle, slot := sl.code, rank := 4 } := by
  simp only [Tile.issueAlone, going, Bool.false_eq_true, if_false, Tile.issueOne, fails]
  exact Tile.issueHalt_going _ _ _ _ going

section Issues

variable {s : State} {t : TileId} {g : GroupId} {c : Instr} {sl : Slot} {f : IssueCtx → Tile → Issue}
variable (ready : s.ready t g) (row : exec c s = s.act (fun d => d.issueSlotOf t sl f))
include ready row

/-- An instruction that a check turns down halts its tile, and nothing else of it takes effect. -/
theorem State.refuses_of_error {reason : HaltReason} (fails : f (s.sees t g) (s.settled t g) = .error ⟨reason, none⟩) :
    s.refuses t g c sl.code reason := by
  obtain ⟨member, may, ecc, detector, going, -, taken, -⟩ := ready
  have before : (s.dev.tile t).halted = false := by
    simp only [Dev.mayIssue, Bool.and_eq_true, Bool.not_eq_true'] at may
    exact may.1.2
  generalize hchange : (fun x : Tile => x.issueAlone (s.sees t g) sl f) = change
  have halts : change (s.dev.tile t) =
      (s.settled t g).record (s.sees t g).sched { reason := reason, bundle := (s.sees t g).bundle, slot := sl.code, rank := 4 } := by
    rw [← hchange]
    exact Tile.issueAlone_fails going fails
  have noted : s.dev.onTile t change = (s.dev.setTile t (change (s.dev.tile t))).noteHalt t :=
    Dev.onTile_halts _ _ _ before (congrArg Tile.halted halts)
  obtain ⟨n, tile⟩ := Dev.tile_onTile_halts s.dev t change before (congrArg Tile.halted halts)
  have issued : s.dev.issueSlotOf t sl f = s.dev.onTile t change := by
    have alone : s.dev.issueSlotOf t sl f = ((s.dev.onTile t change).extentCheck g t (s.dev.tile t) (s.sees t g).bundle).coverTaken t := by
      simp only [Dev.issueSlotOf, member, Dev.insertEcc_done s.dev g ecc, may, if_true, ← hchange]
      rfl
    rw [alone, Dev.extentCheck_off, Dev.coverTaken_none]
    · rw [tile, halts]
      exact taken
    · rw [noted, Dev.noteHalt_hazard]
      exact detector
  refine ⟨_, n, row, ?_, fun u hu => ?_, ?_⟩
  · show (s.dev.issueSlotOf t sl f).tile t = _
    rw [issued, tile, halts]
    rfl
  · show (s.dev.issueSlotOf t sl f).tile u = _
    rw [issued, noted, Dev.noteHalt_others _ hu, Dev.tile_setTile_other _ _ hu.symm]
  · show (s.dev.issueSlotOf t sl f).mem = _
    rw [issued, noted, Dev.noteHalt_mem, Dev.setTile_mem]

/-- An instruction that issues leaves the tile that its issue function gives, where that keeps the units, the pending instructions and the halt. -/
theorem State.issues_of_ok {change : Tile → Tile} (passes : f (s.sees t g) (s.settled t g) = .ok (change (s.settled t g)))
    (tu : (change (s.settled t g)).tu = (s.settled t g).tu) (nma : (change (s.settled t g)).nma = (s.settled t g).nma)
    (pend : (change (s.settled t g)).pend = (s.settled t g).pend) (halted : (change (s.settled t g)).halted = (s.settled t g).halted)
    (taken : (change (s.settled t g)).taken = (s.settled t g).taken) : s.issues t g c change := by
  obtain ⟨-, -, -, -, going, noPend, untaken, idleTu, idleNma, idleDsm⟩ := id ready
  have issued := Dev.issueSlotOf_ready ready sl f _ passes (by rw [tu, idleTu]) (by rw [nma, idleNma]) (by rw [nma, idleDsm]) (pend.trans noPend)
    (halted.trans going) (taken.trans untaken)
  rw [State.issues, row, State.act, issued]
  rfl

end Issues

end Sys2Proof.Machine

/- HOP: its checks in order and the header it gives (R36, R39 to R46, R292 to R294). -/

namespace Sys2Proof.Machine

/- Checks. -/

theorem need_true (r : HaltReason) : need true r = .ok () := rfl

theorem need_false (r : HaltReason) : need false r = .error ⟨r, none⟩ := rfl

theorem need_ok_iff {c : Bool} {r : HaltReason} : need c r = .ok () ↔ c = true := by
  cases c <;> simp [need]

/-- Checks in order pass where the first passes and the rest do. -/
theorem IssueStop.bind_ok_iff {α β : Type} {e : Except IssueStop α} {k : α → Except IssueStop β} {y : β} :
    (e >>= k) = .ok y ↔ ∃ x, e = .ok x ∧ k x = .ok y := by
  cases e with
  | error _ => exact ⟨fun h => (nomatch h), fun ⟨_, h, _⟩ => (nomatch h)⟩
  | ok x => exact ⟨fun h => ⟨x, rfl, h⟩, fun ⟨_, h, hk⟩ => Except.ok.inj h ▸ hk⟩

theorem IssueStop.ok_bind {α β : Type} (x : α) (k : α → Except IssueStop β) : (Except.ok x >>= k) = k x := rfl

theorem IssueStop.error_bind {α β : Type} (e : IssueStop) (k : α → Except IssueStop β) : (Except.error e >>= k) = .error e := rfl

theorem IssueStop.need_bind_ok_iff {β : Type} {c : Bool} {r : HaltReason} {k : Unit → Except IssueStop β} {y : β} :
    (need c r >>= k) = .ok y ↔ c = true ∧ k () = .ok y := by
  cases c with
  | false => exact ⟨fun h => (nomatch h), fun ⟨h, _⟩ => (nomatch h)⟩
  | true => exact ⟨fun h => ⟨rfl, h⟩, fun ⟨_, h⟩ => h⟩

theorem reservedZero_pass {n : Nat} {w mask : BitVec n} (h : w &&& mask = 0) : reservedZero w mask = .ok () := by
  simp [reservedZero, h, need]

theorem field_eq (x lo len : Nat) : field x lo len = x / 2 ^ lo % 2 ^ len := by
  rw [field, Nat.shiftRight_eq_div_pow]

theorem isCkks_iff (scheme : Byte) : isCkks scheme = true ↔ scheme = 1 := by
  simp [isCkks]

/- The rows. -/

theorem exec_hopInstr {c : HopClass} (h : c ≠ .invalidate) (t : TileId) (w : BitVec 22) (s : State) :
    exec (hopInstr c t w) s = s.act (fun d => d.issueSlotOf t .s (fun ctx x => issueHop c ctx w x)) := by
  cases c with
  | invalidate => exact absurd rfl h
  | _ => rfl

theorem exec_hopInvalidate (t : TileId) (w : BitVec 22) (s : State) :
    exec (.hopInvalidate t w) s = s.act (fun d => d.issueSlotOf t .s (fun ctx x => issueInvalidate ctx w x)) := rfl

/-- The tile once a HOP has issued: the header is on its way to HD, which it names (R54, R293). -/
def Tile.hops (x : Tile) (pipe : Nat) (w : BitVec 22) (h : Header) (tag : Tag) : Tile :=
  { x.fly pipe 4 [.hop (hopHD w) h (some tag)] with named := x.named ||| BitVec.ofNat 8 (2 ^ (hopHD w).toNat) }

/-- A header on its way leaves the units, the pending instructions and the halt alone. -/
theorem Tile.hops_keeps (x : Tile) (pipe : Nat) (w : BitVec 22) (h : Header) (tag : Tag) : let y := x.hops pipe w h tag
    y.tu = x.tu ∧ y.nma = x.nma ∧ y.pend = x.pend ∧ y.halted = x.halted ∧ y.taken = x.taken := by
  unfold Tile.hops Tile.fly
  exact ⟨rfl, rfl, rfl, rfl, rfl⟩

/-- The tag that a HOP gives its result (R181, R294). -/
def hopTag (c : HopClass) (imm : BitVec 8) (sx : Nat) : Tag :=
  if c = .ksext then { kind := BitVec.ofNat 4 (field imm.toNat 4 2), galois := BitVec.ofNat 18 sx, digit := BitVec.ofNat 4 imm.toNat } else {}

/-- HOP past the checks of its fields: the checks of R42 decide. -/
theorem issueHop_eq {c : HopClass} {ctx : IssueCtx} {w : BitVec 22} (x : Tile) (unused : w &&& hopUnused c w = 0) (detector : ctx.hazard = false)
    (bin : hopBinOk c w = true) (drop : c = .drop → (hopImm w).toNat % 64 ≠ 0) :
    let a := (x.hreg (hopHA w)).hdr
    let b := if hopBin w then some (x.hreg (hopHB w)).hdr else none
    let sx := (x.sreg (hopSX w)).toNat
    issueHop c ctx w x = hopChecks ctx x c (hopImm w) sx a b >>= fun m =>
      .ok (x.hops ctx.pipe w (hopResult c (hopImm w) sx m a b) (hopTag c (hopImm w) sx)) := by
  have dropsAny : (!(c == .drop && field (hopImm w).toNat 0 6 == 0)) = true := by
    by_cases hc : c = .drop
    · simpa [hc, field_eq] using drop hc
    · simp [hc]
  simp only [issueHop, reservedZero_pass unused, hazardFree_off ctx x _ detector, bin, dropsAny, need_true]
  rfl

/-- HOP INVALIDATE judges well-formedness alone (R293). -/
theorem issueInvalidate_eq {ctx : IssueCtx} {w : BitVec 22} (x : Tile) (unused : w &&& 0xFFFF = 0) (detector : ctx.hazard = false) :
    let a := (x.hreg (hopHA w)).hdr
    issueInvalidate ctx w x = need a.wellFormed .headerInvalid >>= fun _ =>
      .ok (x.hops ctx.pipe w { a with valid := false, generation := a.generation + 1 } {}) := by
  have unary : hopBin w = false := by
    have bit := congrArg (fun v : BitVec 22 => v.getLsbD 12) unused
    simpa [hopBin] using bit
  have reserved : w &&& hopUnused .invalidate w = 0 := by
    have mask : hopUnused .invalidate w = 0xFFFF &&& 0xEFFF := by
      simp [hopUnused, hopUsesSX, unary]
    rw [mask, ← BitVec.and_assoc, unused]
    rfl
  simp only [issueInvalidate, reservedZero_pass reserved, hazardFree_off ctx x _ detector, hopBinOk, unary, Bool.not_false, need_true]
  rfl

theorem State.issues_hop {s : State} {t : TileId} {g : GroupId} {c : Instr} {f : IssueCtx → Tile → Issue} {w : BitVec 22} {h : Header} {tag : Tag}
    (ready : s.ready t g) (row : exec c s = s.act (fun d => d.issueSlotOf t .s f))
    (passes : f (s.sees t g) (s.settled t g) = .ok ((s.settled t g).hops (s.sees t g).pipe w h tag)) :
    s.issues t g c (fun x => { x.fly (s.sees t g).pipe 4 [.hop (hopHD w) h (some tag)] with
      named := x.named ||| BitVec.ofNat 8 (2 ^ (hopHD w).toNat) }) := by
  obtain ⟨tu, nma, pend, halted, taken⟩ := Tile.hops_keeps (s.settled t g) (s.sees t g).pipe w h tag
  have issued : s.issues t g c (fun x => x.hops (s.sees t g).pipe w h tag) := State.issues_of_ok ready row passes tu nma pend halted taken
  unfold Tile.hops at issued
  exact issued

/- The result header. -/

/-- Checks 10 and 11 of R42, the last two of `hopChecks`, where m is the first source's context. -/
def hopLast (c : HopClass) (imm : BitVec 8) (sx : Nat) (m : ModTable) (a : Header) (b : Option Header) : Except IssueStop ModTable :=
  levelCheck c imm a >>= fun _ =>
    need (!isCkks a.scheme || (decide (0 ≤ hopScale c sx m a b) && decide (hopScale c sx m a b ≤ 0xFFFF))) .operandRange >>= fun _ => pure m

/-- Checks 1 to 11 passed: the last two hold. -/
theorem hopChecks_last {ctx : IssueCtx} {x : Tile} {c : HopClass} {imm : BitVec 8} {sx : Nat} {a : Header} {b : Option Header} {m : ModTable}
    (h : hopChecks ctx x c imm sx a b = .ok m) :
    levelCheck c imm a = .ok () ∧ (a.scheme = 1 → 0 ≤ hopScale c sx m a b ∧ hopScale c sx m a b ≤ 0xFFFF) := by
  have last : ∀ n, hopLast c imm sx n a b = .ok m → levelCheck c imm a = .ok () ∧
      (a.scheme = 1 → 0 ≤ hopScale c sx m a b ∧ hopScale c sx m a b ≤ 0xFFFF) := fun n h => by
    obtain ⟨⟨⟩, level, h⟩ := IssueStop.bind_ok_iff.1 h
    obtain ⟨⟨⟩, scale, h⟩ := IssueStop.bind_ok_iff.1 h
    obtain rfl : n = m := Except.ok.inj h
    refine ⟨level, fun ckks => ?_⟩
    simpa [isCkks, ckks] using need_ok_iff.1 scale
  unfold hopChecks at h
  cases b with
  | none =>
    simp only [IssueStop.need_bind_ok_iff, IssueStop.ok_bind, IssueStop.bind_ok_iff (e := x.contextCheck a)] at h
    obtain ⟨-, -, n, -, -, -, -, -, -, -, h⟩ := h
    exact last n h
  | some b =>
    simp only [IssueStop.need_bind_ok_iff, IssueStop.bind_ok_iff (e := x.contextCheck _)] at h
    obtain ⟨-, -, n, -, -, -, -, -, -, -, -, -, h⟩ := h
    exact last n h

theorem Header.level_less_one {a : Header} (h : 1 ≤ a.level.toNat) : (a.level - 1).toNat = a.level.toNat - 1 :=
  BitVec.toNat_sub_of_le (BitVec.le_def.2 h)

theorem Header.level_less_drop {a : Header} {imm : BitVec 8} (h : field imm.toNat 0 6 ≤ a.level.toNat) :
    (a.level - BitVec.ofNat 8 (field imm.toNat 0 6)).toNat = a.level.toNat - imm.toNat % 64 := by
  have k : (BitVec.ofNat 8 (field imm.toNat 0 6)).toNat = field imm.toNat 0 6 := by
    simp only [field_eq, BitVec.toNat_ofNat]
    omega
  rw [BitVec.toNat_sub_of_le (BitVec.le_def.2 (k.trans_le h)), k]
  simp [field_eq]

theorem byte_max_toNat (a b : Byte) : (if a.toNat < b.toNat then b else a).toNat = max a.toNat b.toNat := by
  split <;> omega

theorem byte_ifTwo_toNat (a b : Byte) : (if b = 2 then 3 else a).toNat = if b.toNat = 2 then 3 else a.toNat := by
  by_cases h : b = 2
  · simp [h]
  · have apart : ¬ b.toNat = 2 := fun e => h (BitVec.eq_of_toNat_eq e)
    rw [if_neg h, if_neg apart]

section Result

variable (c : HopClass) (imm : BitVec 8) (sx : Nat) (m : ModTable) (a : Header) (b : Option Header)

/-- The SCALE of a second source: a header's, or that in S[SX] (R43). -/
def secondScale : Nat := (b.map (·.scale.toNat)).getD (sx % 2 ^ 16)

theorem hopScale_mulcc : hopScale .mulcc sx m a b = (a.scale.toNat + secondScale sx b : Nat) := by
  cases b <;> simp [hopScale, secondScale, field_eq]

theorem hopScale_mulpt : hopScale .mulpt sx m a b = (a.scale.toNat + secondScale sx b : Nat) := hopScale_mulcc sx m a b

theorem hopScale_mulrescale : hopScale .mulrescale sx m a b = (a.scale.toNat + secondScale sx b : Nat) - droppedLog m a := by
  rw [← hopScale_mulcc sx m a b]
  rfl

/-- A CKKS result has the class's scale where check 11 holds, and any other result has none (R36). -/
theorem hopResult_scale (fits : a.scheme = 1 → 0 ≤ hopScale c sx m a b ∧ hopScale c sx m a b ≤ 0xFFFF) :
    (hopResult c imm sx m a b).scale.toNat = if a.scheme = 1 then (hopScale c sx m a b).toNat else 0 := by
  show (if isCkks a.scheme then BitVec.ofNat 16 (hopScale c sx m a b).toNat else 0).toNat = _
  simp only [isCkks_iff]
  by_cases ckks : a.scheme = 1
  · obtain ⟨low, high⟩ := fits ckks
    rw [if_pos ckks, if_pos ckks, BitVec.toNat_ofNat]
    omega
  · rw [if_neg ckks, if_neg ckks]
    rfl

/-- The header that a HOP gives when its last two checks hold is the one of its class's rules. -/
theorem hopResult_rules (level : levelCheck c imm a = .ok ()) (fits : a.scheme = 1 → 0 ≤ hopScale c sx m a b ∧ hopScale c sx m a b ≤ 0xFFFF)
    (binary : c = .mulrescale → b ≠ none) :
    hopRules c (droppedLog m a) (imm.toNat % 64) (secondScale sx b) ((b.map (·.polys.toNat)).getD 0) a (hopResult c imm sx m a b) := by
  refine ⟨?level, rfl, rfl, ?polys, ?scale⟩
  case level =>
    cases c with
    | rescale => exact Header.level_less_one (of_decide_eq_true (need_ok_iff.1 level))
    | mulrescale => exact Header.level_less_one (of_decide_eq_true (need_ok_iff.1 level))
    | modswitch => exact Header.level_less_one (of_decide_eq_true (need_ok_iff.1 level))
    | drop => exact Header.level_less_drop (of_decide_eq_true (need_ok_iff.1 level))
    | _ => rfl
  case polys =>
    cases c with
    | addsub =>
      cases b with
      | none => exact (Nat.max_zero _).symm
      | some b => exact byte_max_toNat a.polys b.polys
    | mulrescale =>
      cases b with
      | none => exact absurd rfl (binary rfl)
      | some b => exact byte_ifTwo_toNat a.polys b.polys
    | _ => rfl
  case scale =>
    rw [hopResult_scale c imm sx m a b fits]
    cases c with
    | mulcc => rw [hopScale_mulcc, Int.toNat_natCast]
    | mulpt => rw [hopScale_mulpt, Int.toNat_natCast]
    | mulrescale => rw [hopScale_mulrescale, Int.toNat_sub]
    | rescale => exact congrArg (fun n => if a.scheme = 1 then n else 0) (Int.toNat_sub _ _)
    | _ => rfl

theorem hopResult_poison : (hopResult c imm sx m a b).poison = (a.poison || (b.map (·.poison)).getD false) := by
  cases b <;> rfl

theorem hopResult_keeps : let h := hopResult c imm sx m a b
    (h.magic, h.scheme, h.logN, h.maxLevel, h.keyset, h.slots, h.limbBase, h.seeded, h.seed) =
      (a.magic, a.scheme, a.logN, a.maxLevel, a.keyset, a.slots, a.limbBase, a.seeded, a.seed) := by
  unfold hopResult
  rfl

theorem hopTag_plain (h : c ≠ .ksext) : hopTag c imm sx = {} := if_neg h

/-- R294: the tag of KSEXT. -/
theorem hopTag_ksext : (hopTag .ksext imm sx).kind.toNat = imm.toNat / 16 % 4 ∧ (hopTag .ksext imm sx).galois.toNat = sx % 2 ^ 18 ∧
    (hopTag .ksext imm sx).digit.toNat = imm.toNat % 16 := by
  refine ⟨?_, BitVec.toNat_ofNat _ _, BitVec.toNat_ofNat _ _⟩
  show (BitVec.ofNat 4 (field imm.toNat 4 2)).toNat = _
  simp only [field_eq, BitVec.toNat_ofNat]
  omega

end Result

/-- Settles O15: past the checks of its fields a HOP gives what the checks of R42 leave it, whose fields are the class's rules one by one. -/
theorem hopResults : Obligations.HopResults := by
  unfold Obligations.HopResults
  refine ⟨fun s t g w ready unused => ?_, fun s t g w c m ready other => ?_⟩
  · intro x a formed
    refine State.issues_hop ready (exec_hopInvalidate t w s) ?_
    rw [issueInvalidate_eq _ unused (State.ready_hazard ready), formed]
    rfl
  · intro x a b sx unused bin drop checks
    obtain ⟨level, fits⟩ := hopChecks_last checks
    have binary : c = .mulrescale → b ≠ none := by
      rintro rfl
      have : hopBin w = true := bin
      simp [b, this]
    refine ⟨hopResult c (hopImm w) sx m a b, hopTag c (hopImm w) sx, State.issues_hop ready (exec_hopInstr other t w s) ?_, rfl, rfl,
      hopResult_poison _ _ _ _ _ _, hopResult_keeps _ _ _ _ _ _, hopResult_rules _ _ _ _ _ _ level fits binary, hopTag_plain _ _ _, ?_⟩
    · rw [issueHop_eq _ unused (State.ready_hazard ready) bin drop, checks]
      rfl
    · rintro rfl
      exact hopTag_ksext _ _

/- Sources that pass, and levels that are spent. -/

/-- A source that passes the checks of R42 on one header: 1, 2, 3 and 5, with m its context. -/
structure Header.Admitted (h : Header) (ctx : IssueCtx) (x : Tile) (m : ModTable) : Prop where
  wellFormed : h.wellFormed = true
  valid : h.valid = true
  unseeded : h.seeded = false
  clean : ctx.poisonHalt = true → h.poison = false
  context : x.contextOf h.keyset = some m
  fits : h.fitsContext m = true
  logN : h.logN = m.logN
  scheme : h.scheme = m.scheme

section Spent

variable {h a b : Header} {ctx : IssueCtx} {x : Tile} {m : ModTable} {c : HopClass} {imm : BitVec 8} {sx : Nat} {e : IssueStop}

theorem Header.Admitted.sourceOk (ok : h.Admitted ctx x m) : h.sourceOk false = true := by
  simp [Header.sourceOk, ok.wellFormed, ok.valid, ok.unseeded]

theorem Header.Admitted.contextCheck (ok : h.Admitted ctx x m) : x.contextCheck h = .ok m := by
  simp [Tile.contextCheck, ok.context, ok.fits]

theorem Header.Admitted.poison_ignored (ok : h.Admitted ctx x m) : (ctx.poisonHalt && h.poison) = false := by
  cases hp : ctx.poisonHalt with
  | false => rfl
  | true => exact ok.clean hp

/-- Where the checks before it hold, the level precondition of an operation on one source decides (R42). -/
theorem hopChecks_level_unary (ha : a.Admitted ctx x m) (anyDomain : c.domain = none)
    (accepts : hopAccepts c imm sx a none = true) (spent : levelCheck c imm a = .error e) : hopChecks ctx x c imm sx a none = .error e := by
  have anyLayout : (c != .rotate) = true := by
    refine bne_iff_ne.2 ?_
    rintro rfl
    cases spent
  unfold hopChecks
  simp only [ha.sourceOk, ha.poison_ignored, ha.contextCheck, ha.logN, ha.scheme, anyDomain, anyLayout, accepts, beq_self_eq_true, Bool.or_false,
    Bool.and_true, Bool.true_or, Bool.not_false, need_true, IssueStop.ok_bind, spent, IssueStop.error_bind]

/-- And so does that of the fused multiply, whose two sources agree (R42; log 20). -/
theorem hopChecks_level_mulrescale (ha : a.Admitted ctx x m) (hb : b.Admitted ctx x m) (key : a.keyset = b.keyset) (same : sameRepresentation a b = true)
    (ntt : a.domain = true) (accepts : hopAccepts .mulrescale imm sx a (some b) = true) (spent : levelCheck .mulrescale imm a = .error e) :
    hopChecks ctx x .mulrescale imm sx a (some b) = .error e := by
  have ignored : (ctx.poisonHalt && (a.poison || b.poison)) = false := by
    rw [Bool.and_or_distrib_left, ha.poison_ignored, hb.poison_ignored, Bool.or_self]
  have anyLayout : (HopClass.mulrescale != .rotate) = true := rfl
  unfold hopChecks
  simp only [ha.sourceOk, hb.sourceOk, ignored, ha.contextCheck, hb.contextCheck, ha.logN, hb.logN, ha.scheme, hb.scheme, key, same,
    HopClass.domain, ntt, anyLayout, accepts, beq_self_eq_true, Bool.and_true, Bool.true_or, Bool.not_false, need_true, IssueStop.ok_bind, spent,
    IssueStop.error_bind]

/- Check 9 of the level operations, on a header whose limbs lie in the modulus table proper (R39, R42). -/

theorem hopAccepts_rescale (base : a.limbBase.toNat < 64) (ckks : a.scheme = 1) : hopAccepts .rescale imm sx a none = true := by
  simp [hopAccepts, base, isCkks, ckks]

theorem hopAccepts_mulrescale (base : a.limbBase.toNat < 64) (ckks : a.scheme = 1) (polys : a.polys = 2 ∧ b.polys = 2 ∨ b.polys = 1) :
    hopAccepts .mulrescale imm sx a (some b) = true := by
  simpa [hopAccepts, base, isCkks, ckks] using polys

theorem hopAccepts_modswitch (base : a.limbBase.toNat < 64) (notCkks : a.scheme ≠ 1) : hopAccepts .modswitch imm sx a none = true := by
  simpa [hopAccepts, base, isCkks] using notCkks

theorem hopAccepts_drop (base : a.limbBase.toNat < 64) : hopAccepts .drop imm sx a none = true := by
  simp [hopAccepts, base]

/-- A level that is 0 is spent for an operation that takes one. -/
theorem levelCheck_zero (hc : c = .rescale ∨ c = .mulrescale ∨ c = .modswitch) (zero : a.level = 0) :
    levelCheck c imm a = .error ⟨.levelExhausted, none⟩ := by
  have noLevel : decide (1 ≤ a.level.toNat) = false := by
    rw [zero]
    rfl
  rcases hc with rfl | rfl | rfl <;> simp only [levelCheck, noLevel, need_false]

theorem levelCheck_drop (few : a.level.toNat < imm.toNat % 64) : levelCheck .drop imm a = .error ⟨.levelExhausted, none⟩ := by
  have tooFew : decide (field imm.toNat 0 6 ≤ a.level.toNat) = false := decide_eq_false (by simpa [field_eq] using few)
  simp only [levelCheck, tooFew, need_false]

end Spent

section Refused

variable {s : State} {t : TileId} {g : GroupId} {w : BitVec 22} {c : HopClass} {m : ModTable} {reason : HaltReason} {a b : Header}
variable (ready : s.ready t g) (unused : w &&& hopUnused c w = 0) (drop : c = .drop → (hopImm w).toNat % 64 ≠ 0)
variable (first : ((s.settled t g).hreg (hopHA w)).hdr = a)
include ready unused drop first

/-- A HOP on one source that the checks of R42 turn down halts its tile. -/
theorem State.refuses_hop_unary (other : c ≠ .invalidate) (bin : hopBinOk c w = true) (unary : hopBin w = false)
    (fails : ∀ sx, hopChecks (s.sees t g) (s.settled t g) c (hopImm w) sx a none = .error ⟨reason, none⟩) :
    s.refuses t g (hopInstr c t w) 0 reason := by
  refine State.refuses_of_error ready (exec_hopInstr other t w s) ?_
  rw [issueHop_eq _ unused (State.ready_hazard ready) bin drop, first, unary, if_neg Bool.false_ne_true, fails]
  rfl

theorem State.refuses_hop_binary (second : ((s.settled t g).hreg (hopHB w)).hdr = b) (other : c ≠ .invalidate) (bin : hopBinOk c w = true)
    (binary : hopBin w = true) (fails : ∀ sx, hopChecks (s.sees t g) (s.settled t g) c (hopImm w) sx a (some b) = .error ⟨reason, none⟩) :
    s.refuses t g (hopInstr c t w) 0 reason := by
  refine State.refuses_of_error ready (exec_hopInstr other t w s) ?_
  rw [issueHop_eq _ unused (State.ready_hazard ready) bin drop, first, second, binary, if_pos rfl, fails]
  rfl

/-- So does a level operation on one source that passes every check up to the level precondition. -/
theorem State.refuses_level_unary (anyDomain : c.domain = none) (allows : hopBinOk c w = !hopBin w) (unary : hopBin w = false)
    (admitted : a.Admitted (s.sees t g) (s.settled t g) m) (accepts : ∀ sx, hopAccepts c (hopImm w) sx a none = true)
    (spent : levelCheck c (hopImm w) a = .error ⟨reason, none⟩) : s.refuses t g (hopInstr c t w) 0 reason := by
  have other : c ≠ .invalidate := by
    rintro rfl
    cases spent
  exact State.refuses_hop_unary ready unused drop first other (by rw [allows, unary]; rfl) unary fun sx =>
    hopChecks_level_unary admitted anyDomain (accepts sx) spent

end Refused

/-- Settles O16: past the checks of its fields and of its sources, a level operation meets a level that is spent, and HOP INVALIDATE a header that is not
well formed. -/
theorem headerRefusals : Obligations.HeaderRefusals := by
  unfold Obligations.HeaderRefusals
  refine ⟨fun s t g w c m ready => ?_, fun s t g w ready unused bad => ?_⟩
  · intro x a b k passes unused bin admits inBase pair spent
    have source : ∀ h, passes h → h.Admitted (s.sees t g) (s.settled t g) m :=
      fun h ⟨h1, h2, h3, h4, h5, h6, h7, h8⟩ => ⟨h1, h2, h3, h4, h5, h6, h7, h8⟩
    have first : ((s.settled t g).hreg (hopHA w)).hdr = a := rfl
    have second : ((s.settled t g).hreg (hopHB w)).hdr = b := rfl
    clear_value a b passes
    rcases spent with ⟨rfl | rfl, ckks, zero⟩ | ⟨rfl, notCkks, zero⟩ | ⟨rfl, few⟩
    · exact State.refuses_level_unary ready unused nofun first rfl rfl bin (source a admits) (fun _ => hopAccepts_rescale inBase ckks)
        (levelCheck_zero (.inl rfl) zero)
    · obtain ⟨hb, key, same, ntt, polys⟩ := pair rfl
      refine State.refuses_hop_binary ready unused nofun first second nofun bin bin fun sx =>
        hopChecks_level_mulrescale (source a admits) (source b hb) key ?_ ntt (hopAccepts_mulrescale inBase ckks polys)
          (levelCheck_zero (.inr (.inl rfl)) zero)
      simpa [sameRepresentation, and_assoc] using same
    · exact State.refuses_level_unary ready unused nofun first rfl rfl bin (source a admits) (fun _ => hopAccepts_modswitch inBase notCkks)
        (levelCheck_zero (.inr (.inr rfl)) zero)
    · have any : (hopImm w).toNat % 64 ≠ 0 := Nat.ne_of_gt (Nat.lt_of_le_of_lt (Nat.zero_le _) few)
      exact State.refuses_level_unary ready unused (fun _ => any) first rfl rfl bin (source a admits) (fun _ => hopAccepts_drop inBase)
        (levelCheck_drop few)
  · refine State.refuses_of_error ready (exec_hopInvalidate t w s) ?_
    rw [issueInvalidate_eq _ unused (State.ready_hazard ready), bad]
    rfl

end Sys2Proof.Machine

/- Transforms: what the rows of one hold, and its close (R77, R81, R82). -/

namespace Sys2Proof.Machine

/- Packed fields and the lanes of a sector (R29). -/

theorem packNat_lt {w : Nat} {f : Nat → Nat} (h : ∀ i, f i < 2 ^ w) (n : Nat) : packNat w f n < 2 ^ (w * n) := by
  induction n with
  | zero => simp [packNat]
  | succ n ih =>
    have top : f n * 2 ^ (w * n) + 2 ^ (w * n) ≤ 2 ^ w * 2 ^ (w * n) := by
      rw [← Nat.succ_mul]
      exact Nat.mul_le_mul_right _ (h n)
    rw [packNat, Nat.mul_succ, Nat.add_comm (w * n), Nat.pow_add]
    omega

theorem testBit_packNat {w : Nat} {f : Nat → Nat} (h : ∀ i, f i < 2 ^ w) (n i : Nat) {k : Nat} (hk : k < w) :
    (packNat w f n).testBit (w * i + k) = (decide (i < n) && (f i).testBit k) := by
  induction n with
  | zero => simp [packNat]
  | succ n ih =>
    rw [packNat, Nat.add_comm, Nat.mul_comm (f n), Nat.testBit_two_pow_mul_add _ (packNat_lt h n)]
    rcases Nat.lt_trichotomy i n with below | rfl | above
    · have inside : w * i + k < w * n := by nlinarith
      rw [if_pos inside, ih]
      simp [below, Nat.lt_succ_of_lt below]
    · simp
    · have outside : w * n + w ≤ w * i := by nlinarith
      rw [if_neg (by omega), Nat.testBit_lt_two_pow (Nat.lt_of_lt_of_le (h n) (Nat.pow_le_pow_right (by omega) (by omega)))]
      simp [show ¬ i < n + 1 by omega]

/-- A sector holds the residues that it is made of. -/
theorem lane128_sectorOf (f : Nat → Residue) {i : Nat} (hi : i < 128) : lane128 (sectorOf f) i = f i := by
  refine BitVec.eq_of_getLsbD_eq fun k hk => ?_
  have inside : 36 * i + k < 4608 := by omega
  simp only [lane128, sectorOf, BitVec.getLsbD_extractLsb', BitVec.getLsbD_ofNat, testBit_packNat (fun i => (f i).isLt) 128 i hk, hk, hi, inside,
    decide_true, Bool.true_and]
  rfl

theorem res_toNat {x : Nat} (h : x < 2 ^ 36) : (res x).toNat = x := by
  rw [res, BitVec.toNat_ofNat, Nat.mod_eq_of_lt h]

/- Powers and sums mod q. -/

theorem powAux_eq (q : Nat) {f e : Nat} (b : Nat) (h : e < 2 ^ f) : powAux q f b e = b ^ e % q := by
  induction f generalizing b e with
  | zero =>
    obtain rfl : e = 0 := by simpa using h
    simp [powAux]
  | succ f ih =>
    have half : powAux q f (b * b % q) (e / 2) = b ^ (2 * (e / 2)) % q := by
      rw [ih (b * b % q) (by rw [Nat.pow_succ] at h; omega), ← Nat.pow_mod, ← Nat.pow_two, ← Nat.pow_mul]
    rw [powAux, half]
    split
    next odd =>
      rw [Nat.mul_mod_mod, Nat.mul_comm, ← Nat.pow_succ]
      congr 2
      omega
    next even =>
      congr 2
      omega

theorem powMod_eq (q b e : Nat) : powMod q b e = b ^ e % q := by
  rw [powMod, powAux_eq q _ Nat.lt_log2_self, ← Nat.pow_mod]

theorem sumMod_eq (q n : Nat) (f : Nat → Nat) : sumMod q n f = ((List.range n).map f).sum % q := by
  unfold sumMod
  induction n with
  | zero => simp
  | succ n ih =>
    rw [List.range_succ, List.foldl_append, ih, List.map_append, List.sum_append]
    simp

/-- Sums of terms that agree mod q agree mod q. -/
theorem sum_map_mod {q : Nat} {f g : Nat → Nat} (h : ∀ i, f i % q = g i % q) (l : List Nat) : (l.map f).sum % q = (l.map g).sum % q := by
  rw [List.sum_nat_mod (l.map f), List.sum_nat_mod (l.map g), List.map_map, List.map_map]
  exact congrArg (fun g => (l.map g).sum % q) (funext h)

/- What a transform gives (R77). -/

theorem nttAt_eq (q psi N : Nat) (a : Nat → Nat) (k : Nat) :
    nttAt q psi N (fun i => a i % q) k = ((List.range N).map (fun i => a i * psi ^ ((2 * k + 1) * i))).sum % q := by
  rw [nttAt, sumMod_eq]
  refine sum_map_mod (fun i => ?_) _
  rw [powMod_eq, ← Nat.mul_mod]

theorem inttAt_eq (q psi N : Nat) (a : Nat → Nat) (k : Nat) :
    inttAt q psi N (fun i => a i % q) k =
      nInv q N * ((List.range N).map (fun i => a i * psi ^ ((2 * N - 1) * (2 * i + 1) * k))).sum % q := by
  rw [inttAt, sumMod_eq, Nat.mul_mod_mod, Nat.mul_mod, Nat.mul_mod (nInv q N) (List.sum _)]
  congr 2
  refine sum_map_mod (fun i => ?_) _
  rw [powMod_eq, powMod_eq, ← Nat.pow_mod, ← Nat.mul_mod, ← Nat.pow_mul, Nat.mul_assoc]

/-- Destination position p of a transform that no fault has met, under derived twiddles. -/
theorem transformAt_derived (op : TuOp) (inverse : Bool) (p : Nat) : transformAt op inverse false none p =
    res (if inverse then inttAt op.q op.psi (2 ^ op.logN) (transformIn op) p else nttAt op.q op.psi (2 ^ op.logN) (transformIn op) p) := rfl

theorem TuOp.element_transform {op : TuOp} {inverse table : Bool} (h : op.kind = .transform inverse table) (p : Nat) :
    op.element p = transformAt op inverse table none p := by
  have row : op.element p = tuOut op none (p / 128) (p % 128) := lane128_sectorOf _ (Nat.mod_lt _ (by decide))
  rw [row, tuOut, h]
  show transformAt op inverse table none (128 * (p / 128) + p % 128) = _
  rw [Nat.div_add_mod]

/- The close. -/

/-- Where no fault is told, none is added. -/
theorem TuOp.upsetBy_none (op : TuOp) : op.upsetBy none = op := by
  have nothing : op.standing {} = {} := by simp [TuOp.standing]
  exact if_pos nothing

theorem Tile.transformDue_eq {x : Tile} {op : TuOp} {inverse table : Bool} {pipe : Nat} (h : x.tu.op = some op) (kind : op.kind = .transform inverse table)
    (failed : op.failed = false) (closed : op.closed = false) (due : op.issued + op.latency - 1 ≤ pipe) :
    x.transformDue pipe = some (op, inverse, table) := by
  simp [Tile.transformDue, h, kind, failed, closed, due]

/-- The close of a transform whose identities hold, where no fault is told. -/
theorem Tile.closeTransform_holds (x : Tile) (ctx : IssueCtx) {op : TuOp} {inverse table : Bool} (upset : op.upset = none)
    (one : check1Ok op inverse (invariantSides op inverse table none) = true) (two : check2Ok op inverse (invariantSides op inverse table none) = true) :
    x.closeTransform ctx op inverse table none = { x with tu := { x.tu with
      op := some { op with closed := true }, count := x.tu.count + 1, store := storeAfter op inverse table none
      planes := planesAfter op inverse table none x.tu.planes } } := by
  simp only [Tile.closeTransform, TuOp.upsetBy_none, upset, one, two, Bool.and_self, if_true]

/-- Settles O20: the rows hold R77's sums, of which the powers and the source are taken mod q; the close is that of R81 with both identities met. -/
theorem transformResults : Obligations.TransformResults := by
  unfold Obligations.TransformResults
  refine ⟨fun op inverse kind _ pos small => ?_, fun s t g op inverse table busy kind due => ?_⟩
  · intro N a k _
    have canonical : ∀ v, (res (v % op.q)).toNat = v % op.q := fun v => res_toNat (Nat.lt_trans (Nat.mod_lt v pos) small)
    have value : op.element k = res (if inverse then inttAt op.q op.psi N (fun i => a i % op.q) k else nttAt op.q op.psi N (fun i => a i % op.q) k) :=
      (TuOp.element_transform kind k).trans (transformAt_derived op inverse k)
    rw [value, inttAt_eq, nttAt_eq]
    cases inverse with
    | true => exact ⟨(canonical _).trans_lt (Nat.mod_lt _ pos), canonical _⟩
    | false => exact ⟨(canonical _).trans_lt (Nat.mod_lt _ pos), canonical _⟩
  · intro x sides upset one two
    obtain ⟨member, cycle, ecc, going, -, op?, failed, closed⟩ := busy
    have ready : x.transformDue (s.dev.issueCtx t g).pipe = some (op, inverse, table) := Tile.transformDue_eq op? kind failed closed due
    have closes := Tile.closeTransform_holds x (s.dev.issueCtx t g) upset one two
    have act : s.dev.onOpen t (fun ctx x => if (x.transformDue ctx.pipe).isSome then x.closeDue ctx none else x.tellUpset none) =
        s.dev.setTile t (x.closeTransform (s.dev.issueCtx t g) op inverse table none) := by
      have change : (if (x.transformDue (s.dev.issueCtx t g).pipe).isSome then x.closeDue (s.dev.issueCtx t g) none else x.tellUpset none) =
          x.closeTransform (s.dev.issueCtx t g) op inverse table none := by
        simp only [Tile.closeDue, ready, Option.isSome_some, if_true]
      simp only [Dev.onOpen, member, Dev.insertEcc_done s.dev g ecc, cycle, if_true]
      rw [Dev.onTile_congr _ _ (f' := fun _ => x.closeTransform (s.dev.issueCtx t g) op inverse table none) change, Dev.onTile_going]
      rw [closes]
      exact going
    rw [closes] at act
    exact congrArg (fun d => Host.Outcome.next { s with dev := d }) act

end Sys2Proof.Machine

/- The reduction sequence (R60). -/

namespace Sys2Proof.Machine

section Fold

variable {q : Nat} (hq : q % 2 ^ 18 = 1)
include hq

theorem fold18_exact (z : Nat) : 2 ^ 18 * fold18 ((q - 1) / 2 ^ 18) z = z + (2 ^ 18 - z % 2 ^ 18) % 2 ^ 18 * q := by
  have prime : q = 1 + (q - 1) / 2 ^ 18 * 2 ^ 18 := by omega
  generalize (q - 1) / 2 ^ 18 = m at prime ⊢
  have clears : 2 ^ 18 ∣ z + (2 ^ 18 - z % 2 ^ 18) % 2 ^ 18 := by omega
  unfold fold18
  generalize (2 ^ 18 - z % 2 ^ 18) % 2 ^ 18 = u at clears ⊢
  have whole : 2 ^ 18 ∣ z + (u + u * m * 2 ^ 18) := by
    rw [← Nat.add_assoc]
    exact clears.add (Nat.dvd_mul_left _ _)
  simp only
  rw [Nat.mul_div_cancel' whole, prime, Nat.mul_add, Nat.mul_one, Nat.mul_assoc]

/-- A fold divides by 2^18 mod q. -/
theorem fold18_modEq (z : Nat) : 2 ^ 18 * fold18 ((q - 1) / 2 ^ 18) z ≡ z [MOD q] := by
  rw [fold18_exact hq]
  exact Nat.add_mul_modulus_modEq_iff.2 .rfl

theorem fold18_le (z : Nat) : 2 ^ 18 * fold18 ((q - 1) / 2 ^ 18) z ≤ z + (2 ^ 18 - 1) * q := by
  rw [fold18_exact hq]
  exact Nat.add_le_add_left (Nat.mul_le_mul_right _ (by omega)) _

end Fold

/-- Two folds, which `reduce60` makes before and after its factor 2^72. -/
def foldTwice (q z : Nat) : Nat := fold18 ((q - 1) / 2 ^ 18) (fold18 ((q - 1) / 2 ^ 18) z)

theorem reduce60_eq (q w : Nat) :
    reduce60 q w = subOnce q (subOnce q (subOnce q (subOnce q (foldTwice q (foldTwice q w * (2 ^ 72 % q)))))) := rfl

theorem subOnce_modEq (q v : Nat) : subOnce q v ≡ v [MOD q] := by
  unfold subOnce
  split
  next h => exact (Nat.mod_eq_sub_mod h).symm
  next => rfl

/-- Each compare-subtract stage takes one q off what stands above it. -/
theorem subOnce_lt {q v k : Nat} (hk : 0 < k) (h : v < (k + 1) * q) : subOnce q v < k * q := by
  unfold subOnce
  rw [Nat.succ_mul] at h
  split
  · omega
  · exact Nat.lt_of_lt_of_le (by omega) (Nat.le_mul_of_pos_left q hk)

section Sequence

variable {q : Nat} (hq : q % 2 ^ 18 = 1)
include hq

theorem foldTwice_modEq (z : Nat) : 2 ^ 36 * foldTwice q z ≡ z [MOD q] :=
  calc 2 ^ 36 * foldTwice q z = 2 ^ 18 * (2 ^ 18 * foldTwice q z) := by omega
    _ ≡ 2 ^ 18 * fold18 ((q - 1) / 2 ^ 18) z [MOD q] := (fold18_modEq hq _).mul_left _
    _ ≡ z [MOD q] := fold18_modEq hq z

theorem foldTwice_le (z : Nat) : 2 ^ 36 * foldTwice q z ≤ z + (2 ^ 36 - 1) * q := by
  have inner := fold18_le hq z
  have outer := fold18_le hq (fold18 ((q - 1) / 2 ^ 18) z)
  unfold foldTwice
  omega

/-- Two folds divide by 2^36, and two more undo that with the factor 2^72. -/
theorem reduce60_modEq (w : Nat) : reduce60 q w ≡ w [MOD q] := by
  have odd : Nat.Coprime q (2 ^ 72) := (Nat.coprime_two_right.2 (Nat.odd_iff.2 (by omega))).pow_right 72
  have folded : foldTwice q (foldTwice q w * (2 ^ 72 % q)) ≡ w [MOD q] := by
    refine Nat.ModEq.cancel_left_of_coprime odd ?_
    calc 2 ^ 72 * foldTwice q (foldTwice q w * (2 ^ 72 % q))
        = 2 ^ 36 * (2 ^ 36 * foldTwice q (foldTwice q w * (2 ^ 72 % q))) := by omega
      _ ≡ 2 ^ 36 * (foldTwice q w * (2 ^ 72 % q)) [MOD q] := (foldTwice_modEq hq _).mul_left _
      _ ≡ 2 ^ 36 * (foldTwice q w * 2 ^ 72) [MOD q] := ((Nat.mod_modEq _ _).mul_left _).mul_left _
      _ = 2 ^ 72 * (2 ^ 36 * foldTwice q w) := by omega
      _ ≡ 2 ^ 72 * w [MOD q] := (foldTwice_modEq hq w).mul_left _
  rw [reduce60_eq]
  exact (subOnce_modEq _ _).trans ((subOnce_modEq _ _).trans ((subOnce_modEq _ _).trans ((subOnce_modEq _ _).trans folded)))

/-- Of a 73-bit value the folds leave less than 5q, which four compare-subtract stages bring below q. -/
theorem reduce60_lt {w : Nat} (lo : 2 ^ 29 < q) (hi : q < 2 ^ 36) (hw : w < 2 ^ 73) : reduce60 q w < q := by
  have first := foldTwice_le hq w
  have second := foldTwice_le hq (foldTwice q w * (2 ^ 72 % q))
  have product : foldTwice q w * (2 ^ 72 % q) ≤ (2 ^ 37 + 2 ^ 36) * q := Nat.mul_le_mul (by omega) (Nat.mod_lt _ (by omega)).le
  have below : foldTwice q (foldTwice q w * (2 ^ 72 % q)) < 5 * q := by omega
  have subtracted : reduce60 q w < 1 * q := by
    rw [reduce60_eq]
    exact subOnce_lt (by decide) (subOnce_lt (by decide) (subOnce_lt (by decide) (subOnce_lt (by decide) below)))
  omega

end Sequence

/-- Settles O18: the folds give a value congruent to w below 5q, and the subtractions keep its residue. -/
theorem reduceSequence : Obligations.ReduceSequence := by
  unfold Obligations.ReduceSequence
  intro q w lo hi hq hw
  rw [← Nat.mod_eq_of_lt (reduce60_lt hq lo hi hw)]
  exact reduce60_modEq hq w

end Sys2Proof.Machine

/- Results of the V slot (R59, R71, R274). -/

namespace Sys2Proof.Machine

/- Checks that pass. -/

theorem openSlot_pass {ctx : IssueCtx} {x : Tile} {w unused : BitVec 26} {srcs : List RegName} (fields : w &&& unused = 0)
    (detector : ctx.hazard = false) : openSlot ctx x w unused srcs = .ok () := by
  rw [openSlot, reservedZero_pass fields]
  exact hazardFree_off ctx x srcs detector

/-- Past the reserved bits, a V-slot instruction of a tile that issues by itself goes on to its own checks. -/
theorem openSlot_bind {ctx : IssueCtx} {x : Tile} {w unused : BitVec 26} {srcs : List RegName} {α : Type} (fields : w &&& unused = 0)
    (detector : ctx.hazard = false) (k : Unit → Except IssueStop α) : (openSlot ctx x w unused srcs >>= k) = k () := by
  rw [openSlot_pass fields detector]
  rfl

theorem need_bind {α : Type} {c : Bool} (r : HaltReason) (h : c = true) (k : Unit → Except IssueStop α) : (need c r >>= k) = k () := by
  rw [h]
  rfl

/- Lanes and mask bits. -/

theorem lane_maskedVec (x : Tile) (m : BitVec 3) (f : Nat → Residue) {j : Nat} (hj : j < 1024) :
    lane (maskedVec x m f) j = if active x.k m j then f j else 0 := lane_mkVec _ hj

theorem mkVec_length (f : Nat → Residue) : (mkVec f).length = 1024 := by
  simp [mkVec]

theorem getLsbD_mkMask (f : Nat → Bool) {j : Nat} (hj : j < 1024) : (mkMask f).getLsbD j = f j := by
  rw [mkMask, BitVec.getLsbD_ofNat, testBit_packNat_one]
  simp [hj]

theorem groupActive_of_active {ks : Vector (BitVec 1024) 8} {m : BitVec 3} {j : Nat} (h : active ks m j = true) : groupActive ks m (j / 128) = true := by
  rw [active, Bool.or_eq_true] at h
  rw [groupActive, Bool.or_eq_true]
  refine h.imp id fun bit => bne_iff_ne.2 fun none => ?_
  have zero := congrArg (·.getLsbD (j % 128)) none
  simp only [BitVec.getLsbD_extractLsb', Nat.div_add_mod, Nat.mod_lt j (show 0 < 128 by decide), decide_true, Bool.true_and] at zero
  exact Bool.false_ne_true (BitVec.getLsbD_zero.symm.trans (zero.symm.trans bit))

/- Flags that lanes and nodes raise. -/

theorem getLsbD_foldl_or {α : Type} (l : List α) (f : α → Word) (fl : Word) (i : Nat) :
    (l.foldl (fun fl a => fl ||| f a) fl).getLsbD i = (fl.getLsbD i || l.any (fun a => (f a).getLsbD i)) := by
  induction l generalizing fl with
  | nil => simp
  | cons a l ih => simp [ih, Bool.or_assoc]

/-- The flags that the active lanes raise, gathered in lane order. -/
theorem flagsOf_foldl (x : Tile) (w : BitVec 26) (raised : Nat → Word) :
    flagsOf x w raised ((List.range 1024).foldl (fun fl j => if active x.k (vMask w) j then fl ||| raised j else fl) 0) := by
  have gathers : (fun (fl : Word) j => if active x.k (vMask w) j then fl ||| raised j else fl) =
      fun fl j => fl ||| if active x.k (vMask w) j then raised j else 0 := by
    funext fl j
    split <;> simp
  intro i
  have none : (0 : Word).getLsbD i = false := BitVec.getLsbD_zero
  rw [gathers, getLsbD_foldl_or, none, Bool.false_or, List.any_eq_true]
  refine exists_congr fun j => ?_
  rw [List.mem_range]
  split <;> simp_all

section Results

variable {s : State} {t : TileId} {g : GroupId} {w : BitVec 26} {c : Instr} {f : IssueCtx → Tile → Issue} {latency : Nat}
variable (ready : s.ready t g) (row : exec c s = s.act (fun d => d.issueSlotOf t .v f))
include ready row

/-- A V-slot instruction whose checks pass and whose results are launched. -/
theorem State.issues_launch {dests : Tile → List Dest}
    (passes : f (s.sees t g) (s.settled t g) = .ok ((s.settled t g).launch (s.sees t g) latency (dests (s.settled t g)))) :
    s.issues t g c (fun x => x.fly (s.sees t g).pipe latency (dests x)) := by
  refine State.issues_of_ok ready row (passes.trans (congrArg _ (Tile.launch_eq_fly _ _ _ _))) ?_ ?_ ?_ ?_ ?_
  · exact Tile.fly_tu ..
  · exact Tile.fly_nma ..
  · exact Tile.fly_pend ..
  · exact Tile.fly_halted ..
  · exact Tile.fly_taken ..

/-- A result in a vector register, of an instruction whose active lane j is F j. -/
theorem State.lanes_of_launch {rest : List Dest} {F : Nat → Residue} {P : Nat → Nat → Prop}
    (passes : f (s.sees t g) (s.settled t g) = .ok ((s.settled t g).launch (s.sees t g) latency
      (.v (vD w) (maskedVec (s.settled t g) (vMask w) F) (writeMask (s.settled t g) (vMask w) (vZ w)) :: rest)))
    (value : ∀ j, j < 1024 → active (s.settled t g).k (vMask w) j = true → P j (F j).toNat) : s.lanes t g w c latency rest P := by
  refine ⟨maskedVec (s.settled t g) (vMask w) F, mkVec_length _, ?_, fun j hj => ?_⟩
  · exact State.issues_launch ready row (dests := fun x => .v (vD w) _ (writeMask x (vMask w) (vZ w)) :: rest) passes
  · rw [lane_maskedVec _ _ _ hj]
    split
    next act => exact value j hj act
    next => rfl

/-- A result in a mask register, of an instruction whose active lane j gives the bit P j. -/
theorem State.bits_of_launch {P : Nat → Bool}
    (passes : f (s.sees t g) (s.settled t g) = .ok ((s.settled t g).launch (s.sees t g) latency
      [.k (vKD w) (maskedBits (s.settled t g) (vMask w) P) (writeMask (s.settled t g) (vMask w) (vZ w))])) : s.bits t g w c latency P := by
  refine ⟨maskedBits (s.settled t g) (vMask w) P, ?_, fun j hj => getLsbD_mkMask _ hj⟩
  exact State.issues_launch ready row (dests := fun x => [.k (vKD w) _ (writeMask x (vMask w) (vZ w))]) passes

end Results

end Sys2Proof.Machine

/- Mask writers (R61, R279, R283). -/

namespace Sys2Proof.Machine

theorem condNat_eq (c : BitVec 2) (x y : Nat) : condNat c x y = condHolds c x y := by
  have cases : c = 0 ∨ c = 1 ∨ c = 2 ∨ c = 3 := by
    revert c
    decide
  rcases cases with rfl | rfl | rfl | rfl
  · rfl
  · rfl
  · rfl
  · show decide (y ≤ x) = !decide (x < y)
    rw [← decide_not]
    exact decide_eq_decide.2 Nat.not_lt.symm

/-- Bits [10:0] of S[SS]: the lanes that KTAIL keeps (R283). -/
theorem field_low (x n : Nat) : field x 0 n = x % 2 ^ n := by
  simp [field_eq]

section Masks

variable {s : State} {t : TileId} {g : GroupId} {w : BitVec 26}
variable (ready : s.ready t g)
include ready

theorem State.bits_vcmp (primes : selOk (s.settled t g) (vMctx w) (vSE w) (vGS w) (vMask w) = true) :
    s.bits t g w (.vcmp t w) 9 (fun j =>
      condHolds (vCond w) (laneA (s.settled t g) w j % primeOf (s.settled t g) w j) (laneB (s.settled t g) w j % primeOf (s.settled t g) w j)) := by
  simp only [← condNat_eq]
  refine State.bits_of_launch ready rfl ?_
  exact (openSlot_bind BitVec.and_zero (State.ready_hazard ready) _).trans (need_bind _ primes _)

/-- A mask instruction whose bits depend on no lane's prime (`issueMask`). -/
theorem State.bits_mask {c : Instr} {unused : BitVec 26} {srcs : List RegName} {F : Tile → Nat → Bool} {P : Nat → Bool} (fields : w &&& unused = 0)
    (row : exec c s = s.act (fun d => d.issueSlotOf t .v (fun ctx x => issueMask ctx w unused srcs (F x) x))) (bits : F (s.settled t g) = P) :
    s.bits t g w c 1 P := by
  subst bits
  exact State.bits_of_launch ready row (openSlot_bind fields (State.ready_hazard ready) _)

theorem State.bits_ktail (fields : w &&& 0x31F087F = 0) (fits : ((s.settled t g).sreg (vSS w)).toNat % 2048 ≤ 1024) :
    s.bits t g w (.ktail t w) 1 (fun j => decide (j < ((s.settled t g).sreg (vSS w)).toNat % 2048)) := by
  have kept : field ((s.settled t g).sreg (vSS w)).toNat 0 11 = ((s.settled t g).sreg (vSS w)).toNat % 2048 := field_low _ 11
  rw [← kept] at fits ⊢
  refine State.bits_of_launch ready rfl ?_
  exact (openSlot_bind fields (State.ready_hazard ready) _).trans (need_bind _ (decide_eq_true fits) _)

theorem State.refuses_ktail (fields : w &&& 0x31F087F = 0) (long : 1024 < ((s.settled t g).sreg (vSS w)).toNat % 2048) :
    s.refuses t g (.ktail t w) 1 .operandRange := by
  refine State.refuses_of_error (sl := .v) ready rfl ?_
  have above : decide (field ((s.settled t g).sreg (vSS w)).toNat 0 11 ≤ 1024) = false := decide_eq_false (by rw [field_low]; omega)
  simp only [issueKtail, openSlot_bind fields (State.ready_hazard ready), above, need_false, IssueStop.error_bind]

end Masks

/-- Settles O5: each instruction by the checks that it passes, and the bits that its issue function gathers. -/
theorem maskResults : Obligations.MaskResults := by
  unfold Obligations.MaskResults
  intro s t g w ready x ka kb n
  refine ⟨fun primes => State.bits_vcmp ready primes.1, fun fields => ⟨?_, ?_, ?_⟩, fun fields => ?_, fun fields => ⟨?_, ?_, ?_⟩⟩
  · exact State.bits_mask ready fields (F := fun x j => kaBit x w j && kbBit x w j) rfl rfl
  · exact State.bits_mask ready fields (F := fun x j => kaBit x w j || kbBit x w j) rfl rfl
  · exact State.bits_mask ready fields (F := fun x j => kaBit x w j != kbBit x w j) rfl (funext fun _ => congrFun (congrFun Bool.bne_eq_xor _) _)
  · exact State.bits_mask ready fields (F := fun x j => !kaBit x w j) rfl rfl
  · exact State.bits_mask ready fields (F := fun x j => (x.sreg (vSS w)).getLsbD (j % 64)) rfl rfl
  · exact State.bits_ktail ready fields
  · exact State.refuses_ktail ready fields

end Sys2Proof.Machine

/- FP32 results and comparisons (R62, R279). -/

namespace Sys2Proof.Machine

/-- R62: a pattern of 32 bits that is no subnormal, and no NaN but the one. -/
def IsFp32Result (n : Nat) : Prop :=
  n < 2 ^ 32 ∧ (n / 2 ^ 23 % 256 = 0 → n % 2 ^ 23 = 0) ∧ (n / 2 ^ 23 % 256 = 255 → n % 2 ^ 31 = 0x7F800000 ∨ n = 0x7FC00000)

theorem fp32_sign (neg : Bool) : fp32.sign neg = 0 ∨ fp32.sign neg = 2 ^ 31 := by
  cases neg with
  | false => exact .inl rfl
  | true => exact .inr (by decide)

theorem isFp32Result_finite (neg : Bool) {ex man : Nat} (hm : man < 2 ^ 23) (he : ex < 255) (normal : ex = 0 → man = 0) :
    IsFp32Result (fp32.sign neg + ex * 2 ^ 23 + man) := by
  unfold IsFp32Result
  rcases fp32_sign neg with h | h <;> rw [h] <;> omega

theorem isFp32Result_inf (neg : Bool) : IsFp32Result (fp32.infBits neg) := by
  cases neg <;> (unfold IsFp32Result; decide)

theorem isFp32Result_nan : IsFp32Result fp32.nanBits := by
  unfold IsFp32Result
  decide

theorem rneShift_le {v n s : Nat} (h : v < 2 ^ (n + s)) : rneShift v s ≤ 2 ^ n := by
  have whole : v / 2 ^ s < 2 ^ n := Nat.div_lt_of_lt_mul (by rwa [← Nat.pow_add, Nat.add_comm])
  unfold rneShift
  simp only
  split
  · exact whole
  · exact whole.le

/-- The significand that `FpFormat.round` forms of m · 2^e over 2^g. -/
def significand (m : Nat) (e g : Int) : Nat := if g ≤ e then m * 2 ^ (e - g).toNat else rneShift m (g - e).toNat

/-- A significand taken at its leading bit's place has 24 bits, or is 2^24 by a carry. -/
theorem significand_le {m : Nat} {e g : Int} (h : e + m.log2 - 23 ≤ g) : significand m e g ≤ 2 ^ 24 := by
  have top : m < 2 ^ (m.log2 + 1) := Nat.lt_log2_self
  unfold significand
  split
  next le =>
    calc m * 2 ^ (e - g).toNat ≤ 2 ^ (m.log2 + 1) * 2 ^ (e - g).toNat := Nat.mul_le_mul_right _ top.le
      _ = 2 ^ (m.log2 + 1 + (e - g).toNat) := (Nat.pow_add ..).symm
      _ ≤ 2 ^ 24 := Nat.pow_le_pow_right (by decide) (by omega)
  next => exact rneShift_le (top.trans_le (Nat.pow_le_pow_right (by decide) (by omega)))

theorem fp32_round_eq (neg : Bool) {m : Nat} (e : Int) (hm : m ≠ 0) : ∃ g : Int, e + m.log2 - 23 ≤ g ∧ -149 ≤ g ∧
    fp32.round neg m e =
      if significand m e g < 2 ^ 23 then { bits := fp32.sign neg, underflow := true }
      else if g + 23 + (if decide (significand m e g = 2 ^ 24) then 1 else 0) > 127 then { bits := fp32.infBits neg, overflow := true }
      else { bits := fp32.sign neg + (g + 23 + (if decide (significand m e g = 2 ^ 24) then 1 else 0) + 127).toNat * 2 ^ 23 +
        if decide (significand m e g = 2 ^ 24) then 0 else significand m e g - 2 ^ 23 } := by
  refine ⟨max (e + m.log2 - 23) (1 - 127 - 23), by omega, by omega, ?_⟩
  simp only [FpFormat.round, if_neg hm]
  rfl

theorem fp32_round_isResult (neg : Bool) (m : Nat) (e : Int) : IsFp32Result (fp32.round neg m e).bits := by
  have zero : IsFp32Result (fp32.sign neg) := isFp32Result_finite neg (ex := 0) (man := 0) (by decide) (by decide) (fun _ => rfl)
  by_cases hm : m = 0
  · rw [hm]
    exact zero
  · obtain ⟨g, lead, least, round⟩ := fp32_round_eq neg e hm
    have le := significand_le lead
    rw [round]
    split
    · exact zero
    next normal =>
      by_cases carry : significand m e g = 2 ^ 24
      · simp only [carry, decide_true, if_true]
        split
        · exact isFp32Result_inf neg
        · exact isFp32Result_finite neg (ex := (g + 23 + 1 + 127).toNat) (man := 0) (by decide) (by omega) (fun _ => rfl)
      · simp only [carry, decide_false, Bool.false_eq_true, if_false]
        split
        · exact isFp32Result_inf neg
        · exact isFp32Result_finite neg (ex := (g + 23 + 0 + 127).toNat) (man := significand m e g - 2 ^ 23) (by omega) (by omega) (by omega)

theorem fp32_encode_isResult (v : Fp) : IsFp32Result (fp32.encode v).bits := by
  cases v with
  | nan => exact isFp32Result_nan
  | inf neg => exact isFp32Result_inf neg
  | num neg m e => exact fp32_round_isResult neg m e

/-- Minimum and maximum give an operand as it is read, or the one NaN. -/
theorem fPick_eq_encode (isMin : Bool) (x y : Nat) : ∃ v, fPick isMin x y = fp32.encode v := by
  unfold fPick
  simp only
  split
  · exact ⟨.nan, rfl⟩
  · split
    · exact ⟨_, rfl⟩
    · split
      · exact ⟨_, rfl⟩
      · split <;> exact ⟨_, rfl⟩

theorem fPick_isResult (isMin : Bool) (x y : Nat) : IsFp32Result (fPick isMin x y).bits := by
  obtain ⟨v, h⟩ := fPick_eq_encode isMin x y
  rw [h]
  exact fp32_encode_isResult v

theorem IsFp32Result.lane {n : Nat} (h : IsFp32Result n) : (res n).toNat = n := res_toNat (h.1.trans (by decide))

/- Comparisons. -/

theorem Fp.lt_asymm {x y : Fp} (h : x.lt y = true) : y.lt x = false := by
  cases x with
  | nan => exact absurd h Bool.false_ne_true
  | inf a => cases y with
    | nan => exact absurd h Bool.false_ne_true
    | inf b => revert a b; decide
    | num b n f => simpa [Fp.lt] using h
  | num a m e => cases y with
    | nan => exact absurd h Bool.false_ne_true
    | inf b => simpa [Fp.lt] using h
    | num b n f =>
      rw [Fp.lt, decide_eq_true_iff] at h
      rw [Fp.lt, min_comm]
      exact decide_eq_false h.le.not_gt

theorem Fp.lt_notNan {x y : Fp} (h : x.lt y = true) : x.isNan = false ∧ y.isNan = false := by
  cases x <;> cases y <;> simp_all [Fp.lt, Fp.isNan]

/-- Not below is equal or above, where neither is a NaN. -/
theorem Fp.notLt_eq (x y : Fp) : (!x.isNan && !y.isNan && !x.lt y) = (x.eq y || y.lt x) := by
  cases above : y.lt x with
  | true =>
    obtain ⟨hy, hx⟩ := Fp.lt_notNan above
    simp [hx, hy, Fp.lt_asymm above]
  | false => simp [Fp.eq, above]

theorem condFp_eq (c : BitVec 2) (x y : Fp) : condFp c x y = match c.toNat with
    | 0 => x.eq y
    | 1 => !x.eq y
    | 2 => x.lt y
    | _ => x.eq y || y.lt x := by
  have cases : c = 0 ∨ c = 1 ∨ c = 2 ∨ c = 3 := by
    revert c
    decide
  rcases cases with rfl | rfl | rfl | rfl
  · rfl
  · rfl
  · rfl
  · exact Fp.notLt_eq x y

section Lanes

variable {s : State} {t : TileId} {g : GroupId} {w : BitVec 26}
variable (ready : s.ready t g) (fields : w &&& 0x7F = 0)
include ready fields

/-- An FP32 lane operation (`issueFp`): its lanes and the flags of the active ones. -/
theorem State.lanes_fp {c : Instr} {srcs : List RegName} {F : Tile → Nat → FpOut} {op : Nat → FpOut}
    (row : exec c s = s.act (fun d => d.issueSlotOf t .v (fun ctx x => issueFp ctx w srcs (F x) x))) (value : F (s.settled t g) = op)
    (result : ∀ j, IsFp32Result (op j).bits) : ∃ fl, flagsOf (s.settled t g) w (fun j => mveFp (op j)) fl ∧
      s.lanes t g w c 5 [.mve fl] (fun j r => r = (op j).bits) := by
  subst value
  refine ⟨_, flagsOf_foldl _ _ _, State.lanes_of_launch ready row ?_ fun j _ _ => (result j).lane⟩
  exact openSlot_bind fields (State.ready_hazard ready) _

theorem State.bits_fcmp : s.bits t g w (.fcmp t w) 9 (fun j =>
    let u := fp32.decode (laneA (s.settled t g) w j % 2 ^ 32)
    let v := fp32.decode (laneB (s.settled t g) w j % 2 ^ 32)
    match (vCond w).toNat with
    | 0 => u.eq v
    | 1 => !u.eq v
    | 2 => u.lt v
    | _ => u.eq v || v.lt u) := by
  simp only [← condFp_eq]
  exact State.bits_of_launch ready rfl (openSlot_bind fields (State.ready_hazard ready) _)

end Lanes

/-- Settles O6: each operation by the lanes and flags of `issueFp`, whose values are encodings; and what no encoding is. -/
theorem fpResults : Obligations.FpResults := by
  unfold Obligations.FpResults
  refine ⟨fun s t g w ready fields => ?_, fun x y z r hr => ?_⟩
  · intro x a b d result
    have encoded : ∀ v : Nat → Fp, ∀ j, IsFp32Result (fp32.encode (v j)).bits := fun v j => fp32_encode_isResult _
    refine ⟨?_, ?_, ?_, ?_, ?_, ?_, State.bits_fcmp ready fields⟩
    · exact State.lanes_fp ready fields (F := fun x j => fAdd (fpA x w j) (fpB x w j)) rfl rfl (encoded _)
    · exact State.lanes_fp ready fields (F := fun x j => fSub (fpA x w j) (fpB x w j)) rfl rfl (encoded _)
    · exact State.lanes_fp ready fields (F := fun x j => fMul (fpA x w j) (fpB x w j)) rfl rfl (encoded _)
    · exact State.lanes_fp ready fields (F := fun x j => fFma (fpA x w j) (fpB x w j) (fpD x w j)) rfl rfl (encoded _)
    · exact State.lanes_fp ready fields (F := fun x j => fMin (fpA x w j) (fpB x w j)) rfl rfl fun _ => fPick_isResult ..
    · exact State.lanes_fp ready fields (F := fun x j => fMax (fpA x w j) (fpB x w j)) rfl rfl fun _ => fPick_isResult ..
  · simp only [List.mem_cons, List.not_mem_nil, or_false] at hr
    rcases hr with rfl | rfl | rfl | rfl | rfl | rfl
    · exact fp32_encode_isResult _
    · exact fp32_encode_isResult _
    · exact fp32_encode_isResult _
    · exact fp32_encode_isResult _
    · exact fPick_isResult ..
    · exact fPick_isResult ..

end Sys2Proof.Machine

/- Modular lanes, and conversions between residues and FP32 (R58, R63). -/

namespace Sys2Proof.Machine

theorem ModEntry.q_lt (e : ModEntry) : e.q < 2 ^ 36 := Nat.mod_lt _ (by decide)

theorem selPrime_lt (x : Tile) (m : BitVec 2) (se : BitVec 4) (gs : Bool) (k : Nat) : selPrime x m se gs k < 2 ^ 36 := by
  unfold selPrime ctxPrime
  split
  · exact ModEntry.q_lt _
  · decide

/-- What is reduced mod a table's prime fits a lane. -/
theorem res_selPrime {x : Tile} {m : BitVec 2} {se : BitVec 4} {gs : Bool} {k v : Nat} (h : v < selPrime x m se gs k) : (res v).toNat = v :=
  res_toNat (h.trans (selPrime_lt ..))

theorem primeOf_pos {x : Tile} {w : BitVec 26} (primes : primesOk x w) {j : Nat} (hj : j < 1024) (act : active x.k (vMask w) j = true) :
    0 < primeOf x w j := primes.2 _ (by omega) (groupActive_of_active act)

/-- The flags and the clamped value of a number read as a residue (R63). -/
theorem residueOfFp_num (q : Nat) (neg : Bool) (m : Nat) (e : Int) : residueOfFp q (.num neg m e) =
    let lim := (q - 1) / 2
    let clamped := max (-(lim : Int)) (min lim (nearestInt neg m e))
    ((clamped % (q : Int)).toNat, if nearestInt neg m e = clamped then 0 else mveCvtSat) := by
  generalize hv : nearestInt neg m e = v
  generalize hl : (q - 1) / 2 = lim
  have clamp : (if v > lim then (lim : Int) else if v < -(lim : Int) then -(lim : Int) else v) = max (-(lim : Int)) (min (lim : Int) v) := by
    split
    · omega
    · split <;> omega
  simp only [residueOfFp, hv, hl, clamp, flagIf, decide_not, Bool.not_eq_true', decide_eq_false_iff_not, eq_comm (b := v), ite_not]

/-- The residue of a value is canonical. -/
theorem residueOfFp_lt {q : Nat} (hq : 0 < q) (v : Fp) : (residueOfFp q v).1 < q := by
  have below : ∀ n : Int, (n % (q : Int)).toNat < q := fun n => by
    have := Int.emod_lt_of_pos n (Int.natCast_pos.2 hq)
    omega
  cases v with
  | nan => exact hq
  | inf neg => exact below _
  | num neg m e => exact below _

theorem natCast_toNat_emod (n : Int) {q : Nat} (hq : 0 < q) : ((n % (q : Int)).toNat : Int) = n % (q : Int) :=
  Int.toNat_of_nonneg (Int.emod_nonneg _ (by omega))

section Conversions

variable {s : State} {t : TileId} {g : GroupId} {w : BitVec 26}
variable (ready : s.ready t g)
include ready

/-- A modular lane operation (`issueMod`): its lanes under their primes. -/
theorem State.lanes_mod {c : Instr} {unused : BitVec 26} {srcs : List RegName} {latency : Nat} {F : Tile → Nat → Nat → Nat} {P : Nat → Nat → Prop}
    (fields : w &&& unused = 0) (primes : selOk (s.settled t g) (vMctx w) (vSE w) (vGS w) (vMask w) = true)
    (row : exec c s = s.act (fun d => d.issueSlotOf t .v (fun ctx x => issueMod ctx w unused srcs latency (F x) x)))
    (value : ∀ j, j < 1024 → active (s.settled t g).k (vMask w) j = true →
      P j (res (F (s.settled t g) (primeOf (s.settled t g) w j) j)).toNat) : s.lanes t g w c latency [] P := by
  refine State.lanes_of_launch ready row ?_ value
  exact (openSlot_bind fields (State.ready_hazard ready) _).trans (need_bind _ primes _)

variable (primes : primesOk (s.settled t g) w) (fields : w &&& 0xF800 = 0)
include primes fields

theorem State.lanes_cvtrf : s.lanes t g w (.cvtrf t w) 10 [] (fun j r =>
    let q := primeOf (s.settled t g) w j
    let a := laneA (s.settled t g) w j % q
    r = (if a ≤ (q - 1) / 2 then fp32.round false a 0 else fp32.round true (q - a) 0).bits) := by
  refine State.lanes_mod ready fields primes.1 (F := fun x q j => (centredFp q (laneA x w j)).bits) rfl fun j _ _ => ?_
  refine IsFp32Result.lane ?_
  unfold centredFp
  simp only
  split <;> exact fp32_round_isResult ..

/-- CVTFR gives each active lane the residue and the flags of `residueOfFp`. -/
theorem State.lanes_cvtfr {F : Nat → Nat × Word}
    (hF : F = fun j => residueOfFp (primeOf (s.settled t g) w j) (fp32.decode (laneA (s.settled t g) w j % 2 ^ 32))) :
    ∃ fl, flagsOf (s.settled t g) w (fun j => (F j).2) fl ∧ s.lanes t g w (.cvtfr t w) 10 [.mve fl] (fun j r => r = (F j).1) := by
  refine ⟨_, flagsOf_foldl _ _ _, State.lanes_of_launch ready rfl (F := fun j => res (F j).1) ?_ fun j hj act => ?_⟩
  · subst hF
    exact (openSlot_bind fields (State.ready_hazard ready) _).trans (need_bind _ primes.1 _)
  · subst hF
    exact res_selPrime (residueOfFp_lt (primeOf_pos primes hj act) _)

end Conversions

/-- A result whose values meet a condition meets every weaker one. -/
theorem State.lanes_mono {s : State} {t : TileId} {g : GroupId} {w : BitVec 26} {c : Instr} {latency : Nat} {rest : List Dest} {P Q : Nat → Nat → Prop}
    (h : s.lanes t g w c latency rest P) (weaker : ∀ j r, j < 1024 → active (s.settled t g).k (vMask w) j = true → P j r → Q j r) :
    s.lanes t g w c latency rest Q := by
  obtain ⟨v, length, issues, lanes⟩ := h
  refine ⟨v, length, issues, fun j hj => ?_⟩
  have value := lanes j hj
  split
  next act =>
    rw [if_pos act] at value
    exact weaker j _ hj act value
  next act => rwa [if_neg act] at value

/-- Settles O7: CVTRF by the centred residue, CVTFR by what `residueOfFp` gives of each kind of value. -/
theorem conversionResults : Obligations.ConversionResults := by
  unfold Obligations.ConversionResults
  intro s t g w ready primes fields x q half
  refine ⟨State.lanes_cvtrf ready primes fields, ?_⟩
  obtain ⟨fl, flags, lanes⟩ := State.lanes_cvtfr ready primes fields rfl
  refine ⟨fl, ?_, State.lanes_mono lanes fun j r hj act value => ?_⟩
  · refine (congrArg (flagsOf x w · fl) (funext fun j => ?_)).mp flags
    split
    next h => rw [h]; rfl
    next neg h => rw [h]; rfl
    next neg m e h => rw [h, residueOfFp_num]
  · have pos : 0 < q j := primeOf_pos primes hj act
    subst value
    split
    next h => rw [h]; rfl
    next neg h => rw [h]; exact natCast_toNat_emod _ pos
    next neg m e h => rw [h, residueOfFp_num]; exact natCast_toNat_emod _ pos

end Sys2Proof.Machine

/- Nodes of scans and trees (R64 to R68). -/

namespace Sys2Proof.Machine

/-- What a modular operation makes of a list of canonical values, from its identity (R68). -/
def Combine.total (c : Combine) (q : Nat) (l : List Nat) : Nat :=
  match c with
  | .msum => l.sum % q
  | .mprod => l.prod % q
  | .mmin => l.foldl min (q - 1)
  | .mmax => l.foldl max 0
  | _ => 0

/-- The node of a list of canonical values: invalid where there is none, else their total, which raises no flag. -/
def Combine.summary (c : Combine) (q : Nat) (l : List Nat) : Node := if l = [] then none else some (c.total q l, 0)

theorem Combine.summary_nil (c : Combine) (q : Nat) : c.summary q [] = none := rfl

theorem Combine.summary_of_ne_nil (c : Combine) (q : Nat) {l : List Nat} (h : l ≠ []) : c.summary q l = some (c.total q l, 0) := if_neg h

theorem Combine.summary_flags (c : Combine) (q : Nat) (l : List Nat) : ((c.summary q l).map (·.2)).getD 0 = 0 := by
  unfold summary
  split <;> rfl

theorem Combine.summary_isNone (c : Combine) (q : Nat) (l : List Nat) : (c.summary q l).isNone = l.isEmpty := by
  cases l <;> rfl

/-- A fold of an idempotent operation over two lists, each folded from the same start. -/
theorem foldl_append_idem (op : Nat → Nat → Nat) [Std.Associative op] [Std.Commutative op] {m : Nat} (idem : op m m = m) (l k : List Nat) :
    (l ++ k).foldl op m = op (l.foldl op m) (k.foldl op m) := by
  have absorbs : op (l.foldl op m) m = l.foldl op m := by
    rw [Std.Commutative.comm (op := op), ← List.foldl_assoc (op := op), idem]
  rw [List.foldl_append, ← List.foldl_assoc (op := op), absorbs]

theorem Combine.apply_total {c : Combine} (modular : c.isFp = false) (q : Nat) (l k : List Nat) :
    c.apply q (c.total q l) (c.total q k) = (c.total q (l ++ k), 0) := by
  cases c with
  | msum => simp [apply, total, Nat.add_mod]
  | mprod => simp [apply, total, Nat.mul_mod]
  | mmin => exact congrArg (·, 0) (foldl_append_idem min (min_self _) l k).symm
  | mmax => exact congrArg (·, 0) (foldl_append_idem max (max_self _) l k).symm
  | fsum | fmin | fmax => cases modular

theorem Combine.node_none_left (c : Combine) (q : Nat) (b : Node) : c.node q none b = b := by
  cases b <;> rfl

theorem Combine.node_none_right (c : Combine) (q : Nat) (a : Node) : c.node q a none = a := by
  cases a <;> rfl

/-- Nodes of two lists combine to the node of both. -/
theorem Combine.node_summary {c : Combine} (modular : c.isFp = false) (q : Nat) (l k : List Nat) :
    c.node q (c.summary q l) (c.summary q k) = c.summary q (l ++ k) := by
  by_cases hl : l = []
  · rw [hl, summary_nil, List.nil_append, node_none_left]
  · by_cases hk : k = []
    · rw [hk, summary_nil, List.append_nil, node_none_right]
    · rw [summary_of_ne_nil c q hl, summary_of_ne_nil c q hk, summary_of_ne_nil c q (by simp [hl])]
      show some ((c.apply q _ _).1, _) = _
      rw [apply_total modular]
      simp

/-- A lane enters a modular scan or tree as the node of its canonical value alone. -/
theorem Combine.input_modular {c : Combine} (modular : c.isFp = false) {q : Nat} (hq : 0 < q) (x : Residue) :
    some (c.input q x) = c.summary q [x.toNat % q] := by
  have canonical : x.toNat % q < q := Nat.mod_lt _ hq
  cases c with
  | msum => simp [input, isFp, summary, total]
  | mprod => simp [input, isFp, summary, total]
  | mmin =>
    have le : x.toNat % q ≤ q - 1 := by omega
    simp [input, isFp, summary, total, le]
  | mmax => simp [input, isFp, summary, total]
  | fsum | fmin | fmax => cases modular

/-- But for products, the total of no value is the identity of R68. -/
theorem Combine.total_eq {c : Combine} (modular : c.isFp = false) (h : c ≠ .mprod) (q : Nat) (l : List Nat) :
    c.total q l = if l = [] then c.identity q else c.total q l := by
  split
  next none =>
    subst none
    cases c with
    | msum => exact Nat.zero_mod q
    | mprod => exact absurd rfl h
    | mmin | mmax => rfl
    | fsum | fmin | fmax => cases modular
  next => rfl

theorem Combine.total_lt (c : Combine) {q : Nat} (hq : 0 < q) {l : List Nat} (canonical : ∀ v ∈ l, v < q) : c.total q l < q := by
  cases c with
  | msum => exact Nat.mod_lt _ hq
  | mprod => exact Nat.mod_lt _ hq
  | mmin => exact List.foldlRecOn (motive := (· < q)) l min (by omega) fun m hm v _ => (Nat.min_le_left _ _).trans_lt hm
  | mmax => exact List.foldlRecOn (motive := (· < q)) l max hq fun m hm v hv => max_lt hm (canonical v hv)
  | _ => exact hq

/- FP32 nodes. -/

/-- The operation of R62 that an FP32 scan or tree combines with. -/
def Combine.fpOp : Combine → Nat → Nat → FpOut
  | .fmin => fMin
  | .fmax => fMax
  | _ => fAdd

theorem Combine.node_some_fp {c : Combine} (fp : c.isFp = true) (q a b : Nat) (f h : Word) :
    c.node q (some (a, f)) (some (b, h)) = some ((c.fpOp a b).bits, f ||| h ||| mveFp (c.fpOp a b)) := by
  have apply : c.apply q a b = ((c.fpOp a b).bits, mveFp (c.fpOp a b)) := by
    cases c with
    | fsum | fmin | fmax => rfl
    | _ => cases fp
  show some ((c.apply q a b).1, f ||| h ||| (c.apply q a b).2) = _
  rw [apply]

theorem Combine.fpOp_isResult (c : Combine) (a b : Nat) : IsFp32Result (c.fpOp a b).bits := by
  cases c with
  | fmin => exact fPick_isResult ..
  | fmax => exact fPick_isResult ..
  | _ => exact fp32_encode_isResult _

theorem Combine.node_isResult {c : Combine} (fp : c.isFp = true) (q : Nat) {a b : Node} (ha : ∀ v ∈ a, IsFp32Result v.1)
    (hb : ∀ v ∈ b, IsFp32Result v.1) : ∀ v ∈ c.node q a b, IsFp32Result v.1 := by
  rcases a with _ | ⟨a, f⟩
  · rw [node_none_left]
    exact hb
  · rcases b with _ | ⟨b, h⟩
    · rw [node_none_right]
      exact ha
    · rw [node_some_fp fp]
      rintro v ⟨⟩
      exact fpOp_isResult ..

/- Runs of active lanes. -/

/-- The active lanes from lo up to hi. -/
def activeLanes (x : Tile) (w : BitVec 26) (lo hi : Nat) : List Nat := (List.range' lo (hi - lo)).filter (active x.k (vMask w))

theorem activeLanes_append (x : Tile) (w : BitVec 26) {lo mid hi : Nat} (h1 : lo ≤ mid) (h2 : mid ≤ hi) :
    activeLanes x w lo mid ++ activeLanes x w mid hi = activeLanes x w lo hi := by
  rw [activeLanes, activeLanes, activeLanes, ← List.filter_append]
  have joins := List.range'_append_1 (s := lo) (m := mid - lo) (n := hi - mid)
  rw [Nat.add_sub_cancel' h1, show mid - lo + (hi - mid) = hi - lo by omega] at joins
  rw [joins]

theorem activeLanes_one (x : Tile) (w : BitVec 26) (i : Nat) : activeLanes x w i (i + 1) = if active x.k (vMask w) i then [i] else [] := by
  simp [activeLanes, List.filter_cons]

/-- The lanes between two bounds, of a longer run. -/
theorem filter_range_between (p : Nat → Bool) {lo hi n : Nat} (h1 : lo ≤ hi) (h2 : hi ≤ n) :
    (List.range n).filter (fun i => p i && (decide (lo ≤ i) && decide (i < hi))) = (List.range' lo (hi - lo)).filter p := by
  have split : List.range n = List.range' 0 lo ++ (List.range' lo (hi - lo) ++ List.range' hi (n - hi)) := by
    have upper := List.range'_append_1 (s := lo) (m := hi - lo) (n := n - hi)
    rw [Nat.add_sub_cancel' h1] at upper
    rw [upper, List.range_eq_range']
    have whole := List.range'_append_1 (s := 0) (m := lo) (n := hi - lo + (n - hi))
    rw [Nat.zero_add, show lo + (hi - lo + (n - hi)) = n by omega] at whole
    exact whole.symm
  have below : (List.range' 0 lo).filter (fun i => p i && (decide (lo ≤ i) && decide (i < hi))) = [] :=
    List.filter_eq_nil_iff.2 fun i mem => by simp [List.mem_range'_1] at mem ⊢; omega
  have above : (List.range' hi (n - hi)).filter (fun i => p i && (decide (lo ≤ i) && decide (i < hi))) = [] :=
    List.filter_eq_nil_iff.2 fun i mem => by simp [List.mem_range'_1] at mem ⊢; omega
  have inside : (List.range' lo (hi - lo)).filter (fun i => p i && (decide (lo ≤ i) && decide (i < hi))) = (List.range' lo (hi - lo)).filter p :=
    List.filter_congr fun i mem => by
      obtain ⟨from_lo, to_hi⟩ := List.mem_range'_1.1 mem
      simp [from_lo, show i < hi by omega]
  rw [split, List.filter_append, List.filter_append, below, above, inside, List.nil_append, List.append_nil]

/- Lanes as they enter. -/

/-- Lane j as it enters a tree or scan under the prime of its group. -/
def entering (c : Combine) (x : Tile) (w : BitVec 26) (j : Nat) : Node :=
  if active x.k (vMask w) j then some (c.input (if c.isFp then 1 else primeOf x w j) (lane (x.vreg (vA w)) j)) else none

theorem entering_modular {c : Combine} (modular : c.isFp = false) {x : Tile} {w : BitVec 26} {j : Nat}
    (pos : active x.k (vMask w) j = true → 0 < primeOf x w j) :
    entering c x w j = c.summary (primeOf x w j) ((activeLanes x w j (j + 1)).map (fun i => laneA x w i % primeOf x w j)) := by
  unfold entering
  rw [activeLanes_one]
  split
  next act =>
    rw [modular]
    exact Combine.input_modular modular (pos act) _
  next => rfl

theorem Combine.identity_lt (c : Combine) {q : Nat} (hq : q < 2 ^ 36) : c.identity q < 2 ^ 36 := by
  cases c with
  | mmin => exact (Nat.sub_le _ _).trans_lt hq
  | msum | mmax | fsum => exact Nat.two_pow_pos 36
  | mprod => exact Nat.one_lt_two_pow (by decide)
  | fmin => exact (show 0x7F7FFFFF < 2 ^ 36 by decide)
  | fmax => exact (show 0xFF7FFFFF < 2 ^ 36 by decide)

theorem entering_isResult {c : Combine} (fp : c.isFp = true) (x : Tile) (w : BitVec 26) (j : Nat) : ∀ v ∈ entering c x w j, IsFp32Result v.1 := by
  unfold entering Combine.input
  rw [fp]
  split
  · rintro v ⟨⟩
    exact fp32_encode_isResult _
  · rintro v ⟨⟩

theorem and_or_zero {n : Nat} {w a b : BitVec n} (ha : w &&& a = 0) (hb : w &&& b = 0) : w &&& (a ||| b) = 0 := by
  rw [BitVec.and_or_distrib_left, ha, hb]
  exact BitVec.or_zero

end Sys2Proof.Machine

/- Reduction trees (R66 to R68). -/

namespace Sys2Proof.Machine

/-- Node n of level k of a tree over the nodes h. -/
def treeOf (c : Combine) (q : Nat) (h : Nat → Node) : Nat → Nat → Node
  | 0, n => h n
  | k + 1, n => c.node q (treeOf c q h k (2 * n)) (treeOf c q h k (2 * n + 1))

theorem treeOf_level (c : Combine) (q : Nat) (h : Nat → Node) (k n : Nat) :
    treeOf c q (fun n => c.node q (h (2 * n)) (h (2 * n + 1))) k n = treeOf c q h (k + 1) n := by
  induction k generalizing n with
  | zero => rfl
  | succ k ih => rw [treeOf, ih, ih]; rfl

theorem treeLevel_range (c : Combine) (q : Nat) (h : Nat → Node) (m : Nat) :
    treeLevel c q ((List.range (2 * m)).map h) = (List.range m).map (fun n => c.node q (h (2 * n)) (h (2 * n + 1))) := by
  induction m generalizing h with
  | zero => rfl
  | succ m ih =>
    rw [Nat.mul_succ, List.range_succ_eq_map, List.range_succ_eq_map, List.range_succ_eq_map (n := m)]
    simp only [List.map_cons, List.map_map, treeLevel]
    exact congrArg _ (ih (fun n => h (n + 2)))

/-- The levels of `treeAll`, which works from the leaves up, give the root. -/
theorem treeAll_eq (c : Combine) (q : Nat) (h : Nat → Node) (k : Nat) : treeAll c q k ((List.range (2 ^ k)).map h) = treeOf c q h k 0 := by
  induction k generalizing h with
  | zero => rfl
  | succ k ih => rw [treeAll, Nat.pow_succ', treeLevel_range, ih, treeOf_level]

/-- A node of a modular tree is the node of its active lanes. -/
theorem treeOf_modular {c : Combine} (modular : c.isFp = false) {x : Tile} {w : BitVec 26} {q first : Nat} (a : Nat → Nat) {h : Nat → Node}
    {k n : Nat} (leaf : ∀ i, i < (n + 1) * 2 ^ k → h i = c.summary q ((activeLanes x w (first + i) (first + i + 1)).map a)) :
    treeOf c q h k n = c.summary q ((activeLanes x w (first + n * 2 ^ k) (first + (n + 1) * 2 ^ k)).map a) := by
  induction k generalizing n with
  | zero => simp only [treeOf, leaf n (by omega), Nat.pow_zero, Nat.mul_one, Nat.add_assoc]
  | succ k ih =>
    have double : ∀ m, 2 * m * 2 ^ k = m * 2 ^ (k + 1) := fun m => by rw [Nat.pow_succ']; ring
    have step : ∀ {i j : Nat}, i ≤ j → first + i * 2 ^ k ≤ first + j * 2 ^ k := fun h => Nat.add_le_add_left (Nat.mul_le_mul_right _ h) _
    have lower := ih (n := 2 * n) fun i hi => leaf i (by rw [← double]; exact hi.trans_le (Nat.mul_le_mul_right _ (by omega)))
    have upper := ih (n := 2 * n + 1) fun i hi => leaf i (by rwa [← double])
    rw [treeOf, lower, upper, Combine.node_summary modular, ← List.map_append, activeLanes_append x w (step (by omega)) (step (by omega)), double,
      ← double (n + 1)]
    rfl

theorem treeNode_succ {c : Combine} (fp : c.isFp = true) (q : Nat) (x : Tile) (w : BitVec 26) (first k n : Nat) : treeNode x w c.fpOp first (k + 1) n =
    c.node q (treeNode x w c.fpOp first k (2 * n)) (treeNode x w c.fpOp first k (2 * n + 1)) := by
  rw [treeNode]
  rcases treeNode x w c.fpOp first k (2 * n) with _ | ⟨a, f⟩
  · exact (Combine.node_none_left ..).symm
  · rcases treeNode x w c.fpOp first k (2 * n + 1) with _ | ⟨b, h⟩
    · rfl
    · exact (Combine.node_some_fp fp ..).symm

theorem treeOf_fp {c : Combine} (fp : c.isFp = true) (q : Nat) (x : Tile) (w : BitVec 26) (first k n : Nat) :
    treeOf c q (treeNode x w c.fpOp first 0) k n = treeNode x w c.fpOp first k n := by
  induction k generalizing n with
  | zero => rfl
  | succ k ih => rw [treeOf, ih, ih, ← treeNode_succ fp]


/- What a tree writes. -/

/-- The trees of an instruction: one, or one for each lane group (R66). -/
def treeCount (w : BitVec 26) : Nat := if vGS w then 8 else 1

/-- The prime that combines in lane group n; in the one tree of all lanes n is 0. -/
def combinePrime (c : Combine) (x : Tile) (w : BitVec 26) (n : Nat) : Nat := if c.isFp then 1 else selPrime x (vMctx w) (vSE w) (vGS w) n

/-- The root of tree n. -/
def treeRoot (c : Combine) (x : Tile) (w : BitVec 26) (n : Nat) : Node :=
  if vGS w then treeOf c (combinePrime c x w n) (fun i => entering c x w (128 * n + i)) 7 0
  else treeOf c (combinePrime c x w 0) (entering c x w) 10 0

/-- The value of tree n (R68). -/
def treeValue (c : Combine) (x : Tile) (w : BitVec 26) (n : Nat) : Nat :=
  match treeRoot c x w n with
  | some r => r.1
  | none => if !c.isFp && combinePrime c x w n == 0 then 0 else c.identity (combinePrime c x w n)

/-- The flags that tree n raises (R67, R71). -/
def treeFlags (c : Combine) (x : Tile) (w : BitVec 26) (n : Nat) : Word :=
  match treeRoot c x w n with
  | some r => r.2
  | none => mveEmpty ||| if vGS w then mveEmptyGroup n else 0

theorem group_of_range (h : Nat → Node) {n : Nat} (hn : n < 8) :
    (((List.range 1024).map h).drop (128 * n)).take 128 = (List.range 128).map (fun i => h (128 * n + i)) := by
  refine List.ext_getElem (by simp; omega) fun i _ _ => ?_
  simp

theorem treeRoots_eq (c : Combine) (x : Tile) (w : BitVec 26) :
    (List.range (if vGS w then 8 else 1)).map (fun g =>
      if vGS w then treeAll c (combinePrime c x w g) 7 ((((List.range 1024).map (entering c x w)).drop (128 * g)).take 128)
      else treeAll c (combinePrime c x w 0) 10 ((List.range 1024).map (entering c x w))) = (List.range (treeCount w)).map (treeRoot c x w) := by
  refine List.map_congr_left fun n hn => ?_
  unfold treeRoot
  split
  next gs =>
    rw [if_pos gs, List.mem_range] at hn
    rw [group_of_range _ hn]
    exact treeAll_eq c _ _ 7
  next => exact treeAll_eq c _ _ 10

theorem mapIdx_range {α β : Type} (n : Nat) (f : Nat → α → β) (r : Nat → α) :
    ((List.range n).map r).mapIdx f = (List.range n).map (fun i => f i (r i)) := by
  refine List.ext_getElem (by simp) fun i _ _ => ?_
  simp

theorem getD_range {α : Type} {n i : Nat} (hi : i < n) (r : Nat → α) (z : α) : ((List.range n).map r).getD i z = r i := by
  simp [hi]

/-- What `issueTree` writes of its roots. -/
def treeDests (c : Combine) (x : Tile) (w : BitVec 26) (roots : List Node) : List Dest :=
  let value := fun n => match roots.getD n none with
    | some r => r.1
    | none => if !c.isFp && combinePrime c x w n == 0 then 0 else c.identity (combinePrime c x w n)
  let flags := (roots.mapIdx (fun n r => match r with
    | some r => r.2
    | none => mveEmpty ||| if vGS w then mveEmptyGroup n else 0)).foldl (· ||| ·) 0
  [Dest.v (vD w) (mkVec (fun j => if j < treeCount w then res (value j) else 0)) (BitVec.allOnes 1024), Dest.mve flags] ++
    if vScp w then [Dest.s (vSD w) (BitVec.ofNat 64 (res (value 0)).toNat)] else []

theorem treeDests_roots (c : Combine) (x : Tile) (w : BitVec 26) : treeDests c x w ((List.range (treeCount w)).map (treeRoot c x w)) =
    [Dest.v (vD w) (mkVec (fun j => if j < treeCount w then res (treeValue c x w j) else 0)) (BitVec.allOnes 1024),
      Dest.mve ((List.range (treeCount w)).foldl (fun fl n => fl ||| treeFlags c x w n) 0)] ++
      if vScp w then [Dest.s (vSD w) (BitVec.ofNat 64 (res (treeValue c x w 0)).toNat)] else [] := by
  have some_tree : 0 < treeCount w := by
    unfold treeCount
    split <;> decide
  have lanes : (fun j => if j < treeCount w then res (match ((List.range (treeCount w)).map (treeRoot c x w)).getD j none with
      | some r => r.1
      | none => if !c.isFp && combinePrime c x w j == 0 then 0 else c.identity (combinePrime c x w j)) else 0) =
      fun j => if j < treeCount w then res (treeValue c x w j) else 0 := by
    funext j
    split
    next hj => rw [getD_range hj]; rfl
    next => rfl
  unfold treeDests
  simp only
  rw [lanes, getD_range some_tree, mapIdx_range, List.foldl_map]
  rfl

/-- A reduction tree whose checks pass. -/
theorem issueTree_passes {ctx : IssueCtx} {x : Tile} {w : BitVec 26} (c : Combine) (latency : Nat) (detector : ctx.hazard = false)
    (fields : w &&& ((if vScp w then 0 else 0x7800) ||| 0x80 ||| if c.isFp then 0x3F else 0) = 0)
    (select : (c.isFp || selOk x (vMctx w) (vSE w) (vGS w) (vMask w)) = true) :
    issueTree ctx w c latency x = .ok (x.launch ctx latency (treeDests c x w ((List.range (treeCount w)).map (treeRoot c x w)))) := by
  rw [← treeRoots_eq]
  exact (openSlot_bind fields detector _).trans (need_bind _ select _)

theorem foldl_or_or {α : Type} (l : List α) (f g : α → Word) :
    l.foldl (fun fl a => fl ||| (f a ||| g a)) 0 = l.foldl (fun fl a => fl ||| g a) (l.foldl (fun fl a => fl ||| f a) 0) := by
  refine BitVec.eq_of_getLsbD_eq fun i _ => ?_
  simp only [getLsbD_foldl_or, BitVec.getLsbD_or, Bool.or_assoc]
  congr 1
  rw [Bool.eq_iff_iff]
  simp [exists_or, and_or_left]

/-- The lanes of a tree are a run of lanes, or all of them. -/
theorem treeLanes_eq (x : Tile) (w : BitVec 26) {n : Nat} (hn : n < treeCount w) :
    treeLanes x w n = if vGS w then activeLanes x w (128 * n) (128 * n + 128) else activeLanes x w 0 1024 := by
  unfold treeLanes activeLanes
  split
  next gs =>
    have small : n < 8 := by simpa [treeCount, gs] using hn
    rw [← filter_range_between _ (Nat.le_add_right _ _) (show 128 * n + 128 ≤ 1024 by omega)]
    refine List.filter_congr fun i _ => ?_
    have within : (i / 128 == n) = (decide (128 * n ≤ i) && decide (i < 128 * n + 128)) := by
      rw [Bool.eq_iff_iff]
      simp only [beq_iff_eq, Bool.and_eq_true, decide_eq_true_eq]
      omega
    rw [gs, within]
    rfl
  next gs =>
    rw [List.range_eq_range']
    refine List.filter_congr fun i _ => ?_
    simp [gs]

/-- A modular tree's root is the node of its lanes' canonical values. -/
theorem treeRoot_modular {c : Combine} (modular : c.isFp = false) {x : Tile} {w : BitVec 26} {n q : Nat} (hn : n < treeCount w)
    (prime : selPrime x (vMctx w) (vSE w) (vGS w) n = q) (pos : 0 < q) :
    treeRoot c x w n = c.summary q ((treeLanes x w n).map (fun j => laneA x w j % q)) := by
  have enters : ∀ j, primeOf x w j = q → entering c x w j = c.summary q ((activeLanes x w j (j + 1)).map (fun j => laneA x w j % q)) := fun j h => by
    have node := entering_modular modular (x := x) (w := w) (j := j) fun _ => h ▸ pos
    rwa [h] at node
  have combines : combinePrime c x w n = q := by simp [combinePrime, modular, prime]
  rw [treeLanes_eq x w hn, treeRoot]
  split
  next gs =>
    rw [combines, treeOf_modular modular (x := x) (w := w) (first := 128 * n) _ fun i hi => enters _ ?_]
    · simp
    · rw [primeOf, show (128 * n + i) / 128 = n by omega, prime]
  next gs =>
    have only : n = 0 := by
      rw [treeCount, if_neg gs] at hn
      omega
    subst only
    rw [combines, treeOf_modular modular (x := x) (w := w) (first := 0) (fun j => laneA x w j % q) fun i _ => ?_]
    · simp
    · rw [Nat.zero_add]
      exact enters i (by simpa [primeOf, selPrime, gs] using prime)

/-- The FP32 tree that the statement builds of its lanes (R66). -/
def fpTree (c : Combine) (x : Tile) (w : BitVec 26) (n : Nat) : Node :=
  if vGS w then treeNode x w c.fpOp (128 * n) 7 0 else treeNode x w c.fpOp 0 10 0

theorem entering_treeNode {c : Combine} (fp : c.isFp = true) (x : Tile) (w : BitVec 26) (first : Nat) :
    (fun i => entering c x w (first + i)) = treeNode x w c.fpOp first 0 := by
  funext i
  simp only [entering, Combine.input, fp, if_true, treeNode]
  rfl

theorem treeRoot_fp {c : Combine} (fp : c.isFp = true) (x : Tile) (w : BitVec 26) (n : Nat) : treeRoot c x w n = fpTree c x w n := by
  have all : entering c x w = treeNode x w c.fpOp 0 0 := by
    rw [← entering_treeNode fp]
    simp
  unfold treeRoot fpTree
  rw [entering_treeNode fp, treeOf_fp fp, all, treeOf_fp fp]

theorem treeOf_isResult {c : Combine} (fp : c.isFp = true) (q : Nat) {h : Nat → Node} (leaf : ∀ n, ∀ v ∈ h n, IsFp32Result v.1) (k n : Nat) :
    ∀ v ∈ treeOf c q h k n, IsFp32Result v.1 := by
  induction k generalizing n with
  | zero => exact leaf n
  | succ k ih => exact Combine.node_isResult fp q (ih _) (ih _)

theorem treeRoot_isResult {c : Combine} (fp : c.isFp = true) (x : Tile) (w : BitVec 26) (n : Nat) : ∀ v ∈ treeRoot c x w n, IsFp32Result v.1 := by
  unfold treeRoot
  split
  · exact treeOf_isResult fp _ (fun i => entering_isResult fp x w _) 7 0
  · exact treeOf_isResult fp _ (entering_isResult fp x w) 10 0

section Treed

variable {s : State} {t : TileId} {g : GroupId} {w : BitVec 26}
variable (ready : s.ready t g)
include ready

/-- A tree's result in flight, from the values and the flags of its roots. -/
theorem State.treed_of_roots {i : Instr} {c : Combine} {latency : Nat} {empty : Nat → Bool} {flags : Word} {value : Nat → Nat}
    (row : exec i s = s.act (fun d => d.issueSlotOf t .v (fun ctx x => issueTree ctx w c latency x)))
    (fields : w &&& ((if vScp w then 0 else 0x7800) ||| 0x80 ||| if c.isFp then 0x3F else 0) = 0)
    (select : (c.isFp || selOk (s.settled t g) (vMctx w) (vSE w) (vGS w) (vMask w)) = true)
    (values : ∀ n, n < treeCount w → treeValue c (s.settled t g) w n = value n ∧ value n < 2 ^ 36)
    (noted : ∀ n, n < treeCount w → (treeRoot c (s.settled t g) w n).isNone = empty n)
    (raised : (List.range (treeCount w)).foldl (fun fl n => fl ||| ((treeRoot c (s.settled t g) w n).map (·.2)).getD 0) 0 = flags) :
    s.treed t g w i latency empty flags value := by
  have gathered : (List.range (treeCount w)).foldl (fun fl n => fl ||| treeFlags c (s.settled t g) w n) 0 =
      (List.range (treeCount w)).foldl (fun fl n => fl ||| if empty n then mveEmpty ||| (if vGS w then mveEmptyGroup n else 0) else 0) flags := by
    rw [← raised, ← foldl_or_or]
    refine List.foldl_ext _ _ _ fun fl n hn => ?_
    rw [← noted n (List.mem_range.1 hn), treeFlags]
    cases treeRoot c (s.settled t g) w n with
    | none => simp
    | some r => simp
  have first : 0 < treeCount w := by
    unfold treeCount
    split <;> decide
  refine ⟨mkVec (fun j => if j < treeCount w then res (treeValue c (s.settled t g) w j) else 0), mkVec_length _, fun j hj => ?_, ?_⟩
  · rw [lane_mkVec _ hj]
    show (if j < treeCount w then res (treeValue c (s.settled t g) w j) else 0).toNat = if j < treeCount w then value j else 0
    split
    next tree =>
      obtain ⟨same, small⟩ := values j tree
      rw [same, res_toNat small]
    next => rfl
  · have passes := issueTree_passes (x := s.settled t g) c latency (State.ready_hazard ready) fields select
    rw [treeDests_roots, gathered] at passes
    have scalar : (lane (mkVec (fun j => if j < treeCount w then res (treeValue c (s.settled t g) w j) else 0)) 0).setWidth 64 =
        BitVec.ofNat 64 (res (treeValue c (s.settled t g) w 0)).toNat := by
      rw [lane_mkVec _ (by decide), if_pos first, BitVec.ofNat_toNat]
    rw [scalar]
    exact State.issues_launch ready row (dests := fun _ => _) passes

/-- A modular tree: each root sums its active lanes up by `Combine.total`. -/
theorem State.treed_modular {i : Instr} {c : Combine} (modular : c.isFp = false) {latency : Nat} {value : Nat → Nat}
    (row : exec i s = s.act (fun d => d.issueSlotOf t .v (fun ctx x => issueTree ctx w c latency x)))
    (reserved : w &&& 0x80 = 0) (unscaled : vScp w = false → w &&& 0x7800 = 0)
    (select : selOk (s.settled t g) (vMctx w) (vSE w) (vGS w) (vMask w) = true)
    (pos : ∀ n, n < 8 → 0 < selPrime (s.settled t g) (vMctx w) (vSE w) (vGS w) n)
    (values : ∀ n, let q := selPrime (s.settled t g) (vMctx w) (vSE w) (vGS w) n
      let l := (treeLanes (s.settled t g) w n).map (fun j => laneA (s.settled t g) w j % q)
      value n = if l = [] then c.identity q else c.total q l) :
    s.treed t g w i latency (fun n => (treeLanes (s.settled t g) w n).isEmpty) 0 value := by
  have few : treeCount w ≤ 8 := by
    unfold treeCount
    split <;> decide
  have root := fun n hn => treeRoot_modular (x := s.settled t g) (n := n) modular hn rfl (pos n (by omega))
  refine State.treed_of_roots ready row ?_ (by rw [select, Bool.or_true]) (fun n hn => ?_) (fun n hn => ?_) ?_
  · rw [modular]
    refine and_or_zero (and_or_zero ?_ reserved) BitVec.and_zero
    split
    · exact BitVec.and_zero
    next h => exact unscaled (Bool.eq_false_iff.2 h)
  · have prime := pos n (by omega)
    rw [treeValue, root n hn, values n]
    simp only [combinePrime, modular]
    by_cases none : (treeLanes (s.settled t g) w n).map (fun j => laneA (s.settled t g) w j % selPrime (s.settled t g) (vMctx w) (vSE w) (vGS w) n) = []
    · rw [if_pos none, none]
      refine ⟨?_, c.identity_lt (selPrime_lt ..)⟩
      simp [Combine.summary_nil, prime.ne']
    · rw [if_neg none, Combine.summary_of_ne_nil _ _ none]
      refine ⟨rfl, (Combine.total_lt c prime fun v hv => ?_).trans (selPrime_lt ..)⟩
      obtain ⟨j, -, rfl⟩ := List.mem_map.1 hv
      exact Nat.mod_lt _ prime
  · rw [root n hn, Combine.summary_isNone, List.isEmpty_map]
  · refine List.foldlRecOn (motive := (· = (0 : Word))) _ _ rfl fun fl hfl n hn => ?_
    rw [root n (List.mem_range.1 hn), Combine.summary_flags, hfl]
    exact BitVec.or_zero

/-- An FP32 tree. -/
theorem State.treed_fp {i : Instr} {c : Combine} (fp : c.isFp = true) {latency : Nat}
    (row : exec i s = s.act (fun d => d.issueSlotOf t .v (fun ctx x => issueTree ctx w c latency x)))
    (reserved : w &&& 0xBF = 0) (unscaled : vScp w = false → w &&& 0x7800 = 0) :
    s.treed t g w i latency (fun n => (fpTree c (s.settled t g) w n).isNone)
      ((List.range (treeCount w)).foldl (fun fl n => fl ||| ((fpTree c (s.settled t g) w n).map (·.2)).getD 0) 0)
      (fun n => ((fpTree c (s.settled t g) w n).map (·.1)).getD (c.identity 1)) := by
  refine State.treed_of_roots ready row ?_ (by rw [fp, Bool.true_or]) (fun n hn => ?_) (fun n hn => by rw [treeRoot_fp fp]) ?_
  · rw [fp, BitVec.or_assoc]
    refine and_or_zero ?_ reserved
    split
    · exact BitVec.and_zero
    next h => exact unscaled (Bool.eq_false_iff.2 h)
  · have results := treeRoot_isResult fp (s.settled t g) w n
    rw [treeRoot_fp fp] at results
    rw [treeValue, treeRoot_fp fp]
    simp only [combinePrime, fp]
    cases root : fpTree c (s.settled t g) w n with
    | none => exact ⟨rfl, c.identity_lt (by decide)⟩
    | some r => exact ⟨rfl, (results r root).1.trans (by decide)⟩
  · simp only [treeRoot_fp fp]

end Treed

/-- Settles O10: modular trees by the totals of their lanes, FP32 trees by the nodes of their levels. -/
theorem treeResults : Obligations.TreeResults := by
  unfold Obligations.TreeResults
  refine ⟨fun s t g w ready select reserved unscaled => ?_, fun s t g w ready reserved unscaled => ?_⟩
  · intro x q pos a empty
    refine ⟨?_, ?_, ?_, ?_⟩
    · exact State.treed_modular ready (c := .msum) rfl rfl reserved unscaled select pos fun n =>
        Combine.total_eq (c := .msum) rfl (by decide) (q n) (a n)
    · exact State.treed_modular ready (c := .mprod) rfl rfl reserved unscaled select pos fun n =>
        if_congr (List.isEmpty_iff.trans List.map_eq_nil_iff.symm) rfl rfl
    · exact State.treed_modular ready (c := .mmin) rfl rfl reserved unscaled select pos fun n =>
        Combine.total_eq (c := .mmin) rfl (by decide) (q n) (a n)
    · exact State.treed_modular ready (c := .mmax) rfl rfl reserved unscaled select pos fun n =>
        Combine.total_eq (c := .mmax) rfl (by decide) (q n) (a n)
  · intro x root result
    refine ⟨?_, ?_, ?_⟩
    · exact State.treed_fp ready (c := .fsum) rfl rfl reserved unscaled
    · exact State.treed_fp ready (c := .fmin) rfl rfl reserved unscaled
    · exact State.treed_fp ready (c := .fmax) rfl rfl reserved unscaled

end Sys2Proof.Machine

/- Scans (R64, R65, R68). -/

namespace Sys2Proof.Machine

/- Segments. -/

/-- The nearest segment start at or below lane i, lane 0 being one (R65). -/
def segBase (start : Nat → Bool) : Nat → Nat
  | 0 => 0
  | i + 1 => if start (i + 1) then i + 1 else segBase start i

theorem segBase_le (start : Nat → Bool) (i : Nat) : segBase start i ≤ i := by
  induction i with
  | zero => exact Nat.le_refl 0
  | succ i ih =>
    unfold segBase
    split
    · exact Nat.le_refl _
    · exact ih.trans (Nat.le_succ i)

/-- From a segment's base up to a lane of it the base is the same. -/
theorem segBase_same {start : Nat → Bool} {i j : Nat} (low : segBase start i ≤ j) (le : j ≤ i) : segBase start j = segBase start i := by
  induction i with
  | zero => rw [Nat.le_zero.1 le]
  | succ i ih =>
    rcases Nat.lt_or_eq_of_le le with below | rfl
    · unfold segBase at low
      rw [segBase.eq_2]
      split at low
      · omega
      next going =>
        rw [if_neg going]
        exact ih low (Nat.lt_succ_iff.1 below)
    · rfl

/-- A lane at or above its segment's base has no start above it. -/
theorem segBase_le_iff {start : Nat → Bool} {i j : Nat} :
    segBase start i ≤ j ↔ (List.range (i + 1)).all (fun n => decide (n ≤ j) || !start n) = true := by
  induction i with
  | zero => simp [segBase]
  | succ i ih =>
    have last : (List.range (i + 1 + 1)).all (fun n => decide (n ≤ j) || !start n) =
        ((List.range (i + 1)).all (fun n => decide (n ≤ j) || !start n) && (decide (i + 1 ≤ j) || !start (i + 1))) := by
      rw [List.range_succ, List.all_append]
      simp
    have below := segBase_le start i
    rw [last, Bool.and_eq_true, ← ih, segBase]
    split
    next h => simp [h]; omega
    next h => simp [h]

theorem segStarts_eq (start : Nat → Bool) : segStarts start = (List.range 1024).map (segBase start) := by
  have fold : ∀ n, (List.range (n + 1)).foldl (fun (acc : List Nat × Nat) i =>
      let s := if i = 0 || start i then i else acc.2
      (s :: acc.1, s)) ([], 0) = (((List.range (n + 1)).map (segBase start)).reverse, segBase start n) := fun n => by
    induction n with
    | zero => simp [segBase]
    | succ n ih =>
      rw [List.range_succ, List.foldl_append, ih, List.map_append, List.reverse_append]
      simp [segBase]
  rw [segStarts, fold 1023, List.reverse_reverse]

/- Levels. -/

/-- Lane i after k levels of the network over the nodes h (R64). -/
def scanOf (c : Combine) (prime base : Nat → Nat) (h : Nat → Node) : Nat → Nat → Node
  | 0, i => h i
  | k + 1, i =>
    let j := i / 2 ^ k * 2 ^ k - 1
    if i / 2 ^ k % 2 = 1 then
      if base i ≤ j then c.node (prime (i / 128)) (scanOf c prime base h k j) (scanOf c prime base h k i) else scanOf c prime base h k i
    else scanOf c prime base h k i

theorem scanLevel_range (c : Combine) (prime base : Nat → Nat) (h : Nat → Node) (k : Nat) :
    scanLevel c prime ((List.range 1024).map base) k ((List.range 1024).map (scanOf c prime base h k)) =
      (List.range 1024).map (scanOf c prime base h (k + 1)) := by
  refine List.ext_getElem (by simp [scanLevel]) fun i hi _ => ?_
  have lane : i < 1024 := by simpa [scanLevel] using hi
  have lower : i / 2 ^ k * 2 ^ k - 1 < 1024 := by
    have := Nat.div_mul_le_self i (2 ^ k)
    omega
  simp only [scanLevel, List.getElem_mapIdx, List.getElem_map, List.getElem_range, getD_range lane, getD_range lower]
  rfl

theorem scanAll_eq (c : Combine) (prime base : Nat → Nat) (h : Nat → Node) :
    scanAll c prime ((List.range 1024).map base) ((List.range 1024).map h) = (List.range 1024).map (scanOf c prime base h 10) := by
  have levels : ∀ n, (List.range n).foldl (fun acc k => scanLevel c prime ((List.range 1024).map base) k acc) ((List.range 1024).map h) =
      (List.range 1024).map (scanOf c prime base h n) := fun n => by
    induction n with
    | zero => rfl
    | succ n ih =>
      rw [List.range_succ (n := n), List.foldl_append, ih, List.foldl_cons, List.foldl_nil, scanLevel_range]
  exact levels 10

/-- A lane of the network under modular operations is the node of the active lanes of its segment in its block of 2^k. -/
theorem scanOf_modular {c : Combine} (modular : c.isFp = false) {x : Tile} {w : BitVec 26} {prime base : Nat → Nat} {h : Nat → Node}
    (below : ∀ i, base i ≤ i) (same : ∀ {i j}, base i ≤ j → j ≤ i → base j = base i ∧ prime (j / 128) = prime (i / 128))
    (leaf : ∀ i, i < 1024 → h i = c.summary (prime (i / 128)) ((activeLanes x w i (i + 1)).map (fun n => laneA x w n % prime (i / 128))))
    (k : Nat) {i : Nat} (hi : i < 1024) :
    scanOf c prime base h k i = c.summary (prime (i / 128))
      ((activeLanes x w (max (base i) (i / 2 ^ k * 2 ^ k)) (i + 1)).map (fun n => laneA x w n % prime (i / 128))) := by
  induction k generalizing i with
  | zero =>
    rw [scanOf, leaf i hi, Nat.pow_zero, Nat.div_one, Nat.mul_one, max_eq_right (below i)]
  | succ k ih =>
    have split : i / 2 ^ k = 2 * (i / 2 ^ (k + 1)) + i / 2 ^ k % 2 := by
      rw [Nat.pow_succ, ← Nat.div_div_eq_div_mul]
      omega
    have wider : i / 2 ^ (k + 1) * 2 ^ (k + 1) = 2 * (i / 2 ^ (k + 1)) * 2 ^ k := by
      rw [Nat.pow_succ]
      ring
    have block := Nat.div_mul_le_self i (2 ^ k)
    have width : 0 < 2 ^ k := Nat.two_pow_pos k
    rw [scanOf]
    split
    next odd =>
      have upper : i / 2 ^ k * 2 ^ k = i / 2 ^ (k + 1) * 2 ^ (k + 1) + 2 ^ k := by
        rw [split, odd, wider, Nat.succ_mul]
      have lower : (i / 2 ^ k * 2 ^ k - 1) / 2 ^ k * 2 ^ k = i / 2 ^ (k + 1) * 2 ^ (k + 1) := by
        have block_below : (i / 2 ^ k * 2 ^ k - 1) / 2 ^ k = 2 * (i / 2 ^ (k + 1)) :=
          Nat.div_eq_of_lt_le (by omega) (by rw [Nat.succ_mul]; omega)
        rw [block_below, wider]
      split
      next joins =>
        obtain ⟨sameBase, samePrime⟩ := same joins (by omega)
        rw [ih (i := i / 2 ^ k * 2 ^ k - 1) (by omega), ih hi, lower, sameBase, samePrime, Combine.node_summary modular, ← List.map_append]
        have at_block : max (base i) (i / 2 ^ k * 2 ^ k) = i / 2 ^ k * 2 ^ k - 1 + 1 := by omega
        rw [at_block, activeLanes_append x w (by omega) (by omega)]
      next apart =>
        rw [ih hi]
        congr 3
        omega
    next even =>
      have zero : i / 2 ^ k % 2 = 0 := by omega
      rw [ih hi, wider, ← Nat.add_zero (2 * _), ← zero, ← split]

/-- The last active lane from lo up to hi, and the lanes up to it. -/
theorem activeLanes_getLast? {x : Tile} {w : BitVec 26} {lo hi i : Nat} (h : (activeLanes x w lo hi).getLast? = some i) :
    lo ≤ i ∧ i < hi ∧ activeLanes x w lo hi = activeLanes x w lo (i + 1) := by
  induction hi with
  | zero => simp [activeLanes] at h
  | succ hi ih =>
    rcases Nat.lt_or_ge hi lo with empty | le
    · simp [activeLanes, show hi + 1 - lo = 0 by omega] at h
    · have last := activeLanes_append x w le (Nat.le_succ hi)
      rw [activeLanes_one] at last
      rw [← last] at h ⊢
      split at h
      next act =>
        obtain rfl : hi = i := by simpa using h
        rw [if_pos act]
        exact ⟨le, Nat.lt_succ_self hi, by rw [← last, if_pos act]⟩
      next idle =>
        rw [if_neg idle, List.append_nil] at *
        obtain ⟨from_lo, below, same⟩ := ih h
        exact ⟨from_lo, Nat.lt_succ_of_lt below, same⟩

theorem prevActive_eq (x : Tile) (w : BitVec 26) (lo i : Nat) : prevActive (active x.k (vMask w)) lo i = (activeLanes x w lo i).getLast? := by
  have down : (List.range (i - lo)).map (fun d => i - 1 - d) = (List.range' lo (i - lo)).reverse := by
    rw [List.reverse_range']
    refine List.map_congr_left fun d hd => ?_
    have := List.mem_range.1 hd
    omega
  rw [prevActive, down, ← List.head?_filter, List.filter_reverse, List.head?_reverse]
  rfl

/- What a scan writes. -/

/-- A lane that SEGK or GS makes a segment's start (R65). -/
def scanStart (x : Tile) (w : BitVec 26) (i : Nat) : Bool := (vSegen w && (x.kreg (vSegk w)).getLsbD i) || (vGS w && i % 128 == 0)

def scanBase (x : Tile) (w : BitVec 26) : Nat → Nat := segBase (scanStart x w)

/-- Lane j at the end of the network. -/
def scanLane (c : Combine) (x : Tile) (w : BitVec 26) : Nat → Node := scanOf c (combinePrime c x w) (scanBase x w) (entering c x w) 10

/-- What lane j writes (R65, R68). -/
def scanOut (c : Combine) (x : Tile) (w : BitVec 26) (j : Nat) : Nat :=
  if vExcl w then
    match (activeLanes x w (scanBase x w j) j).getLast? with
    | some i => ((scanLane c x w i).map (·.1)).getD 0
    | none => c.identity (combinePrime c x w (j / 128))
  else ((scanLane c x w j).map (·.1)).getD 0

/-- The flags of nodes, gathered in order. -/
theorem foldl_flags {f : Word → Node → Word} (gathers : ∀ fl n, f fl n = fl ||| (n.map (·.2)).getD 0) (l : List Nat) (r : Nat → Node) (fl : Word) :
    (l.map r).foldl f fl = l.foldl (fun fl j => fl ||| ((r j).map (·.2)).getD 0) fl := by
  rw [List.foldl_map]
  exact List.foldl_ext _ _ _ fun fl j _ => gathers fl (r j)

/-- A scan whose checks pass: its lanes and the flags of its network. -/
theorem issueScan_passes {ctx : IssueCtx} {x : Tile} {w : BitVec 26} (c : Combine) (latency : Nat) (detector : ctx.hazard = false)
    (fields : w &&& ((if vSegen w then 0 else 0x3800) ||| if c.isFp then 0x3F else 0) = 0)
    (select : (c.isFp || selOk x (vMctx w) (vSE w) (vGS w) (vMask w)) = true) :
    ∃ (out : Nat → Nat) (flags : Word), issueScan ctx w c latency x = .ok (x.launch ctx latency
      [Dest.v (vD w) (maskedVec x (vMask w) (fun j => res (out j))) (writeMask x (vMask w) (vZ w)), Dest.mve flags]) ∧
      (∀ j, j < 1024 → out j = scanOut c x w j) ∧
      flags = (List.range 1024).foldl (fun fl j => fl ||| ((scanLane c x w j).map (·.2)).getD 0) 0 := by
  obtain ⟨p, lanes⟩ : ∃ p, p = (List.range 1024).map (scanLane c x w) := ⟨_, rfl⟩
  obtain ⟨starts, bases⟩ : ∃ starts, starts = (List.range 1024).map (scanBase x w) := ⟨_, rfl⟩
  have segments : segStarts (scanStart x w) = starts := (segStarts_eq _).trans bases.symm
  have nodes : scanAll c (combinePrime c x w) (segStarts (scanStart x w)) ((List.range 1024).map (entering c x w)) = p := by
    rw [segments, bases, lanes]
    exact scanAll_eq _ _ _ _
  have node : ∀ {i}, i < 1024 → scanLane c x w i = p.getD i none := fun hi => by rw [lanes, getD_range hi]
  refine ⟨_, _, (openSlot_bind fields detector _).trans ((need_bind _ select _).trans rfl), fun j hj => ?_, ?_⟩
  · generalize hp : scanAll _ _ _ _ = q
    generalize hs : segStarts _ = base
    rw [hp.symm.trans nodes, hs.symm.trans segments, bases, getD_range hj, prevActive_eq, scanOut]
    dsimp only
    split
    · cases last : (activeLanes x w (scanBase x w j) j).getLast? with
      | none => rfl
      | some i =>
        obtain ⟨-, below, -⟩ := activeLanes_getLast? last
        dsimp only
        rw [node (below.trans hj)]
        cases p.getD i none <;> rfl
    · rw [node hj]
      cases p.getD j none <;> rfl
  · generalize hp : scanAll _ _ _ _ = q
    rw [hp.symm.trans nodes, lanes, foldl_flags fun fl n => ?_]
    cases n with
    | none => exact BitVec.or_zero.symm
    | some r => rfl

/- Segments of the statement. -/

/-- Lane i lies in lane j's segment where no lane above it up to j begins one. -/
theorem scanBase_le_iff (x : Tile) (w : BitVec 26) (i j : Nat) :
    (List.range (j + 1)).all (fun n => decide (n ≤ i) || !segmentStart x w n) = decide (scanBase x w j ≤ i) := by
  have first : (fun n => decide (n ≤ i) || !segmentStart x w n) = fun n => decide (n ≤ i) || !scanStart x w n := by
    funext n
    cases n with
    | zero => rfl
    | succ n =>
      have above : (n + 1 == 0) = false := rfl
      rw [segmentStart, scanStart, above, Bool.false_or]
  rw [first, Bool.eq_iff_iff, decide_eq_true_iff]
  exact segBase_le_iff.symm

theorem scanBase_le (x : Tile) (w : BitVec 26) (i : Nat) : scanBase x w i ≤ i := segBase_le _ _

theorem scanned_eq (x : Tile) (w : BitVec 26) (j : Nat) : scanned x w j = activeLanes x w (scanBase x w j) (if vExcl w then j else j + 1) := by
  have base := scanBase_le x w j
  have reach : scanBase x w j ≤ if vExcl w then j else j + 1 := by split <;> omega
  unfold scanned activeLanes
  rw [← filter_range_between _ reach (Nat.le_refl _)]
  refine List.filter_congr fun i hi => ?_
  rw [scanBase_le_iff, decide_eq_true (List.mem_range.1 hi), Bool.and_true]

/-- Under GS a segment lies in one lane group, so its lanes have one prime. -/
theorem scanBase_group {x : Tile} {w : BitVec 26} (gs : vGS w = true) (i : Nat) : i / 128 * 128 ≤ scanBase x w i := by
  induction i with
  | zero => exact Nat.zero_le _
  | succ i ih =>
    rw [scanBase, segBase]
    split
    · exact Nat.div_mul_le_self _ _
    next going =>
      have inside : (i + 1) % 128 ≠ 0 := fun first => going (by simp [scanStart, gs, first])
      have group : (i + 1) / 128 = i / 128 := by omega
      rw [group]
      exact ih

theorem scan_prime_same {c : Combine} {x : Tile} {w : BitVec 26} {i j : Nat} (low : scanBase x w i ≤ j) (le : j ≤ i) :
    scanBase x w j = scanBase x w i ∧ combinePrime c x w (j / 128) = combinePrime c x w (i / 128) := by
  refine ⟨segBase_same low le, ?_⟩
  cases gs : vGS w with
  | true =>
    have group := scanBase_group (x := x) gs i
    rw [show j / 128 = i / 128 by omega]
  | false => simp [combinePrime, selPrime, gs]

/- Modular scans. -/

theorem combinePrime_modular {c : Combine} (modular : c.isFp = false) (x : Tile) (w : BitVec 26) (i : Nat) :
    combinePrime c x w (i / 128) = primeOf x w i := by
  rw [combinePrime, modular]
  rfl

theorem scanLane_modular {c : Combine} (modular : c.isFp = false) {x : Tile} {w : BitVec 26} (primes : primesOk x w) {i : Nat} (hi : i < 1024) :
    scanLane c x w i = c.summary (primeOf x w i) ((activeLanes x w (scanBase x w i) (i + 1)).map (fun n => laneA x w n % primeOf x w i)) := by
  have prime := combinePrime_modular modular x w
  have node := scanOf_modular modular (prime := combinePrime c x w) (base := scanBase x w) (h := entering c x w) (scanBase_le x w) scan_prime_same
    (fun i hi => by rw [prime]; exact entering_modular modular fun act => primeOf_pos primes hi act) 10 hi
  have block : i / 2 ^ 10 * 2 ^ 10 = 0 := by omega
  rwa [prime, block, Nat.max_zero] at node

theorem mem_activeLanes_last {x : Tile} {w : BitVec 26} {lo i : Nat} (le : lo ≤ i) (act : active x.k (vMask w) i = true) :
    i ∈ activeLanes x w lo (i + 1) :=
  List.mem_filter.2 ⟨List.mem_range'_1.2 (by omega), act⟩

/-- An active lane writes the total of the canonical lanes scanned (R64, R68). -/
theorem scanOut_modular {c : Combine} (modular : c.isFp = false) (product : c ≠ .mprod) {x : Tile} {w : BitVec 26} (primes : primesOk x w) {j : Nat}
    (hj : j < 1024) (act : active x.k (vMask w) j = true) :
    scanOut c x w j = c.total (primeOf x w j) ((scanned x w j).map (fun i => laneA x w i % primeOf x w j)) := by
  have value : ∀ (q : Nat) {l : List Nat}, l ≠ [] → ((c.summary q l).map (·.1)).getD 0 = c.total q l := fun q l h => by
    rw [Combine.summary_of_ne_nil c q h]
    rfl
  rw [scanned_eq, scanOut]
  split
  · cases last : (activeLanes x w (scanBase x w j) j).getLast? with
    | none =>
      rw [List.getLast?_eq_none_iff.1 last, List.map_nil, Combine.total_eq modular product, if_pos rfl, combinePrime_modular modular]
    | some i =>
      obtain ⟨low, below, upto⟩ := activeLanes_getLast? last
      obtain ⟨sameBase, prime⟩ := scan_prime_same (c := c) low below.le
      rw [combinePrime_modular modular, combinePrime_modular modular] at prime
      have some_lane : activeLanes x w (scanBase x w j) (i + 1) ≠ [] := upto ▸ List.getLast?_isSome.1 (by rw [last]; rfl)
      dsimp only
      rw [scanLane_modular modular primes (below.trans hj), sameBase, prime, value _ (by simpa using some_lane), upto]
  · rw [scanLane_modular modular primes hj, value]
    simpa using List.ne_nil_of_mem (mem_activeLanes_last (scanBase_le x w j) act)

/- FP32 scans. -/

theorem scanNode_succ {c : Combine} (fp : c.isFp = true) (q : Nat) (x : Tile) (w : BitVec 26) (k i : Nat) : scanNode x w c.fpOp (k + 1) i =
    if i / 2 ^ k % 2 = 1 ∧ scanBase x w i ≤ i / 2 ^ k * 2 ^ k - 1 then
      c.node q (scanNode x w c.fpOp k (i / 2 ^ k * 2 ^ k - 1)) (scanNode x w c.fpOp k i)
    else scanNode x w c.fpOp k i := by
  rw [scanNode, scanBase_le_iff]
  by_cases joins : i / 2 ^ k % 2 = 1 ∧ scanBase x w i ≤ i / 2 ^ k * 2 ^ k - 1
  · rw [if_pos ⟨joins.1, decide_eq_true joins.2⟩, if_pos joins]
    rcases scanNode x w c.fpOp k (i / 2 ^ k * 2 ^ k - 1) with _ | ⟨a, f⟩
    · exact (Combine.node_none_left ..).symm
    · rcases scanNode x w c.fpOp k i with _ | ⟨b, h⟩
      · rfl
      · exact (Combine.node_some_fp fp ..).symm
  · rw [if_neg fun h => joins ⟨h.1, of_decide_eq_true h.2⟩, if_neg joins]

theorem scanOf_fp {c : Combine} (fp : c.isFp = true) (x : Tile) (w : BitVec 26) (prime : Nat → Nat) (k i : Nat) :
    scanOf c prime (scanBase x w) (entering c x w) k i = scanNode x w c.fpOp k i := by
  induction k generalizing i with
  | zero =>
    have leaf := congrFun (entering_treeNode fp x w 0) i
    rw [Nat.zero_add, treeNode, Nat.zero_add] at leaf
    exact leaf
  | succ k ih => rw [scanOf, scanNode_succ fp (prime (i / 128)), ih, ih, ite_and]

theorem scanLane_fp {c : Combine} (fp : c.isFp = true) (x : Tile) (w : BitVec 26) (i : Nat) : scanLane c x w i = scanNode x w c.fpOp 10 i :=
  scanOf_fp fp x w _ 10 i

theorem scanNode_isResult {c : Combine} (fp : c.isFp = true) (x : Tile) (w : BitVec 26) (k i : Nat) : ∀ v ∈ scanNode x w c.fpOp k i, IsFp32Result v.1 := by
  rw [← scanOf_fp fp x w (fun _ => 1)]
  induction k generalizing i with
  | zero => exact entering_isResult fp x w i
  | succ k ih =>
    rw [scanOf]
    split
    · split
      · exact Combine.node_isResult fp _ (ih _) (ih _)
      · exact ih _
    · exact ih _

/-- What an FP32 lane writes fits it. -/
theorem scanOut_fp_lt {c : Combine} (fp : c.isFp = true) (x : Tile) (w : BitVec 26) (j : Nat) : scanOut c x w j < 2 ^ 36 := by
  have value : ∀ i, ((scanLane c x w i).map (·.1)).getD 0 < 2 ^ 36 := fun i => by
    rw [scanLane_fp fp]
    cases node : scanNode x w c.fpOp 10 i with
    | none => exact Nat.two_pow_pos 36
    | some v => exact (scanNode_isResult fp x w 10 i v node).1.trans (by decide)
  have identity : c.identity (combinePrime c x w (j / 128)) < 2 ^ 36 := by
    rw [combinePrime, fp, if_pos rfl]
    exact c.identity_lt (by decide)
  unfold scanOut
  split
  · split
    · exact value _
    · exact identity
  · exact value j

section Scans

variable {s : State} {t : TileId} {g : GroupId} {w : BitVec 26}
variable (ready : s.ready t g) (segments : vSegen w = false → w &&& 0x3800 = 0)
include ready segments

/-- A scan: its lanes, and the flags of all nodes of its network. -/
theorem State.lanes_scan {i : Instr} {c : Combine} {latency : Nat} (row : exec i s = s.act (fun d => d.issueSlotOf t .v (fun ctx x => issueScan ctx w c latency x)))
    (fields : w &&& (if c.isFp then 0x3F else 0) = 0) (select : (c.isFp || selOk (s.settled t g) (vMctx w) (vSE w) (vGS w) (vMask w)) = true)
    (fits : ∀ j, j < 1024 → active (s.settled t g).k (vMask w) j = true → scanOut c (s.settled t g) w j < 2 ^ 36) :
    s.lanes t g w i latency [.mve ((List.range 1024).foldl (fun fl j => fl ||| ((scanLane c (s.settled t g) w j).map (·.2)).getD 0) 0)]
      (fun j r => r = scanOut c (s.settled t g) w j) := by
  have unused : w &&& ((if vSegen w then 0 else 0x3800) ||| if c.isFp then 0x3F else 0) = 0 := by
    refine and_or_zero ?_ fields
    split
    · exact BitVec.and_zero
    next h => exact segments (Bool.eq_false_iff.2 h)
  obtain ⟨out, flags, passes, outs, raised⟩ := issueScan_passes (x := s.settled t g) c latency (State.ready_hazard ready) unused select
  rw [← raised]
  refine State.lanes_of_launch ready row (F := fun j => res (out j)) passes fun j hj act => ?_
  rw [outs j hj, res_toNat (fits j hj act)]

theorem State.lanes_scan_modular {i : Instr} {c : Combine} (modular : c.isFp = false) (product : c ≠ .mprod) {latency : Nat} (primes : primesOk (s.settled t g) w)
    (row : exec i s = s.act (fun d => d.issueSlotOf t .v (fun ctx x => issueScan ctx w c latency x))) :
    s.lanes t g w i latency [.mve 0] (fun j r =>
      r = c.total (primeOf (s.settled t g) w j) ((scanned (s.settled t g) w j).map (fun i => laneA (s.settled t g) w i % primeOf (s.settled t g) w j))) := by
  have out := fun j hj act => scanOut_modular (c := c) (j := j) modular product primes hj act
  have quiet : (List.range 1024).foldl (fun fl j => fl ||| ((scanLane c (s.settled t g) w j).map (·.2)).getD 0) 0 = (0 : Word) := by
    refine List.foldlRecOn (motive := (· = (0 : Word))) _ _ rfl fun fl hfl j hj => ?_
    rw [scanLane_modular modular primes (List.mem_range.1 hj), Combine.summary_flags, hfl]
    exact BitVec.or_zero
  have fits : ∀ j, j < 1024 → active (s.settled t g).k (vMask w) j = true → scanOut c (s.settled t g) w j < 2 ^ 36 := fun j hj act => by
    have prime := primeOf_pos primes hj act
    rw [out j hj act]
    refine (Combine.total_lt c prime fun v hv => ?_).trans (selPrime_lt ..)
    obtain ⟨i, -, rfl⟩ := List.mem_map.1 hv
    exact Nat.mod_lt _ prime
  have lanes := State.lanes_scan ready segments row (by rw [modular]; exact BitVec.and_zero) (by rw [primes.1, Bool.or_true]) fits
  rw [quiet] at lanes
  exact State.lanes_mono lanes fun j r hj act value => value.trans (out j hj act)

theorem State.lanes_scan_fp {i : Instr} {c : Combine} (fp : c.isFp = true) {latency : Nat} (reserved : w &&& 0x3F = 0)
    (row : exec i s = s.act (fun d => d.issueSlotOf t .v (fun ctx x => issueScan ctx w c latency x))) :
    ∃ fl : Word, (∀ i, fl.getLsbD i = true ↔ ∃ j, j < 1024 ∧ ∃ n, scanNode (s.settled t g) w c.fpOp 10 j = some n ∧ n.2.getLsbD i = true) ∧
      s.lanes t g w i latency [.mve fl] (fun j r =>
        if vExcl w then r = match (scanned (s.settled t g) w j).getLast? with
          | some i => ((scanNode (s.settled t g) w c.fpOp 10 i).map (·.1)).getD 0
          | none => c.identity 1
        else r = ((scanNode (s.settled t g) w c.fpOp 10 j).map (·.1)).getD 0) := by
  have lanes := State.lanes_scan ready segments row (by rw [fp]; exact reserved) (by rw [fp, Bool.true_or]) fun j _ _ => scanOut_fp_lt fp _ w j
  simp only [scanLane_fp fp] at lanes
  refine ⟨_, fun i => ?_, State.lanes_mono lanes fun j r _ _ value => ?_⟩
  · have none : (0 : Word).getLsbD i = false := BitVec.getLsbD_zero
    rw [getLsbD_foldl_or, none, Bool.false_or, List.any_eq_true]
    refine exists_congr fun j => and_congr List.mem_range ?_
    cases scanNode (s.settled t g) w c.fpOp 10 j with
    | none => simp
    | some n => simp
  · rw [value, scanned_eq, scanOut]
    split
    · cases (activeLanes (s.settled t g) w (scanBase (s.settled t g) w j) j).getLast? with
      | none =>
        dsimp only
        rw [combinePrime, fp, if_pos rfl]
      | some i =>
        dsimp only
        rw [scanLane_fp fp]
    · rw [scanLane_fp fp]

end Scans

/-- Settles O9: modular scans by the totals of the lanes scanned, FP32 scans by the nodes of R64's network. -/
theorem scanResults : Obligations.ScanResults := by
  unfold Obligations.ScanResults
  refine ⟨fun s t g w ready primes segments => ?_, fun s t g w ready reserved segments => ?_⟩
  · intro x q a
    have folded : ∀ (op : Nat → Nat → Nat) (j m : Nat), ((scanned x w j).map (a j)).foldl op m = (scanned x w j).foldl (fun m i => op m (a j i)) m :=
      fun op j m => List.foldl_map
    refine ⟨?_, ?_, ?_⟩
    · exact State.lanes_scan_modular ready segments (c := .msum) rfl (by decide) primes rfl
    · exact State.lanes_mono (State.lanes_scan_modular ready segments (c := .mmin) rfl (by decide) primes rfl) fun j r _ _ value => value.trans (folded min j _)
    · exact State.lanes_mono (State.lanes_scan_modular ready segments (c := .mmax) rfl (by decide) primes rfl) fun j r _ _ value => value.trans (folded max j _)
  · intro x result
    refine ⟨?_, ?_, ?_⟩
    · exact State.lanes_scan_fp ready segments (c := .fsum) rfl reserved rfl
    · exact State.lanes_scan_fp ready segments (c := .fmin) rfl reserved rfl
    · exact State.lanes_scan_fp ready segments (c := .fmax) rfl reserved rfl

end Sys2Proof.Machine

/- START, RESUME, RUN_TO_COUNT and STOP (R310, R345 to R347). -/

namespace Sys2Proof.Machine

/- What records and a change of state leave alone. -/

theorem Dev.ReportsTo.tick {d e : Dev} (h : d.ReportsTo e) : e.tick = d.tick := by rw [h]
theorem Dev.ReportsTo.peer {d e : Dev} (h : d.ReportsTo e) : e.peer = d.peer := by rw [h]
theorem Dev.ReportsTo.sec {d e : Dev} (h : d.ReportsTo e) : e.sec = d.sec := by rw [h]
theorem Dev.ReportsTo.pke {d e : Dev} (h : d.ReportsTo e) : e.pke = d.pke := by rw [h]

theorem Dev.becomePending_reports (d : Dev) (f : Fetched) (k : JobKind) : d.ReportsTo (d.becomePending f k) := by
  unfold Dev.ReportsTo
  rw [Dev.becomePending_frame]

theorem Dev.becomePending_jobs (d : Dev) (f : Fetched) (k : JobKind) : (d.becomePending f k).host.jobs = d.host.jobs ++ [{ kind := k, cmd := f }] :=
  congrArg (·.host.jobs) (Dev.becomePending_frame d f k)

/-- A PENDING record whose write does not fail logs nothing (R323, R326). -/
theorem Dev.becomePending_log (d : Dev) (f : Fetched) (k : JobKind) (h : (d.ring f.cq).fails ≠ some 0) : (d.becomePending f k).log = d.log := by
  have writes : ((d.unreserve f.cq 1).ring f.cq).fails ≠ some 0 := by
    rw [Dev.unreserve, Dev.ring_setRing]
    exact h
  unfold Dev.becomePending
  simp only
  split
  · rw [Dev.postRecord_frame _ _ _ writes]
    rfl
  · rfl

/-- A change of state is that of the run, and reports. -/
theorem Dev.enter_reports (d : Dev) (next : DevState) (n : Nat) : ({ d with run := { d.run with state := next } } : Dev).ReportsTo (d.enter next n) := by
  unfold Dev.ReportsTo
  rw [Dev.enter_frame]

/- A run accepted. -/

/-- The run that an accepted command prepares, before the device enters RUNNING: `Dev.acceptRun`'s own. -/
def Dev.prepareRun (d : Dev) (resume : Bool) (target : Option (TileId × Nat × Nat)) : Dev :=
  let d := if resume then { d with run := { d.run with resumed := true } } else d.clearForRun
  { d with run := { d.run with resumable := false, toBegin := some resume, begun := false, stopDue := false, stopDrain := false, target := target } }

theorem Dev.acceptRun_eq (d : Dev) (f : Fetched) (k : JobKind) (n : Nat) (resume : Bool) (target : Option (TileId × Nat × Nat)) :
    d.acceptRun f k n resume target = ((d.becomePending f k).prepareRun resume target).enter .running n := rfl

/-- What `Dev.clearForRun` leaves of the parts that the statement speaks of. -/
theorem Dev.clearForRun_keeps (d : Dev) : let e := d.clearForRun
    e.host.jobs = d.host.jobs ∧ e.host.fetched = d.host.fetched ∧ e.log = d.log ∧ e.mem = d.mem ∧ e.tick = d.tick ∧ e.sec = d.sec ∧ e.pke = d.pke ∧
    e.run.state = d.run.state ∧ e.run.image = d.run.image ∧ e.run.resumed = false ∧
    e.peer = { d.peer with plans := d.peer.plans.map (fun p => p.map (fun x => { x with digestLogged := [] })) } := by
  simp [Dev.clearForRun]

theorem Dev.clearForRun_tile (d : Dev) (t : TileId) : d.clearForRun.tile t = (d.tile t).atStart := by
  simp [Dev.clearForRun, Dev.tile, Dev.mapTiles]

/-- The run of a device on which `Dev.prepareRun` has cleared what a new run clears. -/
def Run.prepared (r : Run) (resume : Bool) (target : Option (TileId × Nat × Nat)) : Run :=
  { r with resumable := false, toBegin := some resume, begun := false, stopDue := false, stopDrain := false, target := target }

theorem Dev.prepareRun_start (d : Dev) (target : Option (TileId × Nat × Nat)) :
    d.prepareRun false target = { d.clearForRun with run := d.clearForRun.run.prepared false target } := by
  simp only [Dev.prepareRun, Run.prepared, Bool.false_eq_true, if_false]

theorem Dev.prepareRun_run (d : Dev) (resume : Bool) (target : Option (TileId × Nat × Nat)) : let r := (d.prepareRun resume target).run
    r.state = d.run.state ∧ r.toBegin = some resume ∧ r.resumed = resume ∧ r.target = target ∧ r.resumable = false ∧ r.image = d.run.image := by
  obtain ⟨-, -, -, -, -, -, -, state, image, resumed, -⟩ := d.clearForRun_keeps
  cases resume
  · rw [Dev.prepareRun_start]
    exact ⟨state, rfl, resumed, rfl, rfl, image⟩
  · exact ⟨rfl, rfl, rfl, rfl, rfl, rfl⟩

theorem Dev.prepareRun_keeps (d : Dev) (resume : Bool) (target : Option (TileId × Nat × Nat)) : let e := d.prepareRun resume target
    e.host.jobs = d.host.jobs ∧ e.host.fetched = d.host.fetched ∧ e.log = d.log ∧ e.mem = d.mem ∧ e.tick = d.tick ∧ e.sec = d.sec ∧ e.pke = d.pke := by
  obtain ⟨jobs, fetched, log, mem, tick, sec, pke, -⟩ := d.clearForRun_keeps
  cases resume
  · rw [Dev.prepareRun_start]
    generalize d.clearForRun = e at *
    exact ⟨jobs, fetched, log, mem, tick, sec, pke⟩
  · exact ⟨rfl, rfl, rfl, rfl, rfl, rfl, rfl⟩

theorem Dev.prepareRun_peer (d : Dev) (resume : Bool) (target : Option (TileId × Nat × Nat)) : (d.prepareRun resume target).peer =
    { d.peer with plans := if resume then d.peer.plans else d.peer.plans.map (fun p => p.map (fun x => { x with digestLogged := [] })) } := by
  obtain ⟨-, -, -, -, -, -, -, -, -, -, peer⟩ := d.clearForRun_keeps
  cases resume
  · rw [Dev.prepareRun_start]
    exact peer
  · rfl

theorem Dev.prepareRun_resume_tiles (d : Dev) (target : Option (TileId × Nat × Nat)) : (d.prepareRun true target).tiles = d.tiles := rfl

theorem Dev.prepareRun_start_tile (d : Dev) (target : Option (TileId × Nat × Nat)) (t : TileId) : (d.prepareRun false target).tile t = (d.tile t).atStart := by
  rw [Dev.prepareRun_start, ← d.clearForRun_tile t, Dev.tile, Dev.tile]

theorem Tile.startsAt_atStart (x : Tile) : startsAt x x.atStart := by
  have flushed : ∀ r ∈ (x.rings.map (fun r => { r.flush with leftover := false })).toList, r.armed = false ∧ r.leftover = false := fun r hr => by
    obtain ⟨q, -, rfl⟩ := Vector.mem_map.1 (Vector.mem_toList_iff.1 hr)
    exact ⟨rfl, rfl⟩
  exact ⟨rfl, rfl, rfl, rfl, rfl, rfl, rfl, rfl, rfl, rfl, rfl, rfl, rfl, rfl, rfl, rfl, rfl, flushed, rfl, rfl, rfl, rfl, rfl, rfl, rfl, rfl, rfl, rfl⟩

theorem Dev.acceptRun_tiles (d : Dev) (f : Fetched) (k : JobKind) (n : Nat) (resume : Bool) (target : Option (TileId × Nat × Nat)) :
    (d.acceptRun f k n resume target).tiles = ((d.becomePending f k).prepareRun resume target).tiles := (Dev.enter_reports _ _ _).tiles

theorem Dev.acceptRun_fresh (d : Dev) (f : Fetched) (k : JobKind) (n : Nat) (target : Option (TileId × Nat × Nat)) (t : TileId) :
    startsAt (d.tile t) ((d.acceptRun f k n false target).tile t) := by
  have start : (d.acceptRun f k n false target).tile t = (d.tile t).atStart := by
    have before : (d.becomePending f k).tile t = d.tile t := by rw [Dev.tile, (Dev.becomePending_reports d f k).tiles, Dev.tile]
    rw [← before, ← Dev.prepareRun_start_tile _ target, Dev.tile, Dev.acceptRun_tiles, Dev.tile]
  rw [start]
  exact Tile.startsAt_atStart _

theorem Dev.acceptRun_resumed (d : Dev) (f : Fetched) (k : JobKind) (n : Nat) (target : Option (TileId × Nat × Nat)) :
    (d.acceptRun f k n true target).tiles = d.tiles := by
  rw [Dev.acceptRun_tiles, Dev.prepareRun_resume_tiles, (Dev.becomePending_reports d f k).tiles]

/-- A run accepted fetches nothing. -/
theorem Dev.acceptRun_fetched (d : Dev) (f : Fetched) (k : JobKind) (n : Nat) (resume : Bool) (target : Option (TileId × Nat × Nat)) :
    (d.acceptRun f k n resume target).host.fetched = d.host.fetched := by
  obtain ⟨-, fetched, -⟩ := (d.becomePending f k).prepareRun_keeps resume target
  rw [Dev.acceptRun_eq, (Dev.enter_keeps _ _ _).2, fetched, (Dev.becomePending_keeps d f k).2.2]

/-- The checks of R345 passed, a run is accepted. -/
theorem Dev.beginRun_accepts {d : Dev} {im : Image} (image : d.run.image = some im) (keys : d.keysResident im = true) (power : im.peak ≤ d.power.budget)
    (f : Fetched) (k : JobKind) (n : Nat) (resume : Bool) (target : Option (TileId × Nat × Nat)) :
    d.beginRun f k n resume target = d.acceptRun f k n resume target := by
  unfold Dev.beginRun
  rw [image]
  simp [keys, Nat.not_lt.2 power]

section Accepted

variable {s : State} {c : Packet} {f : Fetched} {i : Instr} {k : JobKind} {n : Nat} {resume : Bool} {target : Option (TileId × Nat × Nat)} {im : Image}

/-- A run accepted is one that the statement tells of. -/
theorem State.runs_accepted (booted : s.dev.run.state ≠ .boot) (resumes : resume = true → target = none)
    (answers : s.answers i ((s.taken f).acceptRun f k n resume target)) : s.runs i f k resume target ((s.taken f).acceptRun f k n resume target) := by
  generalize hb : (s.taken f).becomePending f k = b
  have pend : (s.taken f).ReportsTo b := hb ▸ Dev.becomePending_reports _ f k
  have jobs : b.host.jobs = s.dev.host.jobs ++ [{ kind := k, cmd := f }] := hb ▸ Dev.becomePending_jobs _ f k
  have log : (s.dev.ring f.cq).fails ≠ some 0 → b.log = s.dev.log := fun h => hb ▸ Dev.becomePending_log (s.taken f) f k h
  obtain ⟨state, toBegin, resumed, targeted, resumable, image⟩ := Dev.prepareRun_run b resume target
  obtain ⟨keepsJobs, -, keepsLog, mem, tick, sec, pke⟩ := Dev.prepareRun_keeps b resume target
  have peer := Dev.prepareRun_peer b resume target
  rw [Dev.acceptRun_eq, hb] at answers ⊢
  have enters := Dev.enter_reports (b.prepareRun resume target) .running n
  rw [pend.run] at state image
  refine ⟨answers, ?_, ?_, ?_, ?_, ?_, ?_, ?_, ?_, ?_, ?_, ?_, ?_, ?_⟩
  · rw [enters.run]
  · rw [enters.run]; exact toBegin
  · rw [enters.run]; exact resumed
  · rw [enters.run]
    refine targeted.trans ?_
    split
    next h => exact resumes h
    next => rfl
  · rw [enters.run]; exact resumable
  · rw [enters.run]; exact image
  · rw [Dev.enter_jobs, keepsJobs, jobs]
  · intro fails
    rw [Dev.enter_next _ _ _ (by rw [state]; exact booted), keepsLog, log fails]
  · rw [enters.mem]; exact mem.trans pend.mem
  · rw [enters.tick]; exact tick.trans pend.tick
  · rw [enters.peer]
    refine peer.trans ?_
    rw [pend.peer]
    rfl
  · rw [enters.sec]; exact sec.trans pend.sec
  · rw [enters.pke]; exact pke.trans pend.pke

end Accepted

end Sys2Proof.Machine

/- The rows of START, RESUME, RUN_TO_COUNT and STOP (R310, R345 to R347). -/

namespace Sys2Proof.Machine

section Rows

variable {s : State} {c : Packet} {f : Fetched} {im : Image}

/-- No command is accepted in BOOT (R333). -/
theorem State.offers_booted (h : s.offers c f) : s.dev.run.state ≠ .boot := by
  obtain ⟨-, -, -, accepted⟩ := h
  intro boot
  rw [boot] at accepted
  exact absurd accepted Bool.false_ne_true

theorem State.taken_fetched (h : s.offers c f) : (s.taken f).host.fetched = [] := Dev.take_only _ _ h.1

section Begin

variable (image : s.dev.run.image = some im) (keys : s.dev.keysResident im = true) (power : im.peak ≤ s.dev.power.budget)
include image keys power

/-- The packet of a run command, its tests passed, has its run accepted (R345, R347). -/
theorem State.command_begins {n : Nat} (opcode : c.opcode = n) (h : s.offers c f) (t : Tests) (valid : t.valid = true) (condition : t.condition = true)
    (free : t.busy = false) (unsigned : t.signature = false) (k : JobKind) (m : Nat) (resume : Bool) (target : Option (TileId × Nat × Nat)) :
    s.dev.command c n t (fun d f => d.beginRun f k m resume target) = (s.taken f).acceptRun f k m resume target := by
  have begins : (s.taken f).beginRun f k m resume target = (s.taken f).acceptRun f k m resume target :=
    Dev.beginRun_accepts (d := s.taken f) image keys power f k m resume target
  rw [Dev.command_accepted opcode h t _ valid condition free (by rw [unsigned]; rfl), begins]
  rw [begins, Dev.acceptRun_fetched, State.taken_fetched h]

/-- START (R345). -/
theorem State.start_runs (h : s.commands c f 0x20 none none 0) :
    s.runs (.start c) f .start false none ((s.taken f).acceptRun f .start 0x20 false none) := by
  obtain ⟨offers, opcode, fields⟩ := h
  refine State.runs_accepted (State.offers_booted offers) (fun _ => rfl) (State.answers_of_act (f := fun d => d.command c 0x20 { valid := c.fieldsOk none none 0 }
    (fun d f => d.beginRun f .start 0x20 false none)) rfl ?_)
  exact State.command_begins image keys power opcode offers _ fields rfl rfl rfl _ _ _ _

/-- RESUME of a run that can be resumed (R347). -/
theorem State.resume_runs (h : s.commands c f 0x23 none none 0) (resumable : s.dev.run.resumable = true) :
    s.runs (.resume c) f .resume true none ((s.taken f).acceptRun f .resume 0x23 true none) := by
  obtain ⟨offers, opcode, fields⟩ := h
  refine State.runs_accepted (State.offers_booted offers) (fun _ => rfl) (State.answers_of_act (f := fun d => d.command c 0x23
    { valid := c.fieldsOk none none 0, condition := d.run.resumable } (fun d f => d.beginRun f .resume 0x23 true none)) rfl ?_)
  exact State.command_begins image keys power opcode offers _ fields resumable rfl rfl _ _ _ _

/-- RUN_TO_COUNT of a count within a plan that runs (R310, R311). -/
theorem State.runToCount_runs (h : s.commands c f 0x40 none none (inlBytes 0 1 + inlBytes 4 8)) (tile : c.inl 0 1 < 64)
    (count : s.dev.countOk (BitVec.ofNat 6 (c.inl 0 1)) (c.inl 4 4) (c.inl 8 4) = true) :
    let t := BitVec.ofNat 6 (c.inl 0 1)
    let target := some (t, c.inl 4 4, c.inl 8 4)
    s.runs (.runToCount c) f (.runToCount t) false target ((s.taken f).acceptRun f (.runToCount t) 0x40 false target) := by
  obtain ⟨offers, opcode, fields⟩ := h
  have counted : (s.taken f).countOk (BitVec.ofNat 6 (c.inl 0 1)) (c.inl 4 4) (c.inl 8 4) = true := count
  have valid : (c.fieldsOk none none (inlBytes 0 1 + inlBytes 4 8) && decide (c.inl 0 1 < 64)) = true := by simp [fields, tile]
  refine State.runs_accepted (State.offers_booted offers) (fun h => absurd h Bool.false_ne_true) (State.answers_of_act (f := fun d => d.command c 0x40
    { valid := c.fieldsOk none none (inlBytes 0 1 + inlBytes 4 8) && decide (c.inl 0 1 < 64) } (fun d f =>
      let t := BitVec.ofNat 6 (c.inl 0 1)
      if !d.countOk t (c.inl 4 4) (c.inl 8 4) then d.complete f false .badParam noDetail
      else d.beginRun f (.runToCount t) 0x40 false (some (t, c.inl 4 4, c.inl 8 4)))) rfl ?_)
  have begins := Dev.beginRun_accepts (d := s.taken f) image keys power f (.runToCount (BitVec.ofNat 6 (c.inl 0 1))) 0x40 false
    (some (BitVec.ofNat 6 (c.inl 0 1), c.inl 4 4, c.inl 8 4))
  have effect : (if !(s.taken f).countOk (BitVec.ofNat 6 (c.inl 0 1)) (c.inl 4 4) (c.inl 8 4) then (s.taken f).complete f false .badParam noDetail
      else (s.taken f).beginRun f (.runToCount (BitVec.ofNat 6 (c.inl 0 1))) 0x40 false (some (BitVec.ofNat 6 (c.inl 0 1), c.inl 4 4, c.inl 8 4))) =
      (s.taken f).acceptRun f (.runToCount (BitVec.ofNat 6 (c.inl 0 1))) 0x40 false (some (BitVec.ofNat 6 (c.inl 0 1), c.inl 4 4, c.inl 8 4)) := by
    simp only [counted, Bool.not_true, Bool.false_eq_true, if_false, begins]
  refine (Dev.command_accepted opcode offers _ _ valid rfl rfl rfl ?_).trans effect
  refine (congrArg (fun d : Dev => d.host.fetched) effect).trans ?_
  rw [Dev.acceptRun_fetched, State.taken_fetched offers]

end Begin

/- STOP (R346). -/

/-- What STOP does once its tests have passed. -/
def Dev.stopBegins (d : Dev) (f : Fetched) : Dev :=
  let d := d.becomePending f .stop
  if d.run.state = .running ∧ d.run.ending = none then (d.enter .stopping 0x21).holdBegin else d

theorem Dev.holdBegin_keeps (d : Dev) : let e := d.holdBegin
    e.run.state = d.run.state ∧ e.host = d.host ∧ e.tiles = d.tiles ∧ e.mem = d.mem ∧ e.log = d.log := by
  unfold Dev.holdBegin
  split
  · simp
  · simp

theorem Dev.stopBegins_fetched (d : Dev) (f : Fetched) : (d.stopBegins f).host.fetched = d.host.fetched := by
  have pend := (Dev.becomePending_keeps d f .stop).2.2
  unfold Dev.stopBegins
  simp only
  split
  · rw [(Dev.holdBegin_keeps _).2.1, (Dev.enter_keeps _ _ _).2, pend]
  · exact pend

theorem State.stop_answers (h : s.commands c f 0x21 none none 0) : s.answers (.stop c) ((s.taken f).stopBegins f) := by
  obtain ⟨offers, opcode, fields⟩ := h
  refine State.answers_of_act (f := fun d => d.command c 0x21 { valid := c.fieldsOk none none 0 } Dev.stopBegins) rfl ?_
  exact Dev.command_accepted opcode offers _ _ fields rfl rfl rfl ((Dev.stopBegins_fetched _ f).trans (State.taken_fetched offers))

/-- A STOP that finds no run to stop, or one that ends already, pends. -/
theorem State.stop_waits (h : s.commands c f 0x21 none none 0) (ends : ¬ (s.dev.run.state = .running ∧ s.dev.run.ending = none)) :
    s.answers (.stop c) ((s.taken f).becomePending f .stop) := by
  have waits : (s.taken f).stopBegins f = (s.taken f).becomePending f .stop := by
    unfold Dev.stopBegins
    simp only
    rw [(Dev.becomePending_keeps _ f .stop).2.1]
    exact if_neg ends
  exact waits ▸ State.stop_answers h

/-- A STOP of a run takes the device to STOPPING (R346). -/
theorem State.stop_stops (h : s.commands c f 0x21 none none 0) (running : s.dev.run.state = .running) (open_ : s.dev.run.ending = none) :
    ∃ d : Dev, s.answers (.stop c) d ∧ d.run.state = .stopping ∧ d.host.jobs = s.dev.host.jobs ++ [{ kind := .stop, cmd := f }] ∧ d.tiles = s.dev.tiles ∧
      d.mem = s.dev.mem ∧ ((s.dev.ring f.cq).fails ≠ some 0 → d.log.next = s.dev.log.next + 1) := by
  generalize hp : (s.taken f).becomePending f .stop = p
  have pend : (s.taken f).ReportsTo p := hp ▸ Dev.becomePending_reports _ f .stop
  have jobs : p.host.jobs = s.dev.host.jobs ++ [{ kind := .stop, cmd := f }] := hp ▸ Dev.becomePending_jobs _ f .stop
  have run : p.run = s.dev.run := pend.run
  have stops : (s.taken f).stopBegins f = (p.enter .stopping 0x21).holdBegin := by
    unfold Dev.stopBegins
    simp only [hp]
    rw [run]
    exact if_pos ⟨running, open_⟩
  obtain ⟨state, host, tiles, mem, log⟩ := (p.enter .stopping 0x21).holdBegin_keeps
  have enters := Dev.enter_reports p .stopping 0x21
  refine ⟨_, State.stop_answers h, ?_⟩
  rw [stops, state, host, tiles, mem, log]
  refine ⟨by rw [Dev.enter_state], by rw [Dev.enter_jobs, jobs], enters.tiles.trans pend.tiles, enters.mem.trans pend.mem, fun fails => ?_⟩
  rw [Dev.enter_next _ _ _ (by rw [run, running]; decide), ← hp, Dev.becomePending_log (s.taken f) f .stop fails]
  rfl

end Rows

end Sys2Proof.Machine

/- ABORT (R167, R193, R270, R348). -/

namespace Sys2Proof.Machine

/- What poisoning headers leaves of a tile (R47, R250). -/

/-- What setting POISON in header registers and rows can change of a tile. -/
abbrev Tile.PoisonsTo (x y : Tile) : Prop :=
  y = { x with h := y.h, scratch := y.scratch, ceRows := y.ceRows, reads := y.reads, named := y.named }

theorem Tile.PoisonsTo.trans {x y z : Tile} (h : x.PoisonsTo y) (g : y.PoisonsTo z) : x.PoisonsTo z := by
  unfold Tile.PoisonsTo at *
  rw [g, h]

theorem Tile.poisonHeader_poisons (x : Tile) (n : Nat) : x.PoisonsTo (x.poisonHeader n) := by
  unfold Tile.poisonHeader
  simp only
  split <;> rfl

theorem Tile.poisonNamed_poisons (x : Tile) : x.PoisonsTo x.poisonNamed := by
  unfold Tile.poisonNamed
  refine Tile.PoisonsTo.trans (y := (List.range 8).foldl (fun t n => if t.named.getLsbD n then t.poisonHeader n else t) x) ?_ rfl
  refine List.foldlRecOn (motive := fun y : Tile => x.PoisonsTo y) _ _ rfl fun y h n _ => ?_
  split
  · exact h.trans (Tile.poisonHeader_poisons y n)
  · exact h

/- What a tile holds once it has been stopped, all has landed and the run is over. -/

/-- A tile whose run ABORT stops, before headers are poisoned: `Tile.skip`'s own. -/
def Tile.dropWork (x : Tile) (self : TileId) : Tile := { x.dropFlights.stopQueues self with rings := x.rings.map Ring.flush, expands := [] }

theorem Tile.skip_eq (x : Tile) (self : TileId) : x.skip self = (x.dropWork self).poisonNamed := rfl

/-- A tile whose requests have landed: `Dev.settled`'s own. -/
def Tile.landed (x : Tile) : Tile := { x.clearArrivals with dma := { x.dma with queues := Vector.replicate 4 [] } }

/-- What an aborted run leaves of a tile that was `x` before it (R167, R193, R270, R348; log 42). -/
structure Tile.AbortedFrom (x y : Tile) : Prop where
  queues : y.dma.queues = Vector.replicate 4 []
  rings : ∀ r ∈ y.rings.toList, r.armed = false
  expands : y.expands = []
  arrival : y.arrival = Vector.replicate 64 0
  halted : x.halted = true → y.haltReason = x.haltReason ∧ y.haltMore = true
  running : x.halted = false → y.haltReason = .aborted ∧ y.haltAddr = BitVec.ofNat 14 x.pc

theorem Ring.flushed_unarmed (x : Tile) : ∀ r ∈ (x.rings.map Ring.flush).toList, r.armed = false := fun r hr => by
  obtain ⟨q, -, rfl⟩ := Vector.mem_map.1 (Vector.mem_toList_iff.1 hr)
  rfl

/-- What `Tile.recordStop` of an aborted run writes (R270; log 42). -/
theorem Tile.recordStop_aborted (x : Tile) : let y := x.recordStop true
    (y.dma = x.dma ∧ y.rings = x.rings ∧ y.expands = x.expands ∧ y.arrival = x.arrival) ∧
    (x.halted = true → y.haltReason = x.haltReason ∧ y.haltMore = true) ∧
    (x.halted = false → y.haltReason = .aborted ∧ y.haltAddr = BitVec.ofNat 14 x.pc) := by
  unfold Tile.recordStop
  cases x.halted <;> simp

/-- A tile stopped, settled and closed has been aborted, whatever headers were poisoned on the way. -/
theorem Tile.aborted_of_poisons {x v w : Tile} {self : TileId} (stopped : v = { x.skip self with sent := v.sent }) (settled : v.landed.PoisonsTo w) :
    x.AbortedFrom (w.recordStop true) := by
  have poisoned : (x.dropWork self).PoisonsTo (x.skip self) := Tile.skip_eq x self ▸ Tile.poisonNamed_poisons _
  have rings : v.rings = x.rings.map Ring.flush := by rw [stopped, poisoned]; rfl
  have expands : v.expands = [] := by rw [stopped, poisoned]; rfl
  have halt : v.halted = x.halted ∧ v.haltReason = x.haltReason ∧ v.pc = x.pc := by
    rw [stopped, poisoned]
    exact ⟨rfl, rfl, rfl⟩
  have kept : w.dma = v.landed.dma ∧ w.rings = v.rings ∧ w.expands = v.expands ∧ w.arrival = Vector.replicate 64 0 ∧ w.halted = v.halted ∧
      w.haltReason = v.haltReason ∧ w.pc = v.pc := by
    rw [settled]
    exact ⟨rfl, rfl, rfl, rfl, rfl, rfl, rfl⟩
  obtain ⟨halted, reason, pc⟩ := halt
  obtain ⟨wdma, wrings, wexpands, warrival, whalted, wreason, wpc⟩ := kept
  obtain ⟨⟨dma, yrings, yexpands, arrival⟩, more, fresh⟩ := w.recordStop_aborted
  rw [whalted, halted] at more fresh
  rw [wreason, reason] at more
  rw [wpc, pc] at fresh
  exact ⟨by rw [dma, wdma]; rfl, by rw [yrings, wrings, rings]; exact Ring.flushed_unarmed x,
    by rw [yexpands, wexpands, expands], arrival.trans warrival, more, fresh⟩

/- The tiles of the device through the end of a run. -/

theorem Dev.tile_mapTiles (d : Dev) (p : TileId → Bool) (f : TileId → Tile → Tile) (t : TileId) :
    (d.mapTiles p f).tile t = if p t then f t (d.tile t) else d.tile t := by
  simp [Dev.tile, Dev.mapTiles]

theorem Dev.inImage_of_image {d e : Dev} (h : e.run.image = d.run.image) (t : TileId) : e.inImage t = d.inImage t := by
  unfold Dev.inImage
  rw [h]

/-- What poisoning the outputs of skipped stages can change of the tiles (R250). -/
theorem Dev.poisonOutput_tile (d : Dev) (r : BitVec 64) (t : TileId) : (d.tile t).PoisonsTo ((d.poisonOutput r).tile t) := by
  obtain ⟨cs, read⟩ := Dev.readNear_clean d (d.mem.nearKey (refAddr r)).1 (d.mem.nearKey (refAddr r)).2
  have marked : (d.serveMem (.mark (refAddr r) {} none)).tiles = d.tiles := congrArg (·.1.tiles) read
  unfold Dev.poisonOutput
  split
  · simp only
    split
    · by_cases here : BitVec.ofNat 6 (refTile r) = t
      · subst here
        rw [Dev.tile_setTile]
        rfl
      · rw [Dev.tile_setTile_other _ _ here]
    · rfl
  · split
    · unfold Dev.receiveMem
      split
      · rfl
      · rw [Dev.tile, Dev.tile, marked]
    · rfl

theorem Dev.poisonStage_tile (d : Dev) (n : Option Nat) (t : TileId) : (d.tile t).PoisonsTo ((d.poisonStage n).tile t) := by
  unfold Dev.poisonStage
  split
  · exact List.foldlRecOn (motive := fun x : Dev => (d.tile t).PoisonsTo (x.tile t)) _ _ rfl fun x h r _ => h.trans (Dev.poisonOutput_tile x r t)
  · rfl

theorem Dev.poisonOutputs_tile (d : Dev) (t : TileId) : (d.tile t).PoisonsTo (d.poisonOutputs.tile t) := by
  unfold Dev.poisonOutputs
  rw [Dev.tile, Dev.tile, Dev.mapGroups_tiles]
  exact List.foldlRecOn (motive := fun x : Dev => (d.tile t).PoisonsTo (x.tile t)) _ _ rfl fun x h g _ => h.trans (Dev.poisonStage_tile x _ t)

theorem Dev.settled_tile (d : Dev) {t : TileId} (h : d.inImage t = true) : (d.tile t).landed.PoisonsTo (d.settled.tile t) := by
  generalize hm : d.mapTiles d.inImage (fun _ x => x.landed) = m
  have mapped : m.tile t = (d.tile t).landed := by rw [← hm, Dev.tile_mapTiles, if_pos h]
  have same : d.settled.tile t = m.poisonOutputs.tile t := by
    rw [← hm]
    simp only [Dev.settled, Dev.tile, Tile.landed]
  rw [← mapped, same]
  exact Dev.poisonOutputs_tile m t

theorem Dev.stopTiles_tile (d : Dev) (e : Ending) {t : TileId} (h : d.inImage t = true) :
    (d.stopTiles e).tile t = { (d.tile t).skip t with sent := ((d.stopTiles e).tile t).sent } := by
  have mapped := Dev.tile_mapTiles d d.inImage (fun t x => { x.skip t with sent := { x.sent with sample := none } }) t
  rw [if_pos h] at mapped
  have same : (d.stopTiles e).tile t = { (d.tile t).skip t with sent := { (d.tile t).sent with sample := none } } := by
    rw [← mapped]
    simp only [Dev.stopTiles, Dev.tile]
  rw [same]

@[simp] theorem Dev.stopTiles_run (d : Dev) (e : Ending) : (d.stopTiles e).run = { d.run with ending := some e } := by
  simp [Dev.stopTiles]

@[simp] theorem Dev.stopTiles_host (d : Dev) (e : Ending) : (d.stopTiles e).host = d.host := by
  simp [Dev.stopTiles]

/-- Reductions abandoned change no tile, and have no instance left in progress (R373). -/
theorem Dev.abandonReductions_peer (d : Dev) : d.abandonReductions.tiles = d.tiles ∧
    d.abandonReductions.peer.plans = d.peer.plans.map (fun p => p.map (fun x => { x with instances := [] })) := by
  unfold Dev.abandonReductions
  exact List.foldlRecOn (motive := fun x : Dev => x.tiles = d.tiles ∧ x.peer.plans = d.peer.plans.map (fun p => p.map (fun x => { x with instances := [] })))
    _ _ ⟨rfl, rfl⟩ fun x ⟨tiles, plans⟩ i _ => ⟨(Dev.event_tiles _ _ _ _).trans tiles, (congrArg Peer.plans (Dev.event_reports x _ _ _).peer).trans plans⟩

theorem Dev.closeRun_tile (d : Dev) (aborted : Bool) {t : TileId} (h : d.inImage t = true) :
    (d.closeRun aborted).tile t = (d.tile t).recordStop aborted := by
  have mapped := Dev.tile_mapTiles d d.inImage (fun _ x => x.recordStop aborted) t
  rw [if_pos h] at mapped
  rw [← mapped, Dev.tile, Dev.tile]
  simp [Dev.closeRun, (Dev.abandonReductions_peer _).1]

theorem Dev.closeRun_over (d : Dev) (aborted : Bool) : (d.closeRun aborted).tick.inRun = false ∧
    (d.closeRun aborted).peer.plans = d.peer.plans.map (fun p => p.map (fun x => { x with instances := [] })) := by
  simp [Dev.closeRun, (Dev.abandonReductions_peer _).2]

/- The commands that ABORT completes. -/

/-- Commands completed leave the jobs, and none that `p` names is left (R326). -/
theorem Dev.finish_named_jobs (p : JobKind → Bool) (st : Status) (detail : Job → List Byte) (js : List Job) (d : Dev)
    (h : (d.host.jobs.filter (fun j => p j.kind)).Sublist js) : let e := js.foldl (fun d j => d.finish j st (detail j)) d
    e.host.jobs.Sublist d.host.jobs ∧ e.host.jobs.filter (fun j => p j.kind) = [] := by
  induction js generalizing d with
  | nil => exact ⟨.refl _, List.sublist_nil.1 h⟩
  | cons j js ih =>
    have shrinks := Dev.finish_jobs d j st (detail j)
    obtain ⟨sub, none⟩ := ih (d.finish j st (detail j)) ((shrinks.filter _).trans (by rw [← List.erase_filter]; simpa using h.erase j))
    exact ⟨sub.trans (shrinks.trans List.erase_sublist), none⟩

theorem Dev.finishAll_jobs (d : Dev) (p : JobKind → Bool) (st : Status) (detail : Job → List Byte) {j : Job} (h : j ∈ (d.finishAll p st detail).host.jobs) :
    j ∈ d.host.jobs ∧ p j.kind = false := by
  obtain ⟨sub, none⟩ := Dev.finish_named_jobs p st detail _ d (.refl _)
  exact ⟨sub.subset h, Bool.eq_false_iff.2 (List.filter_eq_nil_iff.1 none j h)⟩

end Sys2Proof.Machine

/- The end of an ABORT and its row (R348). -/

namespace Sys2Proof.Machine

/-- The device of an ABORT whose requests have landed, HALTED entered and no command completed yet: `Dev.enterHalted`'s own. -/
def Dev.abortHalts (d : Dev) : Dev := (d.settled.closeRun true).enter .halted 0x22

/-- The commands that ABORT completes, itself the last (R348). -/
def Dev.abortFinishes (e : Dev) : Dev :=
  (e.finishRunJobs true).finishAll (fun k => match k with | .abort _ _ => true | _ => false) .aborted Job.abortDetail

theorem Dev.abortEnd_eq (d : Dev) : d.abortEnd = d.abortHalts.abortFinishes := rfl

theorem Dev.abortFinishes_eq (e : Dev) : e.abortFinishes =
    (let e1 := e.finishAll (fun k => match k with | .start | .resume => true | _ => false) .aborted (fun _ => noDetail)
     let e2 := e1.finishAll (fun k => match k with | .stop => true | _ => false) .aborted (fun _ => e1.stopDetail (e1.run.lastTick.getD 0xFFFFFFFF))
     let e3 := e2.finishAll (fun k => match k with | .runToCount _ => true | _ => false) .aborted
       (fun j => match j.kind with | .runToCount t => e2.countDetail t | _ => noDetail)
     e3.finishAll (fun k => match k with | .abort _ _ => true | _ => false) .aborted
       (fun j => match j.kind with | .abort n cycle => detailOf [(0, n % 2 ^ 32), (4, cycle)] | _ => noDetail)) := rfl

theorem Dev.abortFinishes_reports (e : Dev) : e.ReportsTo e.abortFinishes := by
  rw [Dev.abortFinishes_eq]
  exact (((Dev.finishAll_reports _ _ _ _).trans (Dev.finishAll_reports _ _ _ _)).trans (Dev.finishAll_reports _ _ _ _)).trans (Dev.finishAll_reports _ _ _ _)

/-- Whether a pending command outlasts an ABORT: the run commands and ABORT itself do not (R348). -/
def JobKind.OutlastsAbort : JobKind → Prop
  | .start | .resume | .stop | .abort _ _ | .runToCount _ => False
  | _ => True

theorem Dev.abortFinishes_jobs (e : Dev) {j : Job} (h : j ∈ e.abortFinishes.host.jobs) : j ∈ e.host.jobs ∧ j.kind.OutlastsAbort := by
  rw [Dev.abortFinishes_eq] at h
  obtain ⟨h3, notAbort⟩ := Dev.finishAll_jobs _ _ _ _ h
  obtain ⟨h2, notCount⟩ := Dev.finishAll_jobs _ _ _ _ h3
  obtain ⟨h1, notStop⟩ := Dev.finishAll_jobs _ _ _ _ h2
  obtain ⟨h0, notRun⟩ := Dev.finishAll_jobs _ _ _ _ h1
  refine ⟨h0, ?_⟩
  cases hk : j.kind <;> simp_all [JobKind.OutlastsAbort]

/- The device that ABORT halts. -/

theorem Dev.abortHalts_run (d : Dev) : let r := d.abortHalts.run
    r.state = .halted ∧ r.lastTick = d.run.lastTick ∧ r.resumable = false ∧ r.target = none ∧ r.toBegin = none := by
  rw [Dev.abortHalts, Dev.enter_state, Dev.closeRun_run, Dev.settled_run]
  exact ⟨rfl, rfl, rfl, rfl, rfl⟩

theorem Dev.abortHalts_host (d : Dev) : d.abortHalts.host.jobs = d.host.jobs ∧ d.abortHalts.host.fetched = d.host.fetched := by
  obtain ⟨-, jobs, fetched⟩ := d.settled.closeRun_keeps true
  rw [Dev.abortHalts, Dev.enter_jobs, (Dev.enter_keeps _ _ _).2, jobs, fetched, Dev.settled_host]
  exact ⟨rfl, rfl⟩

/-- The run is over, and no reduction instance is in progress (R348, R373). -/
theorem Dev.abortHalts_over (d : Dev) : d.abortHalts.tick.inRun = false ∧
    ∀ p ∈ d.abortHalts.peer.plans.toList, ∀ x, p = some x → x.instances = [] := by
  obtain ⟨tick, plans⟩ := d.settled.closeRun_over true
  rw [Dev.abortHalts]
  generalize d.settled.closeRun true = e at *
  have enters := Dev.enter_reports e .halted 0x22
  refine ⟨(congrArg Tick.inRun enters.tick).trans tick, fun p hp x hx => ?_⟩
  rw [enters.peer, plans] at hp
  obtain ⟨q, -, rfl⟩ := Vector.mem_map.1 (Vector.mem_toList_iff.1 hp)
  obtain ⟨y, -, rfl⟩ := Option.map_eq_some_iff.1 hx
  rfl

/-- The tiles of the image, stopped, have been aborted (R167, R193, R270; log 42). -/
theorem Dev.abortHalts_tile (d : Dev) (e : Ending) {t : TileId} (h : d.inImage t = true) : (d.tile t).AbortedFrom ((d.stopTiles e).abortHalts.tile t) := by
  have stopped : (d.stopTiles e).inImage t = true := (Dev.inImage_of_image (by rw [Dev.stopTiles_run]) t).trans h
  have settled : (d.stopTiles e).settled.inImage t = true := (Dev.inImage_of_image (by rw [Dev.settled_run]) t).trans stopped
  have closed := Dev.closeRun_tile (d.stopTiles e).settled true settled
  have enters : (d.stopTiles e).abortHalts.tile t = ((d.stopTiles e).settled.closeRun true).tile t := by
    rw [Dev.tile, Dev.abortHalts, (Dev.enter_reports _ _ _).tiles, Dev.tile]
  rw [enters, closed]
  exact Tile.aborted_of_poisons (Dev.stopTiles_tile d e h) (Dev.settled_tile _ stopped)

/- The row. -/

/-- What ABORT does once its tests have passed. -/
def Dev.abortBegins (d : Dev) (f : Fetched) : Dev :=
  let d := d.becomePending f (.abort d.tick.runTick d.tick.cycle)
  if d.run.ending.isSome then d
  else
    let d := d.stopTiles .abort
    if d.stillLands then d else d.abortEnd

theorem Dev.abortEnd_fetched (d : Dev) : d.abortEnd.host.fetched = d.host.fetched := by
  rw [Dev.abortEnd_eq, (Dev.abortFinishes_reports _).fetched, (Dev.abortHalts_host d).2]

theorem Dev.abortBegins_fetched (d : Dev) (f : Fetched) : (d.abortBegins f).host.fetched = d.host.fetched := by
  have pend := (Dev.becomePending_keeps d f (.abort d.tick.runTick d.tick.cycle)).2.2
  unfold Dev.abortBegins
  simp only
  split
  · exact pend
  · split
    · rw [Dev.stopTiles_host, pend]
    · rw [Dev.abortEnd_fetched, Dev.stopTiles_host, pend]

section Abort

variable {s : State} {c : Packet} {f : Fetched}

/-- The device on which the ABORT of packet f pends. -/
def State.abortWaits (s : State) (f : Fetched) : Dev := (s.taken f).becomePending f (.abort s.dev.tick.runTick s.dev.tick.cycle)

theorem State.abortWaits_run (s : State) (f : Fetched) : (s.abortWaits f).run = s.dev.run := (Dev.becomePending_keeps _ _ _).2.1

theorem State.abort_answers (h : s.commands c f 0x22 none none 0) : s.answers (.abort c) ((s.taken f).abortBegins f) := by
  obtain ⟨offers, opcode, fields⟩ := h
  refine State.answers_of_act (f := fun d => d.command c 0x22 { valid := c.fieldsOk none none 0 } Dev.abortBegins) rfl ?_
  exact Dev.command_accepted opcode offers _ _ fields rfl rfl rfl ((Dev.abortBegins_fetched _ f).trans (State.taken_fetched offers))

/-- An ABORT that finds the run ending already pends (R348; log 46). -/
theorem State.abort_waits (h : s.commands c f 0x22 none none 0) (ends : s.dev.run.ending ≠ none) : s.answers (.abort c) (s.abortWaits f) := by
  have waits : (s.taken f).abortBegins f = s.abortWaits f := by
    have some : (s.abortWaits f).run.ending.isSome = true := by
      rw [State.abortWaits_run]
      exact Option.isSome_iff_ne_none.2 ends
    exact if_pos some
  exact waits ▸ State.abort_answers h

section Open

variable (h : s.commands c f 0x22 none none 0) (open_ : s.dev.run.ending = none)
include h open_

theorem State.abort_stops : s.answers (.abort c)
    (if ((s.abortWaits f).stopTiles .abort).stillLands then (s.abortWaits f).stopTiles .abort else ((s.abortWaits f).stopTiles .abort).abortEnd) := by
  have stops : (s.taken f).abortBegins f =
      if ((s.abortWaits f).stopTiles .abort).stillLands then (s.abortWaits f).stopTiles .abort else ((s.abortWaits f).stopTiles .abort).abortEnd := by
    have none : ¬ (s.abortWaits f).run.ending.isSome = true := by
      rw [State.abortWaits_run, open_]
      exact Bool.false_ne_true
    exact if_neg none
  exact stops ▸ State.abort_answers h

/-- An ABORT whose accepted requests have still to land pends (log 46). -/
theorem State.abort_lands (lands : ((s.abortWaits f).stopTiles .abort).stillLands = true) : s.answers (.abort c) ((s.abortWaits f).stopTiles .abort) := by
  have stops := State.abort_stops h open_
  rwa [if_pos lands] at stops

/-- An ABORT with nothing to land completes (R348). -/
theorem State.abort_ends (landed : ((s.abortWaits f).stopTiles .abort).stillLands = false) :
    s.answers (.abort c) ((s.abortWaits f).stopTiles .abort).abortHalts.abortFinishes := by
  have stops := State.abort_stops h open_
  rwa [if_neg (by rw [landed]; exact Bool.false_ne_true), Dev.abortEnd_eq] at stops

end Open

/-- The commands still pending after an ABORT were pending before it. -/
theorem State.abort_jobs {j : Job} (hj : j ∈ ((s.abortWaits f).stopTiles .abort).abortHalts.abortFinishes.host.jobs) :
    j ∈ s.dev.host.jobs ∧ j.kind.OutlastsAbort := by
  obtain ⟨before, outlasts⟩ := Dev.abortFinishes_jobs _ hj
  refine ⟨?_, outlasts⟩
  rw [(Dev.abortHalts_host _).1, Dev.stopTiles_host, State.abortWaits, Dev.becomePending_jobs] at before
  rcases List.mem_append.1 before with old | new
  · exact old
  · rw [List.mem_singleton.1 new] at outlasts
    exact outlasts.elim

/-- A tile of the image after an ABORT. -/
theorem State.abort_tile {t : TileId} (h : s.dev.inImage t = true) :
    (s.dev.tile t).AbortedFrom (((s.abortWaits f).stopTiles .abort).abortHalts.abortFinishes.tile t) := by
  have image : (s.abortWaits f).inImage t = true := (Dev.inImage_of_image (by rw [State.abortWaits_run]) t).trans h
  have before : (s.abortWaits f).tile t = s.dev.tile t := by
    rw [Dev.tile, State.abortWaits, (Dev.becomePending_reports _ _ _).tiles]
    rfl
  have after : ((s.abortWaits f).stopTiles .abort).abortHalts.abortFinishes.tile t = ((s.abortWaits f).stopTiles .abort).abortHalts.tile t := by
    rw [Dev.tile, (Dev.abortFinishes_reports _).tiles, Dev.tile]
  rw [after, ← before]
  exact Dev.abortHalts_tile _ _ image

end Abort

/-- Settles O31: a run command's effect is `Dev.acceptRun`, `Dev.stopBegins` or `Dev.abortBegins`; records and events change none of what the statement
tells of, and the commands that an ABORT completes are those that `Dev.finishAll` names. -/
theorem runAndAbortCommands : Obligations.RunAndAbortCommands := by
  refine ⟨fun s c f im image => ⟨fun keys power => ⟨fun h => ?_, fun h resumable => ?_, fun h tile count => ?_⟩,
      fun h => ⟨fun stopping => ?_, fun ending => ?_, State.stop_stops h⟩⟩,
    fun s c f h => ⟨State.abort_waits h, fun open_ lands => ⟨State.abort_lands h open_ lands, ?_⟩, fun open_ landed => ?_⟩⟩
  · exact ⟨_, State.start_runs image keys power h, Dev.acceptRun_fresh (s.taken f) _ _ _ _⟩
  · exact ⟨_, State.resume_runs image keys power h resumable, Dev.acceptRun_resumed (s.taken f) _ _ _ _⟩
  · exact ⟨_, State.runToCount_runs image keys power h tile count, Dev.acceptRun_fresh (s.taken f) _ _ _ _⟩
  · exact State.stop_waits h fun running => by simp [stopping] at running
  · exact State.stop_waits h fun running => ending running.2
  · rw [Dev.stopTiles_run]
  · obtain ⟨state, lastTick, resumable, target, toBegin⟩ := ((s.abortWaits f).stopTiles .abort).abortHalts_run
    obtain ⟨inRun, plans⟩ := ((s.abortWaits f).stopTiles .abort).abortHalts_over
    have jobs : ((s.abortWaits f).stopTiles .abort).abortHalts.host.jobs = (s.abortWaits f).host.jobs := by
      rw [(Dev.abortHalts_host _).1, Dev.stopTiles_host]
    rw [Dev.stopTiles_run, State.abortWaits_run] at lastTick
    have answers := State.abort_ends h open_ landed
    have remain := fun j => State.abort_jobs (s := s) (f := f) (j := j)
    have tiles := fun t => State.abort_tile (s := s) (f := f) (t := t)
    refine ⟨((s.abortWaits f).stopTiles .abort).abortHalts, jobs, state, lastTick, ?_⟩
    generalize ((s.abortWaits f).stopTiles .abort).abortHalts = e at *
    have reports := e.abortFinishes_reports
    intro e1 e2 e3 d
    have final : e.abortFinishes = d := Dev.abortFinishes_eq e
    clear_value d
    subst final
    refine ⟨answers, (congrArg Run.state reports.run).trans state, (congrArg Run.resumable reports.run).trans resumable,
      (congrArg Run.target reports.run).trans target, (congrArg Run.toBegin reports.run).trans toBegin, (congrArg Tick.inRun reports.tick).trans inRun,
      remain, fun p hp => plans p (reports.peer ▸ hp), fun t ht => ?_⟩
    obtain ⟨queues, rings, expands, arrival, halted, running⟩ := tiles t ht
    exact ⟨queues, rings, expands, arrival, halted, running⟩

end Sys2Proof.Machine

/- The T slot as it issues (R74 to R89, R297, R298). -/

namespace Sys2Proof.Machine

/- Row requests at eight a cycle (R133; log 10). -/

theorem eightPerCycle_eq (c : Nat) (rows : List Nat) :
    eightPerCycle c rows = (List.range ((rows.length + 7) / 8)).map (fun i => (c + i, (rows.drop (8 * i)).take 8)) :=
  mapIdx_range _ _ _

/-- The first eight rows are asked for in the first cycle, and the others from the next on. -/
theorem eightPerCycle_cons (c : Nat) {rows : List Nat} (h : rows ≠ []) :
    eightPerCycle c rows = (c, rows.take 8) :: eightPerCycle (c + 1) (rows.drop 8) := by
  have cycles : (rows.length + 7) / 8 = ((rows.drop 8).length + 7) / 8 + 1 := by
    have := List.length_pos_iff.2 h
    rw [List.length_drop]
    omega
  rw [eightPerCycle_eq, eightPerCycle_eq, cycles, List.range_succ_eq_map, List.map_cons, List.map_map]
  refine congrArg₂ _ rfl (List.map_congr_left fun i _ => ?_)
  simp only [Function.comp, List.drop_drop]
  exact congrArg₂ _ (by omega) (by congr 2; omega)

theorem eightPerCycle_rows (c : Nat) (rows : List Nat) : (eightPerCycle c rows).flatMap (·.2) = rows := by
  rcases eq_or_ne rows [] with rfl | h
  · rfl
  · have shorter : (rows.drop 8).length < rows.length := by
      have := List.length_pos_iff.2 h
      rw [List.length_drop]
      omega
    rw [eightPerCycle_cons c h, List.flatMap_cons, eightPerCycle_rows (c + 1) (rows.drop 8), List.take_append_drop]
termination_by rows.length

theorem mem_eightPerCycle {c : Nat} {rows : List Nat} {e : Nat × List Nat} (h : e ∈ eightPerCycle c rows) :
    c ≤ e.1 ∧ e.1 < c + (rows.length + 7) / 8 ∧ e.2.length ≤ 8 := by
  rw [eightPerCycle_eq] at h
  obtain ⟨i, hi, rfl⟩ := List.mem_map.1 h
  exact ⟨Nat.le_add_right _ _, Nat.add_lt_add_left (List.mem_range.1 hi) _, List.length_take_le _ _⟩

/-- What a unit has asked for at the end of its issue cycle, and what it asks for later. -/
theorem split_eightPerCycle (c : Nat) (rows : List Nat) (got : List (Nat × Row)) :
    Fetches.split { todo := eightPerCycle c rows, got := got } c = (rows.take 8, eightPerCycle (c + 1) (rows.drop 8)) := by
  rcases eq_or_ne rows [] with rfl | h
  · rfl
  · have later : ∀ e ∈ eightPerCycle (c + 1) (rows.drop 8), ¬ e.1 ≤ c := fun e he => by
      have := (mem_eightPerCycle he).1
      omega
    have none : (eightPerCycle (c + 1) (rows.drop 8)).filter (fun p => decide (p.1 ≤ c)) = [] :=
      List.filter_eq_nil_iff.2 fun e he => by simpa using later e he
    have all : (eightPerCycle (c + 1) (rows.drop 8)).filter (fun p => !decide (p.1 ≤ c)) = eightPerCycle (c + 1) (rows.drop 8) :=
      List.filter_eq_self.2 fun e he => by simpa using later e he
    simp [Fetches.split, eightPerCycle_cons c h, none, all]

/- An instruction that puts an operation into a unit. -/

/-- An instruction that issues, with the row requests of its issue cycle, leaves the tile that both give. -/
theorem State.issues_of_fetch {s : State} {t : TileId} {g : GroupId} {c : Instr} {sl : Slot} {f : IssueCtx → Tile → Issue}
    {change : Tile → Tile} {y : Tile} (ready : s.ready t g) (row : exec c s = s.act (fun d => d.issueSlotOf t sl f))
    (passes : f (s.sees t g) (s.settled t g) = .ok y) (fetches : (y.fetchTu (s.sees t g)).fetchNma (s.sees t g) = change (s.settled t g))
    (pend : (change (s.settled t g)).pend = (s.settled t g).pend) (halted : (change (s.settled t g)).halted = (s.settled t g).halted)
    (taken : (change (s.settled t g)).taken = (s.settled t g).taken) : s.issues t g c change := by
  obtain ⟨member, may, ecc, detector, going, noPend, untaken, -⟩ := ready
  have one : (s.settled t g).issueOne (s.sees t g) sl f = change (s.settled t g) := by
    have first : firstFetch (s.sees t g) y = .ok (change (s.settled t g)) := by
      simp only [firstFetch, fetches, halted, going, Bool.false_and, Bool.false_eq_true, if_false]
    simp only [Tile.issueOne, passes, first]
    exact Tile.tryPend_none _ _ (pend.trans noPend)
  generalize hchange : (fun x : Tile => x.issueAlone (s.sees t g) sl f) = alone
  have leaves : alone (s.dev.tile t) = change (s.settled t g) := by
    rw [← hchange, ← one]
    exact if_neg (by rw [show ((s.dev.tile t).settle (s.sees t g)).halted = false from going]; exact Bool.false_ne_true)
  have issued : s.dev.issueSlotOf t sl f = s.dev.setTile t (change (s.settled t g)) := by
    have steps : s.dev.issueSlotOf t sl f = ((s.dev.onTile t alone).extentCheck g t (s.dev.tile t) (s.sees t g).bundle).coverTaken t := by
      simp only [Dev.issueSlotOf, member, Dev.insertEcc_done s.dev g ecc, may, if_true, ← hchange]
      rfl
    rw [steps, Dev.onTile_going _ _ _ (by rw [leaves, halted, going]), leaves, Dev.extentCheck_off _ _ _ _ _ (by exact detector), Dev.coverTaken_none]
    rw [Dev.tile_setTile, taken, untaken]
  rw [State.issues, row, State.act, issued]
  rfl

/-- A unit's requests of a cycle, none of whose rows lies in a slot that is not FULL. -/
theorem Tile.fetchFor_passes {x : Tile} {ctx : IssueCtx} {f : Fetches} {rows : List Nat} {rest : List (Nat × List Nat)}
    (split : f.split ctx.pipe = (rows, rest)) (free : noneStarved x rows) (seq : Nat) (bundle : BitVec 14) (slot : Slot) (reader : Reader) :
    x.fetchFor ctx f seq bundle slot reader = ({ x with reads := x.reads ++ rows.map (fun r =>
      { due := ctx.pipe + 6, seq := seq, bundle := bundle, slot := slot, reader := reader, row := r
        poisoned := (x.rowAt r).poison != 0, corrected := x.ceRows.contains r : RowRead }) },
      { todo := rest, got := f.got ++ rows.map (fun r => (r, x.rowAt r)) }) := by
  simp only [Tile.fetchFor, split, free, Bool.false_eq_true, if_false]
  rfl

theorem Tile.fetchNma_idle (x : Tile) (ctx : IssueCtx) (op : x.nma.op = none) (dsm : x.nma.dsm = none) : x.fetchNma ctx = x := by
  simp only [Tile.fetchNma, Tile.fetchNmaOp, Tile.fetchDsm, op, dsm]

/-- The requests of an operation in the cycle in which it comes into the unit. -/
theorem Tile.fetchTu_startTu {x : Tile} {ctx : IssueCtx} {op : TuOp} {rows : List Nat} {rest : List (Nat × List Nat)} (going : op.failed = false)
    (split : op.fetch.split ctx.pipe = (rows, rest)) (free : noneStarved x rows) : (x.startTu op).fetchTu ctx = { x with
      tu := { x.tu with op := some (op.withFetch { todo := rest, got := op.fetch.got ++ rows.map (fun r => (r, x.rowAt r)) }) }
      seq := x.seq + 1
      reads := x.reads ++ rows.map (fun r => { due := ctx.pipe + 6, seq := op.seq, bundle := op.bundle, slot := .t, reader := .transform, row := r
                                               poisoned := (x.rowAt r).poison != 0, corrected := x.ceRows.contains r }) } := by
  have requests := Tile.fetchFor_passes (x := x.startTu op) split free op.seq op.bundle .t .transform
  simp only [Tile.fetchTu, Tile.startTu, going, Bool.false_eq_true, if_false] at requests ⊢
  rw [requests]
  rfl

/- The checks of the T slot (R75, R76, R133). -/

theorem take_rowsFrom (a : Nat) {n k : Nat} (h : k ≤ n) (l : List Nat) : (rowsFrom a n ++ l).take k = rowsFrom a k := by
  rw [List.take_append_of_le_length (by simpa [rowsFrom] using h), rowsFrom, ← List.map_take, List.take_range, Nat.min_eq_left h, rowsFrom]

theorem needRows_pass {x : Tile} {rows : List Nat} (h : rows.all x.powered = true) : needRows x rows = .ok () := by
  have none : rows.find? (fun r => !x.powered r) = none := List.find?_eq_none.2 fun r hr => by simp [List.all_eq_true.1 h r hr]
  rw [needRows, none]

/-- An operation that the T slot puts into the unit in this cycle. -/
def newOp (ctx : IssueCtx) (x : Tile) (kind : TuKind) (latency src dst aux logN : Nat) (rows : List Nat) (mctx : BitVec 2) (entry q psi : Nat) : TuOp :=
  { kind := kind, issued := ctx.pipe, latency := latency, seq := x.seq, bundle := ctx.bundle, src := src, dst := dst, aux := aux, logN := logN
    mctx := mctx, entry := entry, q := q, psi := psi, fetch := { todo := eightPerCycle ctx.pipe rows } }

section Starts

variable {s : State} {t : TileId} {g : GroupId} {c : Instr} {f : IssueCtx → Tile → Issue} (ready : s.ready t g)
include ready

/-- Regions as `regionsOk` has them pass the checks of R76, in a tile whose units are free. -/
theorem State.tuChecks_pass {op : TuOp} {extra : Option (Nat × Nat)} (regions : regionsOk s t g op.src op.dst op.regionRows extra) :
    tuChecks (s.sees t g) (s.settled t g) op extra = .ok () := by
  obtain ⟨-, -, -, -, -, -, -, idleTu, idleNma, idleDsm⟩ := ready
  obtain ⟨⟨powered, bus⟩, srcOk, dstOk, apart, extraOk, -, rings⟩ := regions
  have region : sameOrApart op.src op.dst op.regionRows = true := by
    simp only [sameOrApart, overlap, Bool.or_eq_true, beq_iff_eq, Bool.not_eq_true', Bool.and_eq_false_iff, decide_eq_false_iff_not]
    omega
  have idle : (s.settled t g).tuBusy (s.sees t g).pipe = false := by simp [Tile.tuBusy, idleTu]
  have unowned : (s.settled t g).nmaOwned (s.sees t g).pipe = {} := by simp [Tile.nmaOwned, idleNma, idleDsm, Owned.append]
  have slots : needSlots (s.sees t g) (s.settled t g) op.owned {} (rowsFrom op.dst op.regionRows) = .ok () := by
    have nothing : ∀ l : List Nat, l.any ([] : List Nat).contains = false := fun l => by simp
    simp only [needSlots, needNoRing, ownMeetsBus, bus, rings, nothing]
    rfl
  have rows := needRows_pass powered
  rcases extra with _ | ⟨r, k⟩
  · simp only [tuChecks, rows, srcOk, dstOk, region, unowned, slots, idle, Bool.and_self, Bool.not_false, need_true, IssueStop.ok_bind]
  · obtain ⟨extraOk, off⟩ := extraOk r k rfl
    have clear : overlap r k op.dst op.regionRows = false := by
      simp only [overlap, Bool.and_eq_false_iff, decide_eq_false_iff_not]
      omega
    simp only [tuChecks, rows, srcOk, dstOk, extraOk, clear, region, unowned, slots, idle, Bool.and_self, Bool.not_false, need_true, IssueStop.ok_bind]

/-- An operation that comes into the unit: its first rows are asked for in its issue cycle, and the others follow. -/
theorem State.starts_of_op (row : exec c s = s.act (fun d => d.issueSlotOf t .t f)) {op : TuOp} {rows : List Nat}
    (passes : f (s.sees t g) (s.settled t g) = .ok ((s.settled t g).startTu op))
    (new : (op.issued, op.seq, op.bundle, op.failed, op.fetch) =
      ((s.sees t g).pipe, (s.settled t g).seq, (s.sees t g).bundle, false, { todo := eightPerCycle (s.sees t g).pipe rows }))
    (eight : 8 ≤ rows.length) (free : noneStarved (s.settled t g) (rows.take 8)) {prime : Option (Nat × Nat)}
    (hprime : ∀ p, prime = some p → (op.q, op.psi) = p) : s.starts t g c op.kind op.src op.dst op.aux op.logN op.latency rows prime := by
  obtain ⟨-, -, -, -, -, -, -, -, idleNma, idleDsm⟩ := id ready
  simp only [Prod.mk.injEq] at new
  obtain ⟨issued, seq, bundle, failed, fetch⟩ := new
  have requests := Tile.fetchTu_startTu (x := s.settled t g) (ctx := s.sees t g) failed (by rw [fetch]; exact split_eightPerCycle _ rows []) free
  have fetches := (congrArg (fun y : Tile => y.fetchNma (s.sees t g)) requests).trans (Tile.fetchNma_idle _ _ idleNma idleDsm)
  rw [seq, bundle, fetch] at fetches
  refine ⟨_, State.issues_of_fetch ready row passes fetches rfl rfl rfl, rfl, issued, rfl, seq, bundle, rfl, rfl, rfl, rfl, failed, hprime, rfl,
    eightPerCycle_rows _ _, fun e he => ?_⟩
  obtain ⟨after, before, few⟩ := mem_eightPerCycle he
  rw [List.length_drop] at before
  omega

/-- An operation over regions that pass the checks, which reads `tail` behind its source. -/
theorem State.starts_newOp (row : exec c s = s.act (fun d => d.issueSlotOf t .t f)) {kind : TuKind} {latency src dst aux logN n entry q psi : Nat}
    {mctx : BitVec 2} {rows tail : List Nat} {extra : Option (Nat × Nat)}
    (passes : let op := newOp (s.sees t g) (s.settled t g) kind latency src dst aux logN rows mctx entry q psi
      tuChecks (s.sees t g) (s.settled t g) op extra = .ok () → f (s.sees t g) (s.settled t g) = .ok ((s.settled t g).startTu op))
    (hrows : rows = rowsFrom src n ++ tail)
    (size : (newOp (s.sees t g) (s.settled t g) kind latency src dst aux logN rows mctx entry q psi).regionRows = n) (eight : 8 ≤ n)
    (regions : regionsOk s t g src dst n extra) {prime : Option (Nat × Nat)} (hprime : ∀ p, prime = some p → (q, psi) = p) :
    s.starts t g c kind src dst aux logN latency rows prime := by
  have free : noneStarved (s.settled t g) (rows.take 8) := by
    obtain ⟨-, -, -, -, -, starved, -⟩ := regions
    rw [hrows, take_rowsFrom _ eight]
    exact starved
  have length : 8 ≤ rows.length := by
    rw [hrows, List.length_append, rowsFrom, List.length_map, List.length_range]
    omega
  exact State.starts_of_op ready row (passes (State.tuChecks_pass ready (size ▸ regions))) rfl length free hprime

end Starts

/- The instructions of the T slot past the checks of their words (R75, R85, R297, R298). -/

section Issue

variable {ctx : IssueCtx} {x : Tile} {w : BitVec 26} (detector : ctx.hazard = false)
include detector

theorem issueTxp_passes (reserved : w &&& 0x3FFFF = 0) :
    let op := newOp ctx x .txp 48 (tSrc x w) (tDst x w) 0 14 (rowsFrom (tSrc x w) 128) 0 0 1 1
    tuChecks ctx x op none = .ok () → issueTxp ctx w x = .ok (x.startTu op) := by
  intro op checks
  simp only [issueTxp, reservedZero_pass reserved, hazardFree_off ctx x _ detector, IssueStop.ok_bind]
  exact IssueStop.bind_ok_iff.2 ⟨(), checks, rfl⟩

variable {m : ModTable} {e : ModEntry} (context : x.ctx (tMctx w) = some m) (populated : m.entry? (tEntry x w) = some e)
include context populated

theorem issueTransform_passes (inverse : Bool) {table : Bool} (form : w.getLsbD 11 = table) (reserved : w &&& (if table then 0x7F else 0x7FF) = 0) :
    let op := newOp ctx x (.transform inverse table) (transformLatency m.logN.toNat table) (tSrc x w) (tDst x w)
      (if table then (x.areg (f4 w 7)).toNat else 0) m.logN.toNat
      (rowsFrom (tSrc x w) (sectorsOf m.logN.toNat) ++ if table then rowsFrom (x.areg (f4 w 7)).toNat (tableRows m.logN.toNat) else [])
      (tMctx w) (tEntry x w) e.q e.psi
    tuChecks ctx x op (if table then some ((x.areg (f4 w 7)).toNat, tableRows m.logN.toNat) else none) = .ok () →
      issueTransform inverse ctx w x = .ok (x.startTu op) := by
  intro op checks
  subst form
  simp only [issueTransform, reservedZero_pass reserved, hazardFree_off ctx x _ detector, IssueStop.ok_bind, context, ctxEntry?, Option.bind_some, populated]
  exact IssueStop.bind_ok_iff.2 ⟨(), checks, rfl⟩

theorem issueAuto_passes {r : Nat} (galois : field (x.sreg (f4 w 8)).toNat 0 18 = r) (odd : r % 2 = 1) (below : r < 2 ^ (m.logN.toNat + 1))
    (reserved : w &&& 0x7F = 0) :
    let op := newOp ctx x (.auto r (w.getLsbD 7)) (2 ^ m.logN.toNat / 512 + 24) (tSrc x w) (tDst x w) 0 m.logN.toNat
      (rowsFrom (tSrc x w) (sectorsOf m.logN.toNat)) (tMctx w) (tEntry x w) e.q e.psi
    tuChecks ctx x op none = .ok () → issueAuto ctx w x = .ok (x.startTu op) := by
  intro op checks
  subst galois
  simp only [issueAuto, reservedZero_pass reserved, hazardFree_off ctx x _ detector, IssueStop.ok_bind, context, ctxEntry?, Option.bind_some, populated,
    odd, below, decide_true, beq_self_eq_true, Bool.and_self, need_true]
  exact IssueStop.bind_ok_iff.2 ⟨(), checks, rfl⟩

theorem issuePerm_passes (reserved : w &&& 0xFF = 0) :
    let op := newOp ctx x .perm (3 * 2 ^ m.logN.toNat / 1024 + 24) (tSrc x w) (tDst x w) (x.areg (f4 w 8)).toNat m.logN.toNat
      (rowsFrom (tSrc x w) (sectorsOf m.logN.toNat) ++ rowsFrom (x.areg (f4 w 8)).toNat (sectorsOf m.logN.toNat)) (tMctx w) (tEntry x w) e.q e.psi
    tuChecks ctx x op (some ((x.areg (f4 w 8)).toNat, sectorsOf m.logN.toNat)) = .ok () → issuePerm ctx w x = .ok (x.startTu op) := by
  intro op checks
  simp only [issuePerm, reservedZero_pass reserved, hazardFree_off ctx x _ detector, IssueStop.ok_bind, context, ctxEntry?, Option.bind_some, populated]
  exact IssueStop.bind_ok_iff.2 ⟨(), checks, rfl⟩

end Issue

/-- A transform in either direction, under either kind of twiddles. -/
theorem State.starts_transform {s : State} {t : TileId} {g : GroupId} {c : Instr} {w : BitVec 26} (ready : s.ready t g) (inverse : Bool)
    (row : exec c s = s.act (fun d => d.issueSlotOf t .t (fun ctx x => issueTransform inverse ctx w x))) {m : ModTable} {e : ModEntry}
    (context : (s.settled t g).ctx (tMctx w) = some m) (populated : m.entry? (tEntry (s.settled t g) w) = some e) {table : Bool}
    (form : w.getLsbD 11 = table) (reserved : w &&& (if table then 0x7F else 0x7FF) = 0) (eight : 8 ≤ sectorsOf m.logN.toNat)
    (regions : regionsOk s t g (tSrc (s.settled t g) w) (tDst (s.settled t g) w) (sectorsOf m.logN.toNat)
      (if table then some (((s.settled t g).areg (f4 w 7)).toNat, tableRows m.logN.toNat) else none)) :
    s.starts t g c (.transform inverse table) (tSrc (s.settled t g) w) (tDst (s.settled t g) w) (if table then ((s.settled t g).areg (f4 w 7)).toNat else 0)
      m.logN.toNat (transformLatency m.logN.toNat table) (rowsFrom (tSrc (s.settled t g) w) (sectorsOf m.logN.toNat) ++
        if table then rowsFrom ((s.settled t g).areg (f4 w 7)).toNat (tableRows m.logN.toNat) else []) (some (e.q, e.psi)) :=
  State.starts_newOp ready row (issueTransform_passes (State.ready_hazard ready) context populated inverse form reserved) rfl rfl eight regions
    (fun _ h => Option.some.inj h)

/-- Settles O19: each instruction passes its checks, and what it puts into the unit asks for its rows eight a cycle. -/
theorem transformUnitStarts : Obligations.TransformUnitStarts := by
  intro s t g w ready x src dst entry table
  have detector := State.ready_hazard ready
  refine ⟨fun reserved regions => ?_, fun m e context populated => ?_⟩
  · exact State.starts_newOp ready rfl (issueTxp_passes detector reserved) (List.append_nil _).symm rfl (by decide) regions (fun _ h => nomatch h)
  · intro logN n stages aux index r _ eight
    have entry? : m.entry? (tEntry x w) = some e := by
      rw [tEntry, field_low]
      exact populated
    refine ⟨fun form reserved regions => ?_, fun form reserved regions => ?_, fun reserved odd below regions => ?_, fun reserved regions => ?_⟩
    · have starts := fun inverse c row => State.starts_transform (c := c) ready inverse row context entry? form reserved eight regions
      simp only [Bool.false_eq_true, if_false, List.append_nil] at starts
      exact ⟨starts false _ rfl, starts true _ rfl⟩
    · have starts := fun inverse c row => State.starts_transform (c := c) ready inverse row context entry? form reserved eight regions
      exact ⟨starts false _ rfl, starts true _ rfl⟩
    · exact State.starts_newOp ready rfl (issueAuto_passes detector context entry? (field_low _ _) odd below reserved) (List.append_nil _).symm rfl eight
        regions (fun _ h => Option.some.inj h)
    · exact State.starts_newOp ready rfl (issuePerm_passes detector context entry? reserved) rfl rfl eight regions (fun _ h => Option.some.inj h)

end Sys2Proof.Machine

/- Inverses mod q, and the inverse transform (R25, R77). -/

namespace Sys2Proof.Machine

theorem coprime_two_pow {q : Nat} (odd : q % 2 = 1) (n : Nat) : q.Coprime (2 ^ n) := (Nat.coprime_two_right.2 (Nat.odd_iff.2 odd)).pow_right n

theorem coprime_mod_right {q x : Nat} : q.Coprime (x % q) ↔ q.Coprime x := by
  rw [Nat.Coprime, Nat.gcd_comm, ← Nat.gcd_rec, Nat.Coprime]

/- Inverses by Euclid's algorithm (R25). -/

/-- The last of Euclid's steps: the remainder is 1, whose factor is the inverse of x. -/
theorem invAux_ends {q x : Nat} (hq : 0 < q) (f : Nat) {a : Nat} {t0 t1 : Int} (coprime : a.Coprime 0) (h0 : t0 * x ≡ a [ZMOD q]) :
    ∃ y, invAux q (f + 1) a (0 : Nat) t0 t1 = some y ∧ y * x ≡ 1 [MOD q] := by
  obtain rfl : a = 1 := by simpa using coprime
  refine ⟨(t0 % q).toNat, by simp [invAux], ?_⟩
  rw [← Int.natCast_modEq_iff, Nat.cast_mul, natCast_toNat_emod _ hq]
  exact ((Int.mod_modEq t0 q).mul_right _).trans h0

/-- Euclid's steps end with the inverse of x: the product of two remainders halves at every step. -/
theorem invAux_finds {q x : Nat} (hq : 0 < q) (f : Nat) {a b : Nat} {t0 t1 : Int} (less : b < a) (fuel : a * b < 2 ^ f) (coprime : a.Coprime b)
    (h0 : t0 * x ≡ a [ZMOD q]) (h1 : t1 * x ≡ b [ZMOD q]) : ∃ y, invAux q (f + 1) a b t0 t1 = some y ∧ y * x ≡ 1 [MOD q] := by
  induction f generalizing a b t0 t1 with
  | zero =>
    obtain rfl : b = 0 := (Nat.mul_eq_zero.1 (Nat.lt_one_iff.1 fuel)).resolve_left (by omega)
    exact invAux_ends hq _ coprime h0
  | succ f ih =>
    rcases Nat.eq_zero_or_pos b with rfl | pos
    · exact invAux_ends hq _ coprime h0
    · have step : invAux q (f + 1 + 1) a b t0 t1 = invAux q (f + 1) b (a % b : Nat) t1 (t0 - a / b * t1) := by
        rw [invAux, if_neg (by omega), Int.natCast_mod]
      have half : 2 * (a % b) < a := by
        have := Nat.mod_lt a pos
        have := Nat.div_pos (Nat.le_of_lt less) pos
        have := Nat.div_add_mod a b
        nlinarith
      have rest : ((a % b : Nat) : Int) = a - a / b * b := by
        rw [Int.natCast_mod, Int.emod_def, mul_comm]
      rw [step]
      refine ih (Nat.mod_lt _ pos) ?_ ?_ h1 ?_
      · rw [Nat.pow_succ] at fuel
        nlinarith
      · exact coprime_mod_right.2 coprime.symm
      · rw [rest, sub_mul, mul_assoc]
        exact h0.sub (h1.mul_left _)

theorem invMod_finds {q x : Nat} (hq : 0 < q) (coprime : q.Coprime x) : ∃ y, invMod q x = some y ∧ y * x ≡ 1 [MOD q] := by
  have less := Nat.mod_lt x hq
  have fuel : q * (x % q) < 2 ^ (2 * q.log2 + 3) := by
    have hi : q < 2 ^ (q.log2 + 1) := Nat.lt_log2_self
    calc q * (x % q) < 2 ^ (q.log2 + 1) * 2 ^ (q.log2 + 1) := Nat.mul_lt_mul'' hi (less.trans hi)
      _ = 2 ^ (2 * q.log2 + 2) := by rw [← Nat.pow_add]; congr 1; omega
      _ < 2 ^ (2 * q.log2 + 3) := Nat.pow_lt_pow_right (by omega) (by omega)
  refine invAux_finds (b := x % q) hq _ less fuel (coprime_mod_right.2 coprime) ?_ ?_
  · rw [zero_mul]
    exact (Int.modEq_zero_iff_dvd.2 (dvd_refl _)).symm
  · rw [one_mul, Int.natCast_mod]
    exact (Int.mod_modEq _ _).symm

theorem nInv_mul {q N : Nat} (hq : 0 < q) (coprime : q.Coprime N) : nInv q N * N ≡ 1 [MOD q] := by
  obtain ⟨y, found, inverse⟩ := invMod_finds hq coprime
  rwa [nInv, found]

/- Transforms over the field of q elements (R77). -/

section Field

variable {q : Nat}

theorem sumMod_cast (n : Nat) (f : Nat → Nat) : (sumMod q n f : ZMod q) = ∑ i ∈ Finset.range n, (f i : ZMod q) := by
  rw [sumMod_eq, ZMod.natCast_mod, Nat.cast_list_sum, List.map_map]
  rfl

theorem powMod_cast (b e : Nat) : (powMod q b e : ZMod q) = (b : ZMod q) ^ e := by
  rw [powMod_eq, ZMod.natCast_mod, Nat.cast_pow]

variable [Fact q.Prime]

/-- An odd prime's residue whose power 2^n is −1 is a primitive root of unity of order 2^(n + 1). -/
theorem isPrimitiveRoot_of_pow_eq_neg_one (odd : q % 2 = 1) {psi : ZMod q} {n : Nat} (h : psi ^ 2 ^ n = -1) : IsPrimitiveRoot psi (2 ^ (n + 1)) := by
  have : Fact (2 < q) := ⟨by have := (Fact.out : q.Prime).two_le; omega⟩
  have order : orderOf psi = 2 ^ (n + 1) := orderOf_eq_prime_pow (by rw [h]; exact ZMod.neg_one_ne_one)
    (by rw [Nat.pow_succ, pow_mul, h, neg_one_sq])
  exact order ▸ IsPrimitiveRoot.orderOf psi

/-- The odd powers of a quotient of two powers of ψ sum to N where the two are one, and to 0 else. -/
theorem sum_odd_powers {psi : ZMod q} {N i j : Nat} (root : IsPrimitiveRoot psi (2 * N)) (hi : i < N) (hj : j < N) :
    ∑ k ∈ Finset.range N, psi ^ ((2 * k + 1) * i) * (psi⁻¹) ^ ((2 * k + 1) * j) = if i = j then (N : ZMod q) else 0 := by
  have unit : psi ≠ 0 := root.ne_zero (by omega)
  generalize hz : psi ^ i * psi⁻¹ ^ j = z
  have term : ∀ k, psi ^ ((2 * k + 1) * i) * (psi⁻¹) ^ ((2 * k + 1) * j) = z * (z ^ 2) ^ k := fun k => by
    rw [← pow_mul, ← pow_succ', ← hz, mul_pow, ← pow_mul, ← pow_mul, Nat.mul_comm i, Nat.mul_comm j]
  simp only [term, ← Finset.mul_sum]
  split
  next same =>
    subst same
    rw [← mul_pow, mul_inv_cancel₀ unit, one_pow] at hz
    simp [← hz]
  next differ =>
    have period : (z ^ 2) ^ N = 1 := by
      rw [← pow_mul, ← hz, mul_pow, ← pow_mul, ← pow_mul, Nat.mul_comm i, Nat.mul_comm j, pow_mul psi, pow_mul psi⁻¹, inv_pow, root.pow_eq_one,
        inv_one, one_pow, one_pow, mul_one]
    have other : z ^ 2 - 1 ≠ 0 := fun h => differ <| by
      have squares : psi ^ (2 * i) = psi ^ (2 * j) := by
        have cancel : z * psi ^ j = psi ^ i := by
          rw [← hz, mul_assoc, ← mul_pow, inv_mul_cancel₀ unit, one_pow, mul_one]
        rw [Nat.mul_comm 2 i, Nat.mul_comm 2 j, pow_mul, pow_mul, ← cancel, mul_pow, sub_eq_zero.1 h, one_mul]
      have := root.pow_inj (by omega) (by omega) squares
      omega
    have zero : (z ^ 2 - 1) * ∑ k ∈ Finset.range N, (z ^ 2) ^ k = 0 := by
      rw [mul_geom_sum, period, sub_self]
    rw [(mul_eq_zero.1 zero).resolve_left other, mul_zero]

end Field

/-- Settles O21: sums exchanged, the odd powers leave N times the one element, and N has its inverse. -/
theorem inverseUndoesForward : Obligations.InverseUndoesForward := by
  intro q psi logN a prime odd _ root i hi
  have field : Fact q.Prime := ⟨prime⟩
  generalize hN : 2 ^ logN = N at *
  have minus : (psi : ZMod q) ^ N = -1 := by
    rw [← Nat.cast_pow, ← ZMod.natCast_mod, root, Nat.cast_sub prime.one_le]
    simp
  have primitive : IsPrimitiveRoot (psi : ZMod q) (2 * N) := by
    have := isPrimitiveRoot_of_pow_eq_neg_one odd (n := logN) (by rw [hN]; exact minus)
    rwa [Nat.pow_succ, hN, Nat.mul_comm] at this
  have inverse : (psi : ZMod q) ^ (2 * N - 1) = (psi : ZMod q)⁻¹ := by
    refine eq_inv_of_mul_eq_one_left ?_
    rw [← pow_succ, Nat.sub_add_cancel (by omega), primitive.pow_eq_one]
  have scale : (nInv q N : ZMod q) * N = 1 := by
    have coprime : q.Coprime N := hN ▸ coprime_two_pow odd logN
    exact_mod_cast (ZMod.natCast_eq_natCast_iff _ _ _).2 (nInv_mul prime.pos coprime)
  have values : (inttAt q psi N (nttAt q psi N a) i : ZMod q) = a i := by
    simp only [inttAt, nttAt, ZMod.natCast_mod, Nat.cast_mul, sumMod_cast, powMod_cast, inverse, Finset.sum_mul]
    rw [Finset.sum_comm]
    simp only [mul_assoc, ← Finset.mul_sum]
    calc (nInv q N : ZMod q) * ∑ j ∈ Finset.range N, (a j : ZMod q) *
          ∑ k ∈ Finset.range N, (psi : ZMod q) ^ ((2 * k + 1) * j) * (psi : ZMod q)⁻¹ ^ ((2 * k + 1) * i)
        = nInv q N * ∑ j ∈ Finset.range N, (a j : ZMod q) * if j = i then (N : ZMod q) else 0 := by
          refine congrArg _ (Finset.sum_congr rfl fun j hj => ?_)
          rw [sum_odd_powers primitive (Finset.mem_range.1 hj) hi]
      _ = a i := by
          simp only [mul_ite, mul_zero, Finset.sum_ite_eq', Finset.mem_range, hi, if_true]
          linear_combination (a i : ZMod q) * scale
  have canonical : inttAt q psi N (nttAt q psi N a) i < q := Nat.mod_lt _ prime.pos
  rw [← Nat.mod_eq_of_lt canonical]
  exact (ZMod.natCast_eq_natCast_iff _ _ _).1 values

end Sys2Proof.Machine

/- A fault told in mid-transform (R81, R82). -/

namespace Sys2Proof.Machine

/- What a fault in the data path adds (R82). -/

section Told

variable {op : TuOp} {pos : Nat} {delta : Residue}

/-- An output element whose row has left is no longer changed. -/
theorem TuOp.upsetBy_left (left : op.written.testBit (pos / 128) = true) : op.upsetBy (some { outputs := [(pos, delta)] }) = op := by
  refine if_pos ?_
  simp [TuOp.standing, left]

theorem TuOp.upsetBy_output (left : op.written.testBit (pos / 128) = false) (upset : op.upset = none) :
    op.upsetBy (some { outputs := [(pos, delta)] }) = { op with upset := some { outputs := [(pos, delta)] } } := by
  have stands : op.standing { outputs := [(pos, delta)] } = { outputs := [(pos, delta)] } := by simp [TuOp.standing, left]
  have told : ({ outputs := [(pos, delta)] } : Upset) ≠ {} := fun h => List.cons_ne_nil _ _ (congrArg Upset.outputs h)
  have zero : res (0 % op.q) = 0 := by simp [res]
  simp only [TuOp.upsetBy, Option.getD_some, stands, if_neg told, upset, Option.getD_none, upsetBoth, List.nil_append]
  exact congrArg (fun z => { op with upset := some { outputs := [(pos, delta)], a0 := z, ah := z } }) zero

/-- A fault of the checker's own elements stands until the close. -/
theorem TuOp.upsetBy_checker {a b : Residue} (nonzero : a ≠ 0 ∨ b ≠ 0) (upset : op.upset = none) :
    (op.upsetBy (some { a0 := a, ah := b })).upset = some { a0 := res (a.toNat % op.q), ah := res (b.toNat % op.q) } := by
  have stands : op.standing { a0 := a, ah := b } = { a0 := a, ah := b } := by simp [TuOp.standing]
  have told : ({ a0 := a, ah := b } : Upset) ≠ {} := fun h => by
    injection h with _ _ _ ha hb
    exact nonzero.elim (· ha) (· hb)
  simp only [TuOp.upsetBy, Option.getD_some, stands, if_neg told, upset, Option.getD_none, upsetBoth, List.nil_append]
  simp

end Told

/- Outputs of a forward transform with one element changed. -/

theorem passTwo_lt {op : TuOp} (pos : 0 < op.q) (inverse table : Bool) (x : Nat → Nat) (k : Nat) : passTwo op inverse table x k < op.q := by
  simp only [passTwo, sumMod_eq]
  split_ifs <;> exact Nat.mod_lt _ pos

/-- Element p of a forward transform before a fault at the output. -/
def forwardAt (op : TuOp) (table : Bool) (p : Nat) : Nat :=
  if table then stagedAt op false true {} p else nttAt op.q op.psi (2 ^ op.logN) (transformIn op) p

theorem forwardAt_lt {op : TuOp} (pos : 0 < op.q) (table : Bool) (p : Nat) : forwardAt op table p < op.q := by
  cases table with
  | true => exact passTwo_lt pos _ _ _ _
  | false => exact (sumMod_eq op.q _ _).trans_lt (Nat.mod_lt _ pos)

theorem transformAt_forward (op : TuOp) (table : Bool) (u : Upset) (store : u.store = []) (tile : u.tile = []) (p : Nat) :
    transformAt op false table (some u) p = res (upsetAdd op.q u.outputs p (forwardAt op table p)) := by
  obtain ⟨outputs, _, _, a0, ah⟩ := u
  subst store tile
  cases table <;> rfl

section Outputs

variable {op : TuOp} {table : Bool} {pos : Nat} {delta : Residue} (positive : 0 < op.q) (small : op.q < 2 ^ 36)
include positive small

theorem transformAt_forward_toNat (p : Nat) : (transformAt op false table none p).toNat = forwardAt op table p := by
  have value : transformAt op false table none p = res (forwardAt op table p) := by cases table <;> rfl
  rw [value, res_toNat ((forwardAt_lt positive table p).trans small)]

theorem transformAt_output (p : Nat) : (transformAt op false table (some { outputs := [(pos, delta)] }) p).toNat =
    if p = pos then (forwardAt op table p + delta.toNat) % op.q else forwardAt op table p := by
  rw [transformAt_forward op table _ rfl rfl]
  rcases eq_or_ne p pos with rfl | other
  · simp only [upsetAdd, List.foldl, if_true]
    exact res_toNat ((Nat.mod_lt _ positive).trans small)
  · simp only [upsetAdd, List.foldl, other, other.symm, if_false]
    exact res_toNat ((forwardAt_lt positive table p).trans small)

/-- The row that leaves with one element changed. -/
theorem tuRow_output (kind : op.kind = .transform false table) (p : Nat) :
    (lane128 (tuRow op (some { outputs := [(pos, delta)] }) (p / 128)).2.data (p % 128)).toNat =
      if p = pos then ((op.element p).toNat + delta.toNat) % op.q else (op.element p).toNat := by
  have row : lane128 (tuRow op (some { outputs := [(pos, delta)] }) (p / 128)).2.data (p % 128) =
      transformAt op false table (some { outputs := [(pos, delta)] }) (128 * (p / 128) + p % 128) := by
    refine (lane128_sectorOf _ (Nat.mod_lt _ (by decide))).trans ?_
    rw [tuOut, kind]
  rw [row, Nat.div_add_mod, TuOp.element_transform kind, transformAt_output positive small, transformAt_forward_toNat positive small]

/-- One changed term moves the sum by the change. -/
theorem invariantSides_sum_output (inside : pos < 2 ^ op.logN) :
    (invariantSides op false table (some { outputs := [(pos, delta)] })).sum = ((invariantSides op false table none).sum + delta.toNat) % op.q := by
  have before : (invariantSides op false table none).sum = (∑ p ∈ Finset.range (2 ^ op.logN), forwardAt op table p) % op.q := by
    show sumMod _ _ _ = _
    rw [sumMod_eq]
    simp only [transformAt_forward_toNat positive small]
    rfl
  have after : (invariantSides op false table (some { outputs := [(pos, delta)] })).sum =
      (∑ p ∈ Finset.range (2 ^ op.logN), (forwardAt op table p + if p = pos then delta.toNat else 0)) % op.q := by
    show sumMod _ _ _ = _
    rw [sumMod_eq]
    refine sum_map_mod (fun p => ?_) _
    show (transformAt op false table (some { outputs := [(pos, delta)] }) p).toNat % op.q = _
    rw [transformAt_output positive small]
    split <;> simp
  rw [after, before, Finset.sum_add_distrib, Finset.sum_ite_eq', if_pos (Finset.mem_range.2 inside), Nat.mod_add_mod]

end Outputs

/-- Faults of the checker's own elements move the coefficient side, and the outputs stay. -/
theorem invariantSides_checker (op : TuOp) (table : Bool) (a b : Residue) :
    invariantSides op false table (some { a0 := a, ah := b }) =
      { invariantSides op false table none with a0 := ((invariantSides op false table none).a0 + a.toNat) % op.q
                                                ah := ((invariantSides op false table none).ah + b.toNat) % op.q } := by
  have outputs : ∀ p, transformAt op false table (some { a0 := a, ah := b }) p = transformAt op false table none p := fun p => by
    cases table <;> rfl
  simp [invariantSides, outputs]

/- Identities that held before the change (R81). -/

/-- Of two congruent values one is moved by a unit times a change that is no multiple of q. -/
theorem ne_of_shifted_factor {q c v a d : Nat} (coprime : q.Coprime c) (change : d % q ≠ 0) (held : v = c * a % q) : v ≠ c * ((a + d) % q) % q := by
  intro h
  have shift : c * a + 0 ≡ c * a + c * d [MOD q] := by
    rw [Nat.ModEq, Nat.add_zero, ← Nat.mul_add, ← held, h, Nat.mul_mod_mod]
  have multiple : q ∣ c * d := (Nat.modEq_zero_iff_dvd.1 (Nat.ModEq.add_left_cancel' _ shift).symm)
  exact change (Nat.mod_eq_zero_of_dvd (coprime.dvd_of_dvd_mul_left multiple))

/-- The factor of I2 is a unit: a power of the root is −1. -/
theorem coprime_root {q psi n : Nat} (pos : 0 < q) (odd : q % 2 = 1) (root : psi ^ 2 ^ n % q = q - 1) :
    q.Coprime (2 ^ n * powMod q psi (2 ^ n / 2) % q) := by
  have minus : q.Coprime (psi ^ 2 ^ n) := by
    rw [← coprime_mod_right, root, Nat.coprime_self_sub_right pos]
    exact Nat.coprime_one_right q
  have unit : q.Coprime psi := minus.coprime_dvd_right (dvd_pow_self psi (by positivity))
  rw [powMod_eq, Nat.mul_mod_mod, coprime_mod_right]
  exact (coprime_two_pow odd n).mul_right (unit.pow_right _)

section Checks

variable {op : TuOp} {table : Bool}

theorem check1Ok_forward (s : InvariantSides) : check1Ok op false s = true ↔ s.sum = 2 ^ op.logN * s.a0 % op.q := by
  simp [check1Ok]

theorem check2Ok_forward (s : InvariantSides) : check2Ok op false s = true ↔
    s.alt = 2 ^ op.logN * powMod op.q op.psi (2 ^ op.logN / 2) % op.q * s.ah % op.q := by
  simp [check2Ok]

theorem check1_output {pos : Nat} {delta : Residue} (positive : 0 < op.q) (small : op.q < 2 ^ 36) (inside : pos < 2 ^ op.logN)
    (change : delta.toNat % op.q ≠ 0) (held : check1Ok op false (invariantSides op false table none) = true) :
    check1Ok op false (invariantSides op false table (some { outputs := [(pos, delta)] })) = false := by
  rw [check1Ok_forward] at held
  rw [Bool.eq_false_iff, ne_eq, check1Ok_forward, invariantSides_sum_output positive small inside, held]
  intro h
  have shift : 2 ^ op.logN * (invariantSides op false table none).a0 + delta.toNat ≡ 2 ^ op.logN * (invariantSides op false table none).a0 + 0 [MOD op.q] :=
    (Nat.mod_add_mod _ _ _).symm.trans h
  exact change (Nat.ModEq.add_left_cancel' _ shift)

theorem check1_checker {a b : Residue} (odd : op.q % 2 = 1) (change : a.toNat % op.q ≠ 0)
    (held : check1Ok op false (invariantSides op false table none) = true) :
    check1Ok op false (invariantSides op false table (some { a0 := a, ah := b })) = false := by
  rw [check1Ok_forward] at held
  rw [Bool.eq_false_iff, ne_eq, check1Ok_forward, invariantSides_checker]
  exact ne_of_shifted_factor (coprime_two_pow odd _) change held

theorem check2_checker {a b : Residue} (odd : op.q % 2 = 1) (root : op.psi ^ 2 ^ op.logN % op.q = op.q - 1) (change : b.toNat % op.q ≠ 0)
    (held : check2Ok op false (invariantSides op false table none) = true) :
    check2Ok op false (invariantSides op false table (some { a0 := a, ah := b })) = false := by
  rw [check2Ok_forward] at held
  rw [Bool.eq_false_iff, ne_eq, check2Ok_forward, invariantSides_checker]
  exact ne_of_shifted_factor (coprime_root (by omega) odd root) change held

end Checks

/- The close. -/

theorem Tile.transformDue_op {x : Tile} {pipe : Nat} {op : TuOp} {inverse table : Bool} (h : x.transformDue pipe = some (op, inverse, table)) :
    x.tu.op = some op := by
  unfold Tile.transformDue at h
  split at h
  next o op? =>
    split at h
    · split at h
      · rw [op?, (Prod.mk.inj (Option.some.inj h)).1]
      · nomatch h
    · nomatch h
  next => nomatch h

/-- The close of a transform of which an identity fails. -/
theorem Tile.closeTransform_fails {x : Tile} (going : x.halted = false) (ctx : IssueCtx) (op : TuOp) (inverse table : Bool) (told : Option Upset)
    {sides : InvariantSides} (seen : invariantSides op inverse table (op.upsetBy told).upset = sides)
    (fails : (check1Ok op inverse sides && check2Ok op inverse sides) = false) : let y := x.closeTransform ctx op inverse table told
    y.halted = true ∧ y.haltReason = .transformCheck ∧ y.haltAddr = op.bundle ∧ y.tu.check1 = (x.tu.check1 || !check1Ok op inverse sides) ∧
      y.tu.check2 = (x.tu.check2 || !check2Ok op inverse sides) ∧ y.tu.failEntry = BitVec.ofNat 7 op.entry ∧ y.h = x.h ∧ y.scratch = x.scratch := by
  simp only [Tile.closeTransform, seen, fails, Bool.false_eq_true, if_false]
  rw [Tile.halt_going]
  · exact ⟨rfl, rfl, rfl, rfl, rfl, rfl, rfl, rfl⟩
  · exact going

section Close

variable {s : State} {t : TileId} {g : GroupId} {op : TuOp} (busy : s.transforms t g op)
include busy

theorem State.close_acts (told : Option Upset) : exec (.transformInvariantClose t told) s = .next { s with dev := s.dev.onTile t (fun x =>
    if (x.transformDue (s.sees t g).pipe).isSome then x.closeDue (s.sees t g) told else x.tellUpset told) } := by
  obtain ⟨member, cycle, ecc, -⟩ := busy
  have act : s.dev.onOpen t (fun ctx x => if (x.transformDue ctx.pipe).isSome then x.closeDue ctx told else x.tellUpset told) =
      s.dev.onTile t (fun x => if (x.transformDue (s.sees t g).pipe).isSome then x.closeDue (s.sees t g) told else x.tellUpset told) := by
    simp only [Dev.onOpen, member, Dev.insertEcc_done s.dev g ecc, cycle, if_true]
    rfl
  exact congrArg (fun d => Host.Outcome.next { s with dev := d }) act

/-- Before its close a transform takes up what it is told. -/
theorem State.close_tells (early : (s.sees t g).pipe < op.issued + op.latency - 1) (told : Option Upset) :
    exec (.transformInvariantClose t told) s =
      .next (s.put t { s.dev.tile t with tu := { (s.dev.tile t).tu with op := some (op.upsetBy told) } }) := by
  obtain ⟨-, -, -, going, -, op?, -, closed⟩ := id busy
  have due : (s.dev.tile t).transformDue (s.sees t g).pipe = none := by
    simp only [Tile.transformDue, op?]
    split
    · simp [Nat.not_le.2 early]
    · rfl
  have tells : (s.dev.tile t).tellUpset told = { s.dev.tile t with tu := { (s.dev.tile t).tu with op := some (op.upsetBy told) } } := by
    simp [Tile.tellUpset, op?, closed]
  rw [State.close_acts busy, Dev.onTile_going]
  · simp only [due, Option.isSome_none, Bool.false_eq_true, if_false, tells]
    rfl
  · simp only [due, Option.isSome_none, Bool.false_eq_true, if_false, tells]
    exact going

/-- What a transform is told counts by what it makes of the operation alone. -/
theorem State.close_congr {told told' : Option Upset} (same : op.upsetBy told = op.upsetBy told') :
    exec (.transformInvariantClose t told) s = exec (.transformInvariantClose t told') s := by
  obtain ⟨-, -, -, -, -, op?, -, closed⟩ := id busy
  have tells : (s.dev.tile t).tellUpset told = (s.dev.tile t).tellUpset told' := by
    simp [Tile.tellUpset, op?, closed, same]
  have closes : (s.dev.tile t).closeDue (s.sees t g) told = (s.dev.tile t).closeDue (s.sees t g) told' := by
    simp only [Tile.closeDue]
    split
    next o inverse table due =>
      obtain rfl : op = o := Option.some.inj (op?.symm.trans (Tile.transformDue_op due))
      simp only [Tile.closeTransform, same]
    next => rfl
  rw [State.close_acts busy, State.close_acts busy]
  refine congrArg (fun d => Host.Outcome.next { s with dev := d }) (Dev.onTile_congr _ _ ?_)
  simp only [tells, closes]

/-- R82: the halt of a close whose identities fail. -/
theorem State.close_fails {inverse table : Bool} (kind : op.kind = .transform inverse table) (due : op.issued + op.latency - 1 ≤ (s.sees t g).pipe)
    (told : Option Upset) {sides : InvariantSides} (seen : invariantSides op inverse table (op.upsetBy told).upset = sides)
    (fails : (check1Ok op inverse sides && check2Ok op inverse sides) = false) :
    ∃ s', exec (.transformInvariantClose t told) s = .next s' ∧ let y := s'.dev.tile t
      y.halted = true ∧ y.haltReason = .transformCheck ∧ y.haltAddr = op.bundle ∧ (check1Ok op inverse sides = false → y.tu.check1 = true) ∧
      (check2Ok op inverse sides = false → y.tu.check2 = true) ∧ y.tu.failEntry = BitVec.ofNat 7 op.entry ∧ y.h = (s.dev.tile t).h ∧
      y.scratch = (s.dev.tile t).scratch := by
  obtain ⟨-, -, -, going, -, op?, failed, closed⟩ := id busy
  obtain ⟨halted, reason, addr, one, two, entry, headers, scratch⟩ := Tile.closeTransform_fails going (s.sees t g) op inverse table told seen fails
  have ready : (s.dev.tile t).transformDue (s.sees t g).pipe = some (op, inverse, table) := Tile.transformDue_eq op? kind failed closed due
  have closes : (if ((s.dev.tile t).transformDue (s.sees t g).pipe).isSome then (s.dev.tile t).closeDue (s.sees t g) told
      else (s.dev.tile t).tellUpset told) = (s.dev.tile t).closeTransform (s.sees t g) op inverse table told := by
    simp only [Tile.closeDue, ready, Option.isSome_some, if_true]
  obtain ⟨n, tile⟩ := Dev.tile_onTile_halts s.dev t (fun _ => (s.dev.tile t).closeTransform (s.sees t g) op inverse table told) going halted
  rw [State.close_acts busy, Dev.onTile_congr _ _ (f' := fun _ => (s.dev.tile t).closeTransform (s.sees t g) op inverse table told) closes]
  refine ⟨_, rfl, ?_⟩
  simp only [tile]
  exact ⟨halted, reason, addr, fun h => by simp [one, h], fun h => by simp [two, h], entry, headers, scratch⟩

end Close

/-- Settles O22: an output element that is told changed moves Σ by the change, an element of the checker its side by a unit times it. -/
theorem transformUpsetCaught : Obligations.TransformUpsetCaught := by
  intro s t g op pos delta table busy kind _ positive small inside u x
  refine ⟨fun upset early => ?_, fun left => ?_, fun p _ => tuRow_output positive small kind p, fun due change => ?_⟩
  · intro met
    have told : op.upsetBy (some u) = met := by
      cases left : op.written.testBit (pos / 128) with
      | true => exact (TuOp.upsetBy_left left).trans (if_pos left).symm
      | false => exact (TuOp.upsetBy_output left upset).trans (if_neg (by rw [left]; exact Bool.false_ne_true)).symm
    exact told ▸ State.close_tells busy early (some u)
  · exact State.close_congr busy ((TuOp.upsetBy_left left).trans op.upsetBy_none.symm)
  · intro fails sides
    have value : (res (delta.toNat % op.q)).toNat % op.q = delta.toNat % op.q := by
      rw [res_toNat ((Nat.mod_lt _ positive).trans small), Nat.mod_mod]
    have nonzero : delta ≠ 0 := fun h => change (by rw [h]; exact Nat.zero_mod _)
    refine ⟨fun held upset => ?_, fun held upset odd => ?_, fun held upset odd root => ?_⟩
    · have seen : invariantSides op false table (op.upsetBy none).upset = invariantSides op false table (some u) := by rw [TuOp.upsetBy_none, upset]
      have broken := check1_output positive small inside change held
      obtain ⟨s', acts, halted, reason, addr, one, -, rest⟩ := State.close_fails busy kind due none seen (Bool.and_eq_false_iff.2 (.inl broken))
      exact ⟨s', acts, halted, reason, addr, one broken, rest⟩
    · have seen := congrArg (invariantSides op false table) (TuOp.upsetBy_checker (b := 0) (.inl nonzero) upset)
      have broken := check1_checker (table := table) (b := res (0 % op.q)) odd (value.trans_ne change) held
      obtain ⟨s', acts, halted, reason, addr, one, -, rest⟩ := State.close_fails busy kind due _ seen (Bool.and_eq_false_iff.2 (.inl broken))
      exact ⟨s', acts, halted, reason, addr, one broken, rest⟩
    · have seen := congrArg (invariantSides op false table) (TuOp.upsetBy_checker (a := 0) (.inr nonzero) upset)
      have broken := check2_checker (table := table) (a := res (0 % op.q)) odd root (value.trans_ne change) held
      obtain ⟨s', acts, halted, reason, addr, -, two, rest⟩ := State.close_fails busy kind due _ seen (Bool.and_eq_false_iff.2 (.inr broken))
      exact ⟨s', acts, halted, reason, addr, two broken, rest⟩

end Sys2Proof.Machine

/- A tile that has halted while its unit goes on (R118, R143, R237, R240, R269). -/

namespace Sys2Proof.Machine

/-- An automorphism of a limb of 32 rows, all of its source delivered, in the first of its four writing cycles. -/
def writingAuto : TuOp :=
  { kind := .auto 5 true, issued := 0, latency := 32, seq := 5, bundle := 20, src := 0, dst := 64, logN := 12, q := 786433, psi := 5 }

/-- A row of a vector load behind the automorphism. -/
def loadedRow : RowRead := { due := 28, seq := 9, bundle := 40, slot := .v, reader := .vector, row := 128, poisoned := false }

/-- A tile whose marker pends while the automorphism writes, the load's row comes, and a chain receive before both has overflowed (R118). -/
def drainingTile : Tile :=
  { tu := { op := some writingAuto }, reads := [loadedRow], pend := [{ kind := .marker, wall := 0, bundle := 41 }]
    dueHalts := [{ due := 28, seq := 3, reason := .accumOverflow, bundle := 10, slot := .m }] }

/-- Its group, in an open cycle. -/
def drainingGroup : Group := { members := [0], active := true, started := true, pipe := 28, counter := 28 }

/-- They are tile 0 and group 0 of a running device. -/
def draining : State :=
  { dev := { run := { state := .running }, tick := { wall := 40 }, tiles := (Vector.replicate 64 {}).set 0 drainingTile
             groups := (Vector.replicate 16 {}).set 0 drainingGroup } }

/-- The load's row is found uncorrectable: the tile has halted in this wall cycle. -/
def drainingHalted : State :=
  { dev := draining.dev.onTile 0 (fun x => x.deliver (draining.sees 0 0) loadedRow .uncorrectable) }

/-- The model's own step leads there. -/
theorem draining_rowDelivery : exec (.engineRowDelivery 0 .uncorrectable) draining = .next drainingHalted := by
  rfl

theorem drainingHalted_turning : drainingHalted.turning 0 0 := by decide +kernel

/-- The automorphism's rows leave in this cycle, as the clause on a cycle of the units asks. -/
theorem drainingHalted_writes : let x := drainingHalted.settled 0 0
    x.wf = true ∧ x.tu.op = some writingAuto ∧ x.flights = [] ∧ x.nma.op = none ∧ x.nma.tails = [] ∧ x.nma.dsm = none ∧ x.nma.closes = [] ∧
    x.tuWrites writingAuto (drainingHalted.sees 0 0).pipe = true ∧ (drainingHalted.sees 0 0).pipe ≤ writingAuto.lastWrite := by decide +kernel

/-- The overflow of the earlier instruction takes the place of the row's error in the log. -/
theorem drainingHalted_log : (drainingHalted.dev.scheduleCycle 0).log ≠ drainingHalted.dev.log := by decide +kernel

/-- Where the units only go on, the event log stays. -/
theorem State.unitsGo_log {s : State} {t : TileId} {g : GroupId} {y : Tile} (h : s.unitsGo t g y) : (s.dev.scheduleCycle g).log = s.dev.log := by
  have schedules : s.answers (.scheduleCycle g) (s.dev.scheduleCycle g) := rfl
  have goes : s.answers (.scheduleCycle g) ((s.dev.setTile t y).setGroup g { s.dev.group g with
    pipe := (s.dev.group g).pipe + 1, issuedAt := some s.dev.tick.wall }) := h
  rw [State.answers_unique schedules goes, Dev.setGroup_log, Dev.setTile_log]

/-- Refutes O23: the clause on a cycle of the units has it change the tile and its group alone, but where the tile has halted in this wall cycle and the
cycle meets a condition of an earlier instruction, the log entry of the halt gives way to that condition (R269). -/
theorem not_transformUnitLandings : ¬ Obligations.TransformUnitLandings := by
  intro h
  obtain ⟨-, cycle, -⟩ := h
  obtain ⟨wf, op, flights, nma, tails, dsm, closes, writes, last⟩ := drainingHalted_writes
  obtain ⟨y, w, goes, -⟩ := cycle drainingHalted 0 0 writingAuto drainingHalted_turning wf op flights nma tails dsm closes writes
    (fun c _ hc => by simp [writingAuto] at hc) last
  exact drainingHalted_log (State.unitsGo_log goes)

end Sys2Proof.Machine

namespace Sys2Proof.Machine

/-- A tile that no command has touched. -/
theorem State.reset_tile (t : TileId) : State.reset.dev.tile t = {} := by
  simp only [State.reset, Dev.tile, Vector.getElem_replicate]

/-- Settles O2: every clause reads a field of the state that reset leaves, and every tile is a fresh one. -/
theorem resetValues : Obligations.ResetValues :=
  ⟨rfl, rfl, rfl, rfl, rfl, rfl, rfl, rfl, rfl, rfl, fun t => by rw [State.reset_tile]; exact ⟨rfl, rfl⟩, rfl, rfl, fun t => by rw [State.reset_tile]⟩
end Sys2Proof.Machine

/- The Narrow Matrix Array's operations in the cycle in which they issue (R95, R131, R133). -/

namespace Sys2Proof.Machine

/-- An operation that the M slot puts into the array in this cycle. -/
def newNma (ctx : IssueCtx) (x : Tile) (kind : NmaKind) (occupancy latency : Nat) (todo : List (Nat × List Nat)) : NmaOp :=
  { kind := kind, issued := ctx.pipe, occupancy := occupancy, latency := latency, seq := x.seq, bundle := ctx.bundle, fetch := { todo := todo } }

theorem asksLater_eq (pipe : Nat) (reqs : List (Nat × List Nat)) : asksLater pipe reqs = reqs.filter (fun p => !decide (p.1 ≤ pipe)) :=
  List.filter_congr fun p _ => by simp only [← decide_not, Nat.not_le]

/-- Of requests that begin now, those of this cycle and those to come. -/
theorem split_asks (pipe : Nat) (reqs : List (Nat × List Nat)) (got : List (Nat × Row)) :
    Fetches.split { todo := reqs, got := got } pipe = (asksNow pipe reqs, asksLater pipe reqs) := by
  rw [asksLater_eq]
  rfl

theorem asks_eightPerCycle (pipe : Nat) (rows : List Nat) :
    asksNow pipe (eightPerCycle pipe rows) = rows.take 8 ∧ asksLater pipe (eightPerCycle pipe rows) = laterRows 8 pipe rows :=
  Prod.mk.inj ((split_asks pipe _ []).symm.trans (split_eightPerCycle pipe rows []))

theorem Tile.fetchTu_idle (x : Tile) (ctx : IssueCtx) (op : x.tu.op = none) : x.fetchTu ctx = x := by
  simp only [Tile.fetchTu, op]

theorem Tile.fetchDsm_idle (x : Tile) (ctx : IssueCtx) (dsm : x.nma.dsm = none) : x.fetchDsm ctx = x := by
  simp only [Tile.fetchDsm, dsm]

/-- What an operation sets as it issues of the array's mode, shape and reference exponents. -/
theorem Nma.begun_begin (m : Nma) (kind : NmaKind) : begun m (m.begin kind) kind := by
  have exponents : ∀ (int small : Bool) (xr : BitVec 16) (r : Fin 9), (if int then setXr m.xr small xr else m.xr)[r] =
      if int = true ∧ r.val < blockRows small then xr else m.xr[r] := by
    intro int small xr r
    cases int <;> simp [setXr]
  cases kind with
  | mma f int zero a b nb xr shadow pad =>
    cases zero
    · exact ⟨rfl, rfl⟩
    · exact ⟨rfl, rfl, rfl, exponents int f.small xr⟩
  | resume int small wide xr => exact ⟨rfl, rfl, rfl, exponents int small xr⟩
  | _ => exact ⟨rfl, rfl⟩

theorem Nma.begin_dsm (m : Nma) (kind : NmaKind) : (m.begin kind).dsm = m.dsm := by
  unfold Nma.begin
  split <;> rfl

/-- The requests of a unit once those of cycle `pipe` have been made: the rows asked for stand in the tile. -/
def Fetches.askedOf (f : Fetches) (x : Tile) (pipe : Nat) : Fetches :=
  { todo := asksLater pipe f.todo, got := f.got ++ (asksNow pipe f.todo).map (fun r => (r, x.rowAt r)) }

/-- The tile with an operation in its array that has made the requests of its issue cycle. -/
def Tile.occupied (x : Tile) (ctx : IssueCtx) (op : NmaOp) (sent : Sentinel) : Tile :=
  { x with
    nma := { x.nma.begin op.kind with op := some (op.withFetch (op.fetch.askedOf x ctx.pipe)) }
    seq := x.seq + 1, sent := sent
    reads := x.reads ++ (asksNow ctx.pipe op.fetch.todo).map (fun r =>
      { due := ctx.pipe + 6, seq := op.seq, bundle := op.bundle, slot := .m, reader := .matrix, row := r
        poisoned := (x.rowAt r).poison != 0, corrected := x.ceRows.contains r }) }

/-- The requests of an operation in the cycle in which it comes into the array. `sent` is what its first step leaves of the sentinel. -/
theorem Tile.fetchNma_startNma {x : Tile} {ctx : IssueCtx} {op : NmaOp} {sent : Sentinel} (idleDsm : x.nma.dsm = none) (going : op.failed = false)
    (free : noneStarved x (asksNow ctx.pipe op.fetch.todo)) (accepted : (x.startNma op).chainCheck ctx op = x.startNma op)
    (draws : ∀ y : Tile, y.sent = x.sent → y.drawSentinel op (op.fetch.askedOf x ctx.pipe) ctx.wall ctx.pipe = { y with sent := sent }) :
    (x.startNma op).fetchNma ctx = x.occupied ctx op sent := by
  have requests := Tile.fetchFor_passes (x := x.startNma op) (split_asks ctx.pipe op.fetch.todo op.fetch.got) free op.seq op.bundle .m .matrix
  have operation : (x.startNma op).fetchNmaOp ctx = x.occupied ctx op sent := by
    have occupant : (x.startNma op).nma.op = some op := rfl
    simp only [Tile.fetchNmaOp, occupant, going, Bool.false_eq_true, if_false]
    rw [accepted, requests]
    exact draws _ rfl
  rw [Tile.fetchNma, operation]
  exact Tile.fetchDsm_idle _ _ ((Nma.begin_dsm _ _).trans idleDsm)

/-- An operation that comes into the array of a ready tile. -/
theorem State.occupies_of_op {s : State} {t : TileId} {g : GroupId} {c : Instr} {f : IssueCtx → Tile → Issue} (ready : s.ready t g)
    (row : exec c s = s.act (fun d => d.issueSlotOf t .m f)) {kind : NmaKind} {occupancy latency : Nat} {todo : List (Nat × List Nat)}
    {draws : Sentinel → Sentinel → Prop} {sent : Sentinel} {op : NmaOp} (new : op = newNma (s.sees t g) (s.settled t g) kind occupancy latency todo)
    (passes : f (s.sees t g) (s.settled t g) = .ok ((s.settled t g).startNma op))
    (free : noneStarved (s.settled t g) (asksNow (s.sees t g).pipe todo))
    (accepted : ((s.settled t g).startNma op).chainCheck (s.sees t g) op = (s.settled t g).startNma op)
    (drawn : draws (s.settled t g).sent sent)
    (draw : ∀ y : Tile, y.sent = (s.settled t g).sent →
      y.drawSentinel op (op.fetch.askedOf (s.settled t g) (s.sees t g).pipe) (s.sees t g).wall (s.sees t g).pipe = { y with sent := sent }) :
    s.occupies t g c kind occupancy latency (asksNow (s.sees t g).pipe todo) (asksLater (s.sees t g).pipe todo) draws := by
  obtain ⟨-, -, -, -, -, -, -, idleTu, -, idleDsm⟩ := id ready
  subst new
  have fetches := Tile.fetchNma_startNma idleDsm rfl free accepted draw
  rw [← Tile.fetchTu_idle ((s.settled t g).startNma _) (s.sees t g) idleTu] at fetches
  exact ⟨_, _, _, State.issues_of_fetch ready row passes fetches rfl rfl rfl, Nma.begun_begin _ _, drawn, rfl⟩

/- The operations that move accumulators (R105, R106, R116, R118, R300, R304). -/

/-- An operation other than MMA draws no sample. -/
theorem Tile.drawSentinel_other (y : Tile) {op : NmaOp} (fetch : Fetches) (wall pipe : Nat)
    (other : ∀ f int zero a b nb xr shadow pad, op.kind ≠ .mma f int zero a b nb xr shadow pad) : y.drawSentinel op fetch wall pipe = y := by
  unfold Tile.drawSentinel
  split
  next kind => exact absurd kind (other _ _ _ _ _ _ _ _ _)
  next => rfl

/-- An operation that receives no packet meets no header. -/
theorem Tile.chainCheck_other (y : Tile) (ctx : IssueCtx) {op : NmaOp} (other : ∀ row chain i0 nbr, op.kind ≠ .receive row chain i0 nbr) :
    y.chainCheck ctx op = y := by
  unfold Tile.chainCheck
  split
  next kind => exact absurd kind (other _ _ _ _)
  next => rfl

/-- The checks that follow an operation's own, where no bank slot of the bundle is taken and no other unit owns a quarter. -/
theorem needSlots_pass {ctx : IssueCtx} {x : Tile} {mine : Owned} {writes : List Nat} (bus : x.busNow ctx.pipe = ([], [])) (rings : noneInRing x writes) :
    needSlots ctx x mine {} writes = .ok () := by
  have nothing : ∀ l : List Nat, l.any ([] : List Nat).contains = false := fun l => by simp
  simp only [needSlots, needNoRing, ownMeetsBus, bus, rings, nothing]
  rfl

section Moves

variable {s : State} {t : TileId} {g : GroupId} (ready : s.ready t g)
include ready

/-- In a tile whose units are free the array is not busy, and none of its quarters is owned. -/
theorem State.ready_unowned : (s.settled t g).nmaBusy (s.sees t g).pipe = false ∧ (s.settled t g).tuOwned (s.sees t g).pipe = {} := by
  obtain ⟨-, -, -, -, -, -, -, idleTu, idleNma, idleDsm⟩ := ready
  exact ⟨by simp [Tile.nmaBusy, idleNma, idleDsm], by simp [Tile.tuOwned, idleTu]⟩

theorem State.moveChecks_pass {reads writes : List Nat} (rows : rowsOk s t g (reads ++ writes)) (rings : noneInRing (s.settled t g) writes) :
    moveChecks (s.sees t g) (s.settled t g) reads writes = .ok () := by
  obtain ⟨idle, unowned⟩ := State.ready_unowned ready
  obtain ⟨powered, bus⟩ := rows
  simp only [moveChecks, needRows_pass powered, idle, unowned, needSlots_pass bus rings, Bool.not_false, need_true, IssueStop.ok_bind]

/-- An operation other than MMA that asks for its rows eight a cycle. -/
theorem State.occupies_eightPerCycle {c : Instr} {f : IssueCtx → Tile → Issue} (row : exec c s = s.act (fun d => d.issueSlotOf t .m f)) {kind : NmaKind}
    {cycles : Nat} {rows : List Nat} {op : NmaOp} (new : op = newNma (s.sees t g) (s.settled t g) kind cycles cycles (eightPerCycle (s.sees t g).pipe rows))
    (passes : f (s.sees t g) (s.settled t g) = .ok ((s.settled t g).startNma op)) (free : noneStarved (s.settled t g) (rows.take 8))
    (accepted : ((s.settled t g).startNma op).chainCheck (s.sees t g) op = (s.settled t g).startNma op)
    (other : ∀ f int zero a b nb xr shadow pad, kind ≠ .mma f int zero a b nb xr shadow pad) :
    s.occupies t g c kind cycles cycles (rows.take 8) (laterRows 8 (s.sees t g).pipe rows) noDraw := by
  obtain ⟨now, later⟩ := asks_eightPerCycle (s.sees t g).pipe rows
  rw [← now] at free
  rw [← now, ← later]
  exact State.occupies_of_op ready row new passes free accepted rfl fun y same =>
    (y.drawSentinel_other _ _ _ (by rw [new]; exact other)).trans (by rw [← same])

end Moves

section Issue

variable {ctx : IssueCtx} {x : Tile} {w : BitVec 26} (detector : ctx.hazard = false)
include detector

theorem issueMspill_passes {init : Bool} (form : w.getLsbD 25 = init) (reserved : w &&& 0x1FFFFF = 0) :
    let wide := (x.areg (f4 w 21)).toNat
    let n := wideRows x.nma.accSmall
    let reads := if init then [] else rowsFrom wide n
    moveChecks ctx x reads (rowsFrom wide n) = .ok () →
      issueMspill ctx w x = .ok (x.startNma (newNma ctx x (.spill init wide) (n / 8 + 16) (n / 8 + 16) (eightPerCycle ctx.pipe reads))) := by
  intro wide n reads checks
  subst form
  simp only [issueMspill, reservedZero_pass reserved, hazardFree_off ctx x _ detector, IssueStop.ok_bind]
  exact IssueStop.bind_ok_iff.2 ⟨(), checks, rfl⟩

theorem issueMresume_passes (reserved : w &&& 0xFFFF = 0) :
    let wide := (x.areg (f4 w 20)).toNat
    let n := wideRows (w.getLsbD 24)
    moveChecks ctx x (rowsFrom wide n) [] = .ok () →
      issueMresume ctx w x = .ok (x.startNma (newNma ctx x
        (.resume (w.getLsbD 25) (w.getLsbD 24) wide (BitVec.ofNat 16 (x.sreg (f4 w 16)).toNat)) (n / 8 + 16) (n / 8 + 16)
        (eightPerCycle ctx.pipe (rowsFrom wide n)))) := by
  intro wide n checks
  simp only [issueMresume, reservedZero_pass reserved, hazardFree_off ctx x _ detector, IssueStop.ok_bind]
  exact IssueStop.bind_ok_iff.2 ⟨(), checks, rfl⟩

variable {i0 nbr : Nat} {chain : Word} (fields : chainFields (x.sreg (f4 w 5)) = (chain, i0, nbr)) (range : chainRangeOk x.nma.accSmall i0 nbr = true)
include fields range

theorem issueMchs_passes (reserved : w &&& 0x1F = 0) (header : w.getLsbD 25 = true ∨ x.nma.lastHeader ≠ none) (idle : x.nmaBusy ctx.pipe = false) :
    issueMchs ctx w x = .ok (x.startNma (newNma ctx x
      (.send (w.getLsbD 25) (x.areg (f4 w 21)).toNat (w.extractLsb' 15 6) (w.extractLsb' 9 6) chain i0 nbr) (8 * nbr + 12) (8 * nbr + 12) [])) := by
  have held : (w.getLsbD 25 || x.nma.lastHeader.isSome) = true := by
    rw [Bool.or_eq_true, Option.isSome_iff_ne_none]
    exact header
  simp only [issueMchs, reservedZero_pass reserved, hazardFree_off ctx x _ detector, IssueStop.ok_bind, fields, range, held, idle, Bool.not_false, need_true]
  rfl

theorem issueMchr_passes (reserved : w &&& 0x21FFE1F = 0) :
    let row := (x.areg (f4 w 21)).toNat
    let rows := rowsFrom row (1 + chainRows x.nma.accSmall i0 nbr)
    moveChecks ctx x rows [] = .ok () →
      issueMchr ctx w x = .ok (x.startNma (newNma ctx x (.receive row chain i0 nbr) (8 * nbr + 16) (8 * nbr + 16) (eightPerCycle ctx.pipe rows))) := by
  intro row rows checks
  simp only [issueMchr, reservedZero_pass reserved, hazardFree_off ctx x _ detector, IssueStop.ok_bind, fields, range, need_true]
  exact IssueStop.bind_ok_iff.2 ⟨(), checks, rfl⟩

end Issue

/-- R304: the fields of S[SC]. -/
theorem chainFields_eq (x : BitVec 64) : chainFields x = (BitVec.ofNat 32 x.toNat, x.toNat / 2 ^ 32 % 16, x.toNat / 2 ^ 36 % 16) := by
  have low : x.extractLsb' 0 32 = BitVec.ofNat 32 x.toNat := BitVec.eq_of_toNat_eq (by simp)
  rw [chainFields, field_eq, field_eq, low]
  rfl

/-- R118: the header in its first row is one that the array accepts. -/
theorem Tile.chainCheck_accepts {y : Tile} {ctx : IssueCtx} {op : NmaOp} {row i0 nbr : Nat} {chain : Word} {h : ChainHeader}
    (kind : op.kind = .receive row chain i0 nbr) (header : chainHeader? (y.rowAt row).seen = some h) (ok : chainOk y.nma h chain i0 nbr = true) :
    y.chainCheck ctx op = y := by
  have seen : chainHeader? (y.fetchRow row).seen = some h := header
  simp only [Tile.chainCheck, kind, seen, ok, Bool.not_true, Bool.false_eq_true, and_false, if_false]

/-- Settles O24: each instruction passes its checks, and what it puts into the array asks for its rows eight a cycle. -/
theorem arrayMovesStart : Obligations.ArrayMovesStart := by
  intro s t g w ready x pipe wide wideR rows free sc i0 nbr n starts
  have detector := State.ready_hazard ready
  have unowned := (State.ready_unowned ready).1
  have range : 1 ≤ nbr → i0 + nbr ≤ blockRows x.nma.accSmall → chainRangeOk x.nma.accSmall i0 nbr = true :=
    fun least most => by simp only [chainRangeOk, least, most, decide_true, Bool.and_true]
  have plain : ∀ {kind : NmaKind} {op : NmaOp}, op.kind = kind → (∀ row chain i0 nbr, kind ≠ .receive row chain i0 nbr) →
      (x.startNma op).chainCheck (s.sees t g) op = x.startNma op := fun hkind other => Tile.chainCheck_other _ _ (by rw [hkind]; exact other)
  refine ⟨fun reserved form ok => ?_, fun reserved form ok => ?_, fun reserved ok => ?_, fun least most => ⟨fun reserved header => ?_, ?_⟩⟩
  · obtain ⟨exist, starved, rings⟩ := ok
    exact State.occupies_eightPerCycle ready rfl rfl (issueMspill_passes detector form reserved (State.moveChecks_pass ready exist rings)) starved
      (plain rfl nofun) nofun
  · obtain ⟨exist, starved, rings⟩ := ok
    exact State.occupies_eightPerCycle ready rfl rfl (issueMspill_passes detector form reserved (State.moveChecks_pass ready exist rings)) starved
      (plain rfl nofun) nofun
  · obtain ⟨exist, starved, rings⟩ := ok
    exact State.occupies_eightPerCycle ready rfl rfl (issueMresume_passes detector reserved (State.moveChecks_pass ready exist rings)) starved
      (plain rfl nofun) nofun
  · exact State.occupies_eightPerCycle ready rfl rfl (issueMchs_passes detector (chainFields_eq _) (range least most) reserved header unowned) (by simp [noneStarved])
      (plain rfl nofun) nofun
  · intro h reads reserved ok header accepted
    obtain ⟨exist, starved, rings⟩ := ok
    exact State.occupies_eightPerCycle ready rfl rfl
      (issueMchr_passes detector (chainFields_eq _) (range least most) reserved (State.moveChecks_pass ready exist rings)) starved
      (Tile.chainCheck_accepts rfl header accepted) nofun

end Sys2Proof.Machine

/- An MMA whose result arrives while its tile has halted (R95, R141, R143, R237, R240, R269, R291). -/

namespace Sys2Proof.Machine

/-- An integer MMA of one block step in MXFP4: its result reaches the accumulators in cycle 51. -/
def landingMma : NmaOp :=
  { kind := .mma .mxfp4 true true 0 0 1 0 0 none, issued := 0, occupancy := 32, latency := 52, seq := 4, bundle := 20 }

/-- The row of an HLD, whose header is ill-formed: it is held back, since its ECC has corrected it. -/
def headerRow : RowRead :=
  { due := 51, seq := 8, bundle := 40, slot := .s, reader := .header true, row := 64, poisoned := false, corrected := true, judged := true }

/-- The row of a vector load in the HLD's bundle. -/
def besideRow : RowRead := { due := 51, seq := 9, bundle := 40, slot := .v, reader := .vector, row := 128, poisoned := false }

/-- A tile whose marker pends while the MMA's result is on its way and both rows come. -/
def summingTile : Tile :=
  { nma := { tails := [landingMma] }, reads := [headerRow, besideRow], ceRows := [64], pend := [{ kind := .marker, wall := 50, bundle := 41 }]
    flights := [{ due := 51, issued := 45, seq := 8, dests := [.hld 0 {} 64] }, { due := 52, issued := 45, seq := 9, dests := [.v 0 [] 0] }] }

/-- Its group, in an open cycle: the frozen cycles for the corrected row have passed. -/
def summingGroup : Group := { members := [0], active := true, started := true, pipe := 51, counter := 47, eccFor := some 51 }

/-- They are tile 0 and group 0 of a running device. -/
def summing : State :=
  { dev := { run := { state := .running }, tick := { wall := 60 }, tiles := (Vector.replicate 64 {}).set 0 summingTile
             groups := (Vector.replicate 16 {}).set 0 summingGroup } }

/-- The load's row is found uncorrectable: the tile has halted in this wall cycle. -/
def summingHalted : State :=
  { dev := summing.dev.onTile 0 (fun x => x.deliver (summing.sees 0 0) besideRow .uncorrectable) }

/-- The model's own step leads there. -/
theorem summing_rowDelivery : exec (.engineRowDelivery 0 .uncorrectable) summing = .next summingHalted := by
  rfl

theorem summingHalted_turning : summingHalted.turning 0 0 := by decide +kernel

/-- The MMA's one block step is due, and nothing else is in the tile's units. -/
theorem summingHalted_due : let x := summingHalted.settled 0 0
    x.flights = [] ∧ x.tu.op = none ∧ x.nma.dsm = none ∧ x.nma.closes = [] ∧ x.nma.op = none ∧ x.nma.tails = [landingMma] ∧
    landingMma.issued + 32 * (landingMma.steps + 1) + (landingMma.latency - landingMma.occupancy) = (summingHalted.sees 0 0).pipe + 1 := by decide +kernel

/-- The ill-formed header of the earlier instruction takes the place of the row's error in the log. -/
theorem summingHalted_log : (summingHalted.dev.scheduleCycle 0).log ≠ summingHalted.dev.log := by decide +kernel

/-- Refutes O27: the clause on a block step has the cycle change the tile and its group alone, but where the tile has halted in this wall cycle and the
cycle meets a condition of an earlier instruction, the log entry of the halt gives way to that condition (R269). -/
theorem not_integerMmaResults : ¬ Obligations.IntegerMmaResults := by
  intro h
  obtain ⟨steps, -⟩ := h
  obtain ⟨flights, tu, dsm, closes, op, tails, due⟩ := summingHalted_due
  obtain ⟨y, goes, -⟩ := steps summingHalted 0 0 landingMma .mxfp4 true true 0 0 1 0 0 none summingHalted_turning flights tu dsm closes
    (.inr ⟨op, tails⟩) rfl rfl Nat.one_pos due
  exact summingHalted_log (State.unitsGo_log goes)
end Sys2Proof.Machine

/- Rows that a unit writes in one cycle (R131). -/

namespace Sys2Proof.Machine

theorem Tile.rowAt_setRow {x : Tile} (wf : x.wf = true) (r : Nat) (v : Row) (k : Nat) : (x.setRow r v).rowAt k = if k = r then v else x.rowAt k :=
  Store.read_write rowDefault r v k wf

/-- A row that is none of those written stands as it did. -/
theorem Tile.rowAt_storeRows_other {x : Tile} (wf : x.wf = true) (rs : List (Nat × Row)) {k : Nat} (other : k ∉ rs.map (·.1)) :
    (x.storeRows rs).rowAt k = x.rowAt k := by
  induction rs generalizing x with
  | nil => rfl
  | cons p rs ih =>
    obtain ⟨ne, others⟩ := not_or.1 (mt List.mem_cons.2 other)
    exact (ih (x.setRow_wf p.1 p.2 wf) others).trans ((Tile.rowAt_setRow wf p.1 p.2 k).trans (if_neg ne))

/-- Of rows written once each, each holds what was written. -/
theorem Tile.rowAt_storeRows {x : Tile} (wf : x.wf = true) {rs : List (Nat × Row)} (once : (rs.map (·.1)).Nodup) {p : Nat × Row} (mem : p ∈ rs) :
    (x.storeRows rs).rowAt p.1 = p.2 := by
  induction rs generalizing x with
  | nil => exact absurd mem List.not_mem_nil
  | cons r rs ih =>
    obtain ⟨fresh, once⟩ := List.nodup_cons.1 once
    rcases List.mem_cons.1 mem with rfl | mem
    · exact (Tile.rowAt_storeRows_other (x.setRow_wf _ _ wf) rs fresh).trans ((Tile.rowAt_setRow wf _ _ _).trans (if_pos rfl))
    · exact ih (x.setRow_wf r.1 r.2 wf) once mem

/-- Rows written leave the rest of the tile, but that their errors are gone and the reads of them in flight are of what they held. -/
theorem Tile.storeRows_frame (x : Tile) (rs : List (Nat × Row)) :
    ∃ scratch ceRows reads, x.storeRows rs = { x with scratch := scratch, ceRows := ceRows, reads := reads } := by
  induction rs generalizing x with
  | nil => exact ⟨_, _, _, rfl⟩
  | cons p rs ih =>
    obtain ⟨scratch, ceRows, reads, rest⟩ := ih (x.setRow p.1 p.2)
    exact ⟨scratch, ceRows, reads, rest⟩

theorem Tile.keepOlds_eq (x : Tile) (rs : List (Nat × Row)) : ∃ before, rs.foldl (fun t p => t.keepOld p.1) x = { x with before := before } := by
  induction rs generalizing x with
  | nil => exact ⟨_, rfl⟩
  | cons p rs ih =>
    obtain ⟨before, rest⟩ := ih (x.keepOld p.1)
    exact ⟨before, rest.trans (by rw [Tile.keepOld_frame])⟩

/-- A port keeps what the rows held before, and writes them. -/
theorem Tile.portWrite_eq (x : Tile) (rs : List (Nat × Row)) : ∃ before, x.portWrite rs = ({ x with before := before } : Tile).storeRows rs := by
  obtain ⟨before, kept⟩ := Tile.keepOlds_eq x rs
  exact ⟨before, congrArg (fun y : Tile => y.storeRows rs) kept⟩

theorem Tile.portWrite_frame (x : Tile) (rs : List (Nat × Row)) :
    ∃ scratch ceRows reads before, x.portWrite rs = { x with scratch := scratch, ceRows := ceRows, reads := reads, before := before } := by
  obtain ⟨before, written⟩ := Tile.portWrite_eq x rs
  obtain ⟨scratch, ceRows, reads, stored⟩ := Tile.storeRows_frame { x with before := before } rs
  exact ⟨scratch, ceRows, reads, before, written.trans stored⟩

theorem Tile.engineWrite_frame (x : Tile) (rs : List (Nat × Row)) : ∃ scratch ceRows reads before, x.engineWrite rs =
    { x with scratch := scratch, ceRows := ceRows, reads := reads, before := before, slotWrites := x.slotWrites ++ rs.map (fun p => bankOf p.1) } := by
  obtain ⟨scratch, ceRows, reads, before, written⟩ := Tile.portWrite_frame x rs
  exact ⟨scratch, ceRows, reads, before, by rw [Tile.engineWrite, written]⟩

theorem Tile.rowAt_engineWrite (x : Tile) (rs : List (Nat × Row)) (k : Nat) : (x.engineWrite rs).rowAt k = (x.portWrite rs).rowAt k := rfl

theorem Tile.rowAt_portWrite_other {x : Tile} (wf : x.wf = true) (rs : List (Nat × Row)) {k : Nat} (other : k ∉ rs.map (·.1)) :
    (x.portWrite rs).rowAt k = x.rowAt k := by
  obtain ⟨before, written⟩ := Tile.portWrite_eq x rs
  rw [written]
  exact Tile.rowAt_storeRows_other (x := { x with before := before }) wf rs other

theorem Tile.rowAt_portWrite {x : Tile} (wf : x.wf = true) {rs : List (Nat × Row)} (once : (rs.map (·.1)).Nodup) {p : Nat × Row} (mem : p ∈ rs) :
    (x.portWrite rs).rowAt p.1 = p.2 := by
  obtain ⟨before, written⟩ := Tile.portWrite_eq x rs
  rw [written]
  exact Tile.rowAt_storeRows (x := { x with before := before }) wf once mem

end Sys2Proof.Machine

/- The close stage of DSM (R121 to R123). -/

namespace Sys2Proof.Machine

/-- Rows of different banks are served in one cycle. -/
theorem perBank_distinct {bank : Nat → Nat} {taken rs : List Nat} (once : (rs.map bank).Nodup) (fresh : ∀ r ∈ rs, bank r ∉ taken) :
    perBank 1 bank taken rs = rs := by
  induction rs generalizing taken with
  | nil => rfl
  | cons r rs ih =>
    obtain ⟨new, once⟩ := List.nodup_cons.1 once
    have room : (taken.filter (· == bank r)).length < 1 := by
      have none : taken.filter (· == bank r) = [] := List.filter_eq_nil_iff.2 fun b hb eq => fresh r List.mem_cons_self (beq_iff_eq.1 eq ▸ hb)
      simp [none]
    have rest : ∀ z ∈ rs, bank z ∉ bank r :: taken := fun z hz hb => by
      rcases List.mem_cons.1 hb with eq | hb
      · exact new (eq ▸ List.mem_map_of_mem hz)
      · exact fresh z (List.mem_cons_of_mem r hz) hb
    simp only [perBank, room, decide_true, if_true, ih once rest]

/-- R131: in the last cycle of an operation whose rows lie in different banks all that are left go. -/
theorem chunkOut_last (bits n : Nat) {bank : Nat → Nat} (once : ((List.range n).map bank).Nodup) :
    chunkOut bits 1 0 n 0 (fun _ => true) bank = List.range n := by
  have unwritten : (List.range n).filter (fun r => !Nat.testBit 0 r) = List.range n := List.filter_eq_self.2 fun r _ => by simp
  have late : ∀ r ∈ List.range n,
      ((List.range 32).map (fun b => decide (1 * 0 < ((List.range n).filter (fun r => bank r == b)).length))).getD (bank r) true = true := by
    intro r hr
    by_cases low : bank r < 32
    · have own : ∃ z < n, bank z = bank r := ⟨r, List.mem_range.1 hr, rfl⟩
      simpa [low] using own
    · simp [Nat.le_of_not_lt low]
  have going : (List.range n).filter (fun r => true && (Nat.testBit bits r ||
      ((List.range 32).map (fun b => decide (1 * 0 < ((List.range n).filter (fun r => bank r == b)).length))).getD (bank r) true)) = List.range n :=
    List.filter_eq_self.2 fun r hr => by rw [late r hr, Bool.or_true, Bool.true_and]
  simp only [chunkOut, unwritten, going]
  exact perBank_distinct once fun _ _ => List.not_mem_nil

/-- R131: eight rows in succession lie in different banks. -/
theorem eight_rows_banks (first : Nat) : ((List.range 8).map (fun r => bankOf (first + r))).Nodup :=
  List.Nodup.map_on (fun a ha b hb same => by simp only [bankOf, List.mem_range] at *; omega) List.nodup_range

theorem dsmRows_getD (d : DsmOp) : (List.range 8).map (fun r => (dsmRows d).getD r (0, {})) = dsmRows d :=
  List.map_congr_left fun r hr => by simp [dsmRows, List.mem_range.1 hr]

/-- R121, R125: a close stage whose last cycle has passed, its rows all delivered and none written, writes its eight rows and ends. -/
theorem Tile.closeDsm_last {x : Tile} {ctx : IssueCtx} {d : DsmOp} (delivered : x.allDelivered d.fetch d.seq = true) (unwritten : d.written = 0)
    (last : d.lastClose ≤ ctx.pipe) : x.closeDsm ctx [d] = ({ x.engineWrite (dsmRows d) with free := x.free + 1 }, []) := by
  have rows : (chunkOut (Config.freeNat ctx.self.toNat x.free) 1 0 8 0 (fun _ => true) (fun r => bankOf (d.dst + r))).map
      (fun r => (dsmRows d).getD r (0, {})) = dsmRows d := by rw [chunkOut_last _ 8 (eight_rows_banks d.dst), dsmRows_getD]
  simp only [Tile.closeDsm, delivered, if_true, Nat.sub_eq_zero_of_le last, unwritten, Tile.writeChunk, rows, last]

/-- R121 to R123: what a supercell gives fits its lane. -/
theorem dsmOut_toNat (d : DsmOp) {v : Nat} (u : Nat) (q : 0 < d.qs.getD v 1 ∧ d.qs.getD v 1 < 2 ^ 36) :
    (dsmOut d v u).toNat = ((List.range d.k).map (fun k =>
      (lane128 (d.fetch.seen (d.rowsA.getD (if d.dot then 8 * k + v else k) 0)) u).toNat *
        (lane128 (d.fetch.seen (d.rowsB.getD (if d.dot then 8 * k + v else k) 0)) (if d.dot then u else v)).toNat)).sum % d.qs.getD v 1 := by
  rw [dsmOut, res_toNat ((Nat.mod_lt _ q.1).trans q.2)]
  cases d.dot <;> rfl

/-- DSM_CLOSE of a tile with one close stage, whose last cycle has passed. -/
theorem Tile.closeOverdue_one {x y : Tile} {ctx : IssueCtx} {d : DsmOp} (closes : x.nma.closes = [d]) (passed : d.lastClose < ctx.pipe)
    (ends : x.closeDsm ctx [d] = (y, [])) : x.closeOverdue ctx = { y with nma := { y.nma with closes := [] } } := by
  have none : [d].filter (fun d => !decide (d.lastClose < ctx.pipe)) = [] := by simp [passed]
  have all : [d].filter (fun d => decide (d.lastClose < ctx.pipe)) = [d] := by simp [passed]
  rw [Tile.closeOverdue, closes, none, all, ends]
  rfl

/-- Rows that leave a close stage as it ends: nothing else of the tile changes. -/
theorem Tile.closing_frame (x : Tile) (rows : List (Nat × Row)) : ∃ scratch ceRows reads before slotWrites,
    ({ x.engineWrite rows with free := x.free + 1 } : Tile) =
      { x with scratch := scratch, ceRows := ceRows, reads := reads, before := before, slotWrites := slotWrites, free := x.free + 1 } := by
  obtain ⟨scratch, ceRows, reads, before, written⟩ := Tile.engineWrite_frame x rows
  rw [written]
  exact ⟨scratch, ceRows, reads, before, _, rfl⟩

theorem Tile.rowAt_closing (x : Tile) (rows : List (Nat × Row)) (m : Nma) (r : Nat) :
    ({ ({ x.engineWrite rows with free := x.free + 1 } : Tile) with nma := m } : Tile).rowAt r = (x.portWrite rows).rowAt r := rfl

theorem dsmRows_keys (d : DsmOp) : (dsmRows d).map (·.1) = (List.range 8).map (d.dst + ·) := by simp [dsmRows]

/-- Settles O26: the close stage that has passed its last cycle writes its eight rows, each in a bank of its own, through the engine port. -/
theorem dsmResults : Obligations.DsmResults := by
  intro s t g d member wf x closes late unwritten asked arrived eight primes _ _
  have delivered : x.allDelivered d.fetch d.seq = true := by
    simp only [Tile.allDelivered, asked, List.isEmpty_nil, Bool.true_and, List.all_eq_true, bne_iff_ne]
    exact arrived
  have passed : d.lastClose < (s.sees t g).pipe := by rw [DsmOp.lastClose]; omega
  obtain ⟨scratch, ceRows, reads, before, slotWrites, frame⟩ := Tile.closing_frame x (dsmRows d)
  have row : ∀ r, (x.closeOverdue (s.sees t g)).rowAt r = (x.portWrite (dsmRows d)).rowAt r := fun r => by
    rw [Tile.closeOverdue_one closes passed (Tile.closeDsm_last delivered unwritten passed.le)]
    exact Tile.rowAt_closing x (dsmRows d) _ r
  have closed := Tile.closeOverdue_one closes passed ((Tile.closeDsm_last delivered unwritten passed.le).trans (congrArg (·, []) frame))
  obtain ⟨halted, rank, issue⟩ : (x.closeOverdue (s.sees t g)).halted = x.halted ∧ (x.closeOverdue (s.sees t g)).haltRank = x.haltRank ∧
      (x.closeOverdue (s.sees t g)).haltIssue = x.haltIssue := by
    rw [closed]
    exact ⟨rfl, rfl, rfl⟩
  have acts : exec (.dsmClose t) s = .next (s.put t (x.closeOverdue (s.sees t g))) := by
    have kept : s.dev.onMember t (fun ctx x => x.closeOverdue ctx) = s.dev.setTile t (x.closeOverdue (s.sees t g)) := by
      simp only [Dev.onMember, member]
      exact Dev.onTile_kept s.dev t (fun x => x.closeOverdue (s.sees t g)) halted rank issue
    show s.act (fun d => d.onMember t (fun ctx x => x.closeOverdue ctx)) = _
    rw [State.act_next, kept]
    rfl
  refine ⟨_, acts, by rw [closed], fun r outside => ?_, fun v u hv hu => ?_⟩
  · rw [row]
    refine Tile.rowAt_portWrite_other wf _ ?_
    simp only [dsmRows_keys, List.mem_map, List.mem_range]
    omega
  · have once : ((dsmRows d).map (·.1)).Nodup := by
      rw [dsmRows_keys]
      exact List.Nodup.map_on (fun a _ b _ same => Nat.add_left_cancel same) List.nodup_range
    have mem : (d.dst + v, ({ data := sectorOf (fun u => dsmOut d v u) } : Row)) ∈ dsmRows d := List.mem_map.2 ⟨v, List.mem_range.2 hv, rfl⟩
    have prime : d.qs.getD v 1 ∈ d.qs := by
      rw [List.getD_eq_getElem _ _ (eight ▸ hv)]
      exact List.getElem_mem _
    have value : ((x.portWrite (dsmRows d)).rowAt (d.dst + v)).data = sectorOf (fun u => dsmOut d v u) := by rw [Tile.rowAt_portWrite wf once mem]
    show (lane128 ((x.closeOverdue (s.sees t g)).rowAt (d.dst + v)).data u).toNat = _
    rw [row, value, lane128_sectorOf _ hu]
    exact dsmOut_toNat d u (primes _ prime)

end Sys2Proof.Machine

/- Row requests in runs (R131). -/

namespace Sys2Proof.Machine

theorem flatten_bankRuns (run rows : List Nat) : (bankRuns run rows).flatten = run ++ rows := by
  induction rows generalizing run with
  | nil =>
    cases run <;> simp [bankRuns]
  | cons r rows ih =>
    rw [bankRuns]
    split
    · simp [ih]
    · simp [ih]

theorem bankRuns_ne_nil (run rows : List Nat) : ∀ p ∈ bankRuns run rows, p ≠ [] := by
  induction rows generalizing run with
  | nil => cases run <;> simp [bankRuns]
  | cons r rows ih =>
    rw [bankRuns]
    split
    next taken =>
      intro p hp
      rcases List.mem_cons.1 hp with rfl | hp
      · exact fun empty => by simp [empty] at taken
      · exact ih [r] p hp
    next => exact ih (run ++ [r])

theorem bankRuns_nodup {run : List Nat} (once : (run.map bankOf).Nodup) (rows : List Nat) : ∀ p ∈ bankRuns run rows, (p.map bankOf).Nodup := by
  induction rows generalizing run with
  | nil =>
    cases run with
    | nil => simp [bankRuns]
    | cons a run => simpa [bankRuns] using once
  | cons r rows ih =>
    rw [bankRuns]
    split
    · intro p hp
      rcases List.mem_cons.1 hp with rfl | hp
      · exact once
      · exact ih (run := [r]) (List.nodup_singleton _) p hp
    next free =>
      refine ih ?_
      have other : bankOf r ∉ run.map bankOf := fun taken => by
        obtain ⟨k, hk, same⟩ := List.mem_map.1 taken
        exact free (List.any_eq_true.2 ⟨k, hk, beq_iff_eq.2 same⟩)
      rw [List.map_append, List.map_singleton]
      exact List.nodup_append.2 ⟨once, List.nodup_singleton _, fun k hk z hz => by
        rw [List.mem_singleton.1 hz]
        exact fun same => other (same ▸ hk)⟩

/-- Lists none of which is empty are no more than their members. -/
theorem length_le_flatten {l : List (List Nat)} (filled : ∀ p ∈ l, p ≠ []) : l.length ≤ l.flatten.length := by
  induction l with
  | nil => exact Nat.le_refl 0
  | cons p l ih =>
    have first := List.length_pos_iff.2 (filled p List.mem_cons_self)
    have rest := ih fun q hq => filled q (List.mem_cons_of_mem p hq)
    simp only [List.length_cons, List.flatten_cons, List.length_append]
    omega

theorem map_snd_runsFrom (c : Nat) (rows : List Nat) : (runsFrom c rows).map (·.2) = bankRuns [] rows := by
  refine List.ext_getElem (by simp [runsFrom]) fun i _ _ => ?_
  simp [runsFrom]

theorem map_fst_runsFrom (c : Nat) (rows : List Nat) : (runsFrom c rows).map (·.1) = (List.range (runsFrom c rows).length).map (c + ·) := by
  refine List.ext_getElem (by simp [runsFrom]) fun i _ _ => ?_
  simp [runsFrom]

theorem flatMap_runsFrom (c : Nat) (rows : List Nat) : (runsFrom c rows).flatMap (·.2) = rows := by
  rw [List.flatMap_def, map_snd_runsFrom, flatten_bankRuns, List.nil_append]

theorem runsFrom_nodup {c : Nat} {rows : List Nat} {p : Nat × List Nat} (mem : p ∈ runsFrom c rows) : (p.2.map bankOf).Nodup :=
  bankRuns_nodup (run := []) List.nodup_nil rows p.2 (map_snd_runsFrom c rows ▸ List.mem_map_of_mem mem)

theorem length_runsFrom (c : Nat) (rows : List Nat) : (runsFrom c rows).length ≤ rows.length := by
  have least := length_le_flatten (bankRuns_ne_nil [] rows)
  rwa [flatten_bankRuns, List.nil_append, ← map_snd_runsFrom c, List.length_map] at least

/-- The first run of some rows is in the first cycle. -/
theorem runsFrom_first (c : Nat) {rows : List Nat} (filled : rows ≠ []) : (runsFrom c rows).any (fun p => p.1 == c) = true := by
  have runs : runsFrom c rows ≠ [] := fun none => filled (by rw [← flatMap_runsFrom c rows, none]; rfl)
  have first : c ∈ (runsFrom c rows).map (·.1) := by
    rw [map_fst_runsFrom]
    exact List.mem_map.2 ⟨0, List.mem_range.2 (List.length_pos_iff.2 runs), rfl⟩
  obtain ⟨p, hp, same⟩ := List.mem_map.1 first
  exact List.any_eq_true.2 ⟨p, hp, beq_iff_eq.2 same⟩

end Sys2Proof.Machine

/- MMA (R94, R95, R101, R112, R301). -/

namespace Sys2Proof.Machine

/-- R99: the rows of a panel that a block step reads. -/
theorem panelStep_rows (f : Fmt) (first : Nat) (pad : Option PadWindow) (step : Nat) :
    let u := if f.bits = 8 then 144 else 288
    let lo := step * u * f.bits / 128
    panelStep f first pad step = (rowsFrom (first + lo) ((step * u + u - 1) * f.bits / 128 + 1 - lo)).filter (fun r => !pad.any (fun p => p.pads r)) := by
  have divide : ∀ n, n * f.bits / 128 = n / f.bpr := fun n => by
    cases f <;> simp only [Fmt.bpr, Fmt.bits] <;> omega
  simp only [divide]
  cases f <;> rfl

theorem stepRows_eq (f : Fmt) (a b : Nat) (pad : Option PadWindow) (step : Nat) :
    stepRows f a b pad step = panelStep f a pad step ++ panelStep f b none step := by
  have all : ∀ rows : List Nat, rows.filter (fun r => !(none : Option PadWindow).any (fun p => p.pads r)) = rows := fun rows => by simp
  rw [panelStep_rows, panelStep_rows, all]
  rfl

/-- Every block step reads a row of B. -/
theorem stepRows_ne_nil (f : Fmt) (a b : Nat) (pad : Option PadWindow) (step : Nat) : stepRows f a b pad step ≠ [] := by
  intro empty
  have none := congrArg List.length (List.append_eq_nil_iff.1 empty).2
  have order : step * (if f.bits = 8 then 144 else 288) * f.bits / 128 ≤
      (step * (if f.bits = 8 then 144 else 288) + (if f.bits = 8 then 144 else 288) - 1) * f.bits / 128 :=
    Nat.div_le_div_right (Nat.mul_le_mul_right _ (by split <;> omega))
  simp only [rowsFrom, List.length_map, List.length_range, List.length_nil] at none
  omega

theorem panelFetch_eq (f : Fmt) (a b nb pipe : Nat) (pad : Option PadWindow) : panelFetch f a b nb pipe pad =
    (List.range nb).flatMap (fun n => runsFrom (pipe + (if f.bits = 2 then 16 else 32) * n) (stepRows f a b pad n)) := by
  simp only [panelFetch, stepRows_eq]

/-- R94: an MMA asks for rows in its first cycle. -/
theorem panelFetch_first (f : Fmt) (a b pipe : Nat) {nb : Nat} (several : nb ≠ 0) (pad : Option PadWindow) :
    (panelFetch f a b nb pipe pad).any (fun p => p.1 == pipe) = true := by
  rw [panelFetch_eq, List.any_flatMap]
  exact List.any_eq_true.2 ⟨0, List.mem_range.2 (Nat.pos_of_ne_zero several), runsFrom_first pipe (stepRows_ne_nil f a b pad 0)⟩

/-- R101. -/
theorem mmaStateOk_pass {m : Nma} {f : Fmt} {int zero : Bool} {xr : BitVec 16} (format : int = true → f ≠ .mxfp8)
    (state : zero = true ∨ m.accInt = int ∧ m.accSmall = f.small ∧ (int = true → ∀ r, r < blockRows f.small → m.xr.toList.getD r 0 = xr)) :
    mmaStateOk m f int zero xr = true := by
  have valid : (!(int && f == .mxfp8)) = true := by
    cases int with
    | false => rfl
    | true => simpa using format rfl
  rw [mmaStateOk, valid, Bool.true_and, Bool.or_eq_true]
  refine state.imp_right fun ⟨kind, shape, exponents⟩ => ?_
  simp only [kind, shape, beq_self_eq_true, Bool.true_and]
  cases int with
  | false => rfl
  | true => simpa using exponents rfl

/-- The shadow panel of R113. -/
theorem shadowRows_eq (f : Fmt) (nb : Nat) : shadowRows f.small nb = ((if f.bits = 8 then 144 else 288) * nb + 15) / 16 := by
  cases f <;> rfl

theorem panelRows_eq (f : Fmt) (nb : Nat) : panelRows f nb = ((if f.bits = 8 then 144 else 288) * nb + 128 / f.bits - 1) / (128 / f.bits) := by
  cases f <;> rfl

/-- R112: of the sentinel a draw changes the LFSR, the sample and its drop count. -/
theorem Sentinel.draw_frame (old : Sentinel) (x : SentSample) (value : Nat → Nat → Option (Option (Bool × Nat × Int))) :
    old.draw x value = { old with lfsr := (old.draw x value).lfsr, sample := (old.draw x value).sample, drop := (old.draw x value).drop } := by
  unfold Sentinel.draw
  split
  · dsimp only
    split <;> rfl
  · rfl

/-- R112: it draws only where it is enabled and the shape is 288 by 288. -/
theorem Sentinel.draw_off {old : Sentinel} {x : SentSample} (off : old.ctrl.getLsbD 0 = false ∨ x.fmt.bits = 8)
    (value : Nat → Nat → Option (Option (Bool × Nat × Int))) : old.draw x value = old := by
  refine if_neg fun on => ?_
  rw [Bool.and_eq_true] at on
  obtain ⟨enabled, large⟩ := on
  rcases off with off | small
  · exact Bool.false_ne_true (off.symm.trans enabled)
  · simp [Fmt.small, small] at large

/-- A sample taken: one that still waited is dropped. -/
def Sentinel.sampled (old new : Sentinel) (x : SentSample) : Prop :=
  new.drop = (if old.sample.isSome then satInc old.drop else old.drop) ∧
  ∃ i j v, i < 288 ∧ j < 288 ∧ new.sample = some { x with i := i, j := j, v := v }

/-- R112: the block that an MMA's first step offers to the sentinel. -/
def firstSample (f : Fmt) (a b shadow : Nat) (pad : Option PadWindow) (wall seq : Nat) : SentSample :=
  { fmt := f, a := a, b := b, shadow := shadow, pad := pad, step := 0, i := 0, j := 0, asked := wall, seq := seq }

/-- R112: an enabled sentinel steps its LFSR, and takes a sample or leaves the one it has; with probability 1 it takes one. -/
theorem Sentinel.draw_on {old : Sentinel} {x : SentSample} (on : old.ctrl.getLsbD 0 = true) (large : x.fmt.bits ≠ 8)
    (value : Nat → Nat → Option (Option (Bool × Nat × Int))) :
    let new := old.draw x value
    new.lfsr = Config.lfsrNext old.lfsr ∧ (old.sampled new x ∨ new.sample = old.sample ∧ new.drop = old.drop) ∧
    (old.ctrl.toNat / (if old.ctrl.getLsbD 2 then 2 ^ 16 else 2 ^ 20) % 16 = 0 → old.sampled new x) := by
  have active : (old.ctrl.getLsbD 0 && !x.fmt.small) = true := by simp [on, Fmt.small, large]
  have rate : (if old.ctrl.getLsbD 2 then field old.ctrl.toNat 16 4 else field old.ctrl.toNat 20 4) =
      old.ctrl.toNat / (if old.ctrl.getLsbD 2 then 2 ^ 16 else 2 ^ 20) % 16 := by
    rw [field_eq, field_eq]
    split <;> rfl
  intro new
  have hnew : new = old.draw x value := rfl
  simp only [Sentinel.draw, active, if_true, rate] at hnew
  generalize old.ctrl.toNat / (if old.ctrl.getLsbD 2 then 2 ^ 16 else 2 ^ 20) % 16 = k at hnew ⊢
  unfold sentinelPick at hnew
  split at hnew
  next unpicked =>
    rw [hnew]
    refine ⟨rfl, .inr ⟨rfl, rfl⟩, fun always => ?_⟩
    simp [always, Nat.mod_one] at unpicked
  next i j picked =>
    have taken : old.sampled new x := by
      refine ⟨by rw [hnew], i, j, _, ?_, ?_, by rw [hnew]⟩
      all_goals
        simp only [Option.ite_none_right_eq_some, Option.some.injEq, Prod.mk.injEq] at picked
        obtain ⟨-, rfl, rfl⟩ := picked
        exact Nat.mod_lt _ (by decide)
    exact ⟨by rw [hnew], .inl taken, fun _ => taken⟩

/-- R112: the sentinel draws as the first block step of an MMA begins. -/
theorem Tile.drawSentinel_begins {op : NmaOp} {f : Fmt} {int zero : Bool} {a b nb shadow pipe : Nat} {xr : BitVec 16} {pad : Option PadWindow}
    (kind : op.kind = .mma f int zero a b nb xr shadow pad) (issued : op.issued = pipe) (several : nb ≠ 0)
    (asks : op.fetch.todo.any (fun p => p.1 == pipe) = true) (fetch : Fetches) (wall : Nat) :
    ∃ value, ∀ y : Tile, y.drawSentinel op fetch wall pipe = { y with
      sent := y.sent.draw (firstSample f a b shadow pad wall op.seq) value } := by
  have first : (pipe - op.issued) / f.stepCycles = 0 := by rw [issued, Nat.sub_self, Nat.zero_div]
  have begins : op.issued + f.stepCycles * 0 = pipe ∧ 0 < nb := ⟨by rw [issued, Nat.mul_zero, Nat.add_zero], Nat.pos_of_ne_zero several⟩
  exact ⟨_, fun y => by simp only [Tile.drawSentinel, kind, asks, if_true, first, begins, and_self]; rfl⟩

/-- R107, R303: the row of a vector that S[SP] names, if its bit 15 says that there is one. -/
def vecField (s0 lo : Nat) : Option Nat := if s0.testBit (lo + 15) then some (s0 / 2 ^ lo % 2 ^ 15) else none

theorem vecField_eq (s0 lo : Nat) : (if field s0 (lo + 15) 1 = 1 then some (field s0 lo 15) else none) = vecField s0 lo := by
  have present : field s0 (lo + 15) 1 = 1 ↔ s0.testBit (lo + 15) = true := by
    rw [field_eq, Nat.testBit_eq_decide_div_mod_eq, decide_eq_true_iff, Nat.pow_one]
  simp only [vecField, ← present, field_eq]

/-- R107, R109: the rows of a vector, 144 values a row. -/
def vecRows (small : Bool) (v : Option Nat) : List Nat :=
  match v with
  | some r => rowsFrom r (if small then 1 else 2)
  | none => []

/-- R122: a prime of the table. -/
theorem ctxPrime_eq (c : Option ModTable) (j : Nat) : ctxPrime c j = ((ctxEntry? c j).map (·.q)).getD 0 := by
  rw [ctxPrime]
  cases ctxEntry? c j <;> rfl

/-- The tile with a DSM operation in its array. -/
def Tile.startDsm (x : Tile) (d : DsmOp) : Tile := { x with seq := x.seq + 1, nma := { x.nma with dsm := some d } }

section Issue

variable {ctx : IssueCtx} {x : Tile} {w : BitVec 26} (detector : ctx.hazard = false)
include detector

theorem issueMma_passes {f : Fmt} (code : Fmt.ofCode (f3 w 23).toNat = some f) (reserved : w &&& (if w.getLsbD 4 then 3 else 0xF) = 0)
    (idle : x.nmaBusy ctx.pipe = false) (unowned : x.tuOwned ctx.pipe = {}) (bus : x.busNow ctx.pipe = ([], [])) :
    let nb := (x.sreg (f4 w 9)).toNat % 2 ^ 12
    let sx := (x.sreg (f4 w 5)).toNat
    let a := (x.areg (f4 w 17)).toNat
    let b := (x.areg (f4 w 13)).toNat
    let shadow := sx / 2 ^ 32 % 2 ^ 15
    let pad := if w.getLsbD 4 then some x.pads[(f2 w 2).toNat] else none
    let s := if f.bits = 2 then 16 else 32
    nb ≠ 0 → mmaStateOk x.nma f (w.getLsbD 22) (w.getLsbD 21) (BitVec.ofNat 16 sx) = true →
    needRows x ((rowsFrom a (panelRows f nb)).filter (fun r => !pad.any (fun p => p.pads r)) ++ rowsFrom b (panelRows f nb) ++
      if x.sent.ctrl.getLsbD 1 then rowsFrom shadow (shadowRows f.small nb) else []) = .ok () →
    issueMma ctx w x = .ok (x.startNma (newNma ctx x (.mma f (w.getLsbD 22) (w.getLsbD 21) a b nb (BitVec.ofNat 16 sx) shadow pad) (s * nb)
      (s * nb + if f.bits = 8 then 24 else 20) (panelFetch f a b nb ctx.pipe pad))) := by
  intro nb sx a b shadow pad s several state rows
  have slots : ∀ mine, needSlots ctx x mine {} [] = .ok () := fun mine => needSlots_pass bus rfl
  have latency : (if f.small = true then 24 else 20) = if f.bits = 8 then 24 else 20 := by cases f <;> rfl
  simp only [latency, issueMma, reservedZero_pass reserved, hazardFree_off ctx x _ detector, IssueStop.ok_bind, code, field_eq, Nat.pow_zero, Nat.div_one, idle, unowned,
    slots, Bool.not_false, need_true]
  exact IssueStop.need_bind_ok_iff.2 ⟨bne_iff_ne.2 several, IssueStop.need_bind_ok_iff.2 ⟨state, IssueStop.bind_ok_iff.2 ⟨(), rows, rfl⟩⟩⟩

theorem issueMepi_passes {f : Fmt} {e : Option ModEntry} (code : Fmt.ofCode (f3 w 21).toNat = some f) :
    let out := f2 w 24
    let merge := w.getLsbD 20
    let act := f2 w 6
    let sp := f4 w 8
    let s0 := (x.sreg sp).toNat
    let s1 := x.sreg (sp + 1)
    let s2 := (x.sreg (sp + 2)).toNat
    let dst := (x.areg (f4 w 16)).toNat
    let wide := (x.areg (f4 w 12)).toNat
    let vecs := vecRows x.nma.accSmall (vecField s0 0) ++ vecRows x.nma.accSmall (vecField s0 16)
    let buffer := if merge then rowsFrom wide (wideRows x.nma.accSmall) else []
    let cycles := if out = 2 then 112 else 100
    ctxEntry? (x.ctx (BitVec.ofNat 2 (s2 / 2 ^ 16))) (s2 / 2 ^ 8 % 128) = e →
    w &&& ((if out = 0 then 0 else 0xE00000) ||| (if merge then 0 else 0xF000) ||| (if act = 2 then 0 else 0x3C) ||| 3) = 0 → out ≠ 3 →
    sp.toNat ≤ 13 → (act = 2 → f4 w 2 ≠ 0) → (out = 2 → s2 % 64 ≤ 62 ∧ e ≠ none) →
    moveChecks ctx x (buffer ++ vecs) (rowsFrom dst (epiRows out f x.nma.accSmall)) = .ok () →
    issueMepi ctx w x = .ok (x.startNma (newNma ctx x (.epilogue out f merge dst wide (vecField s0 0) (vecField s0 16) act (f4 w 2)
      (s1.extractLsb' 0 32) (s1.extractLsb' 32 32) (s2 % 64) ((e.map (·.q)).getD 1)) cycles cycles (epiFetch ctx.pipe vecs buffer x.nma.accSmall))) := by
  intro out merge act sp s0 s1 s2 dst wide vecs buffer cycles entry reserved valid low leak encode checks
  have mask : reservedZero w ((if out == 0 then 0 else 0xE00000) ||| (if merge then 0 else 0xF000) ||| (if act == 2 then 0 else 0x3C) ||| 3) = .ok () :=
    reservedZero_pass (by simpa only [beq_iff_eq] using reserved)
  have slot : BitVec.ofNat 2 (field s2 16 2) = BitVec.ofNat 2 (s2 / 2 ^ 16) := BitVec.eq_of_toNat_eq (by simp [field_eq])
  have entered : ctxEntry? (x.ctx (BitVec.ofNat 2 (field s2 16 2))) (field s2 8 7) = e := by
    rw [slot, field_eq]
    exact entry
  have scale : field s2 0 6 = s2 % 64 := field_low s2 6
  have delta : (!(out == 2) || decide (s2 % 64 ≤ 62)) = true := by
    rw [Bool.or_eq_true, Bool.not_eq_true', beq_eq_false_iff_ne, decide_eq_true_iff]
    exact (em (out = 2)).symm.imp_right fun h => (encode h).1
  have prime : (!(out == 2) || e.isSome) = true := by
    rw [Bool.or_eq_true, Bool.not_eq_true', beq_eq_false_iff_ne, Option.isSome_iff_ne_none]
    exact (em (out = 2)).symm.imp_right fun h => (encode h).2
  have slope : (!(act == 2) || f4 w 2 != 0) = true := by
    rw [Bool.or_eq_true, Bool.not_eq_true', beq_eq_false_iff_ne, bne_iff_ne]
    exact (em (act = 2)).symm.imp_right leak
  have scales : (if field s0 15 1 = 1 then some (field s0 0 15) else none) = vecField s0 0 := vecField_eq s0 0
  have biases : (if field s0 31 1 = 1 then some (field s0 16 15) else none) = vecField s0 16 := vecField_eq s0 16
  have columns : shapeU x.nma.accSmall / 144 = if x.nma.accSmall then 1 else 2 := by
    cases x.nma.accSmall <;> rfl
  rw [← List.append_assoc] at checks
  refine IssueStop.bind_ok_iff.2 ⟨(), mask, IssueStop.need_bind_ok_iff.2 ⟨bne_iff_ne.2 valid, ?_⟩⟩
  simp only [code, hazardFree_off ctx x _ detector, IssueStop.ok_bind]
  refine IssueStop.need_bind_ok_iff.2 ⟨decide_eq_true low, IssueStop.need_bind_ok_iff.2 ⟨scale ▸ delta, IssueStop.need_bind_ok_iff.2 ⟨slope,
    IssueStop.need_bind_ok_iff.2 ⟨entered ▸ prime, ?_⟩⟩⟩⟩
  simp only [sp, s0, s2] at scales biases entered scale
  simp only [scales, biases, columns, entered, scale]
  refine IssueStop.bind_ok_iff.2 ⟨(), checks, ?_⟩
  cases e <;> rfl

/-- R120 to R123, R125: the operation that DSM puts into the array. -/
def newDsm (ctx : IssueCtx) (x : Tile) (dot : Bool) (k dst : Nat) (qs : List Nat) (stepA stepB : Nat → List Nat) (turn : Nat → Nat) : DsmOp :=
  { dot := dot, k := k, rowsA := (List.range k).flatMap stepA, rowsB := (List.range k).flatMap stepB, dst := dst, qs := qs, issued := ctx.pipe
    seq := x.seq, bundle := ctx.bundle, fetch := { todo := (List.range k).map (fun i => (ctx.pipe + i, stepA i ++ stepB (turn i))) } }

theorem issueDsm_passes (reserved : w &&& 3 = 0) (idle : x.nmaBusy ctx.pipe = false) (unowned : x.tuOwned ctx.pipe = {})
    (bus : x.busNow ctx.pipe = ([], [])) :
    let dot := w.getLsbD 25
    let sk := (x.sreg (f4 w 9)).toNat
    let k := sk % 2 ^ 9
    let a := (x.areg (f4 w 21)).toNat
    let b := (x.areg (f4 w 17)).toNat
    let dst := (x.areg (f4 w 13)).toNat
    let sa := sk / 2 ^ 16 % 2 ^ 16
    let sb := sk / 2 ^ 32 % 2 ^ 16
    let entry := fun v => ctxEntry? (x.ctx (f2 w 7)) ((x.sreg (f4 w 3)).toNat % 128 + if w.getLsbD 2 then v else 0)
    let stepA := fun i => if dot then rowsFrom (a + i * sa) 8 else [a + i]
    let stepB := fun i => if dot then rowsFrom (b + i * sb) 8 else [b + i]
    1 ≤ k → k ≤ 256 → (∀ v, v < 8 → entry v ≠ none) → dst % 8 = 0 →
    (dot = true → ∀ i, i < k → eightRowGroup (stepA i) = true ∧ eightRowGroup (stepB i) = true ∧ quarterOf (a + i * sa) ≠ quarterOf (b + i * sb)) →
    needRows x ((List.range k).flatMap stepA ++ (List.range k).flatMap stepB ++ rowsFrom dst 8) = .ok () → noneInRing x (rowsFrom dst 8) →
    issueDsm ctx w x = .ok (x.startDsm (newDsm ctx x dot k dst ((List.range 8).map (fun v => ((entry v).map (·.q)).getD 0)) stepA stepB
      (fun i => if dot then i else dsmTurn a b k i))) := by
  intro dot sk k a b dst sa sb entry stepA stepB least most populated aligned groups rows rings
  have range : (decide (1 ≤ k) && decide (k ≤ 256)) = true := by simp [least, most]
  have primes : (List.range 8).all (fun v => (entry v).isSome) = true := List.all_eq_true.2 fun v hv =>
    Option.isSome_iff_ne_none.2 (populated v (List.mem_range.1 hv))
  have regions : (dst % 8 == 0 && (!dot || (List.range k).all (fun i =>
      eightRowGroup (stepA i) && eightRowGroup (stepB i) && quarterOf (a + i * sa) != quarterOf (b + i * sb)))) = true := by
    rw [aligned, beq_self_eq_true, Bool.true_and, Bool.or_eq_true, Bool.not_eq_true', ← Bool.not_eq_true]
    refine (em (dot = true)).symm.imp_right fun hdot => List.all_eq_true.2 fun i hi => ?_
    obtain ⟨groupA, groupB, apart⟩ := groups hdot i (List.mem_range.1 hi)
    simp [groupA, groupB, apart]
  have slots : ∀ mine, needSlots ctx x mine {} (rowsFrom dst 8) = .ok () := fun mine => needSlots_pass bus rings
  simp only [issueDsm, reservedZero_pass reserved, hazardFree_off ctx x _ detector, IssueStop.ok_bind, field_eq, Nat.pow_zero, Nat.div_one, idle, unowned,
    Bool.not_false, need_true, ctxPrime_eq]
  exact IssueStop.need_bind_ok_iff.2 ⟨range, IssueStop.need_bind_ok_iff.2 ⟨primes, IssueStop.need_bind_ok_iff.2 ⟨regions,
    IssueStop.bind_ok_iff.2 ⟨(), rows, IssueStop.bind_ok_iff.2 ⟨(), slots _, rfl⟩⟩⟩⟩⟩

end Issue

/-- Requests of one step a cycle: those of the first cycle, and the rest. -/
theorem asks_perCycle (pipe : Nat) {k : Nat} (least : 1 ≤ k) (step : Nat → List Nat) :
    asksNow pipe ((List.range k).map (fun i => (pipe + i, step i))) = step 0 ∧
    asksLater pipe ((List.range k).map (fun i => (pipe + i, step i))) = (List.range (k - 1)).map (fun i => (pipe + (i + 1), step (i + 1))) := by
  obtain ⟨n, rfl⟩ : ∃ n, k = n + 1 := ⟨k - 1, by omega⟩
  have rest : (List.range (n + 1)).map (fun i => (pipe + i, step i)) = (pipe, step 0) :: (List.range n).map (fun i => (pipe + (i + 1), step (i + 1))) := by
    rw [List.range_succ_eq_map, List.map_cons, List.map_map]
    rfl
  have later : ∀ p ∈ (List.range n).map (fun i => (pipe + (i + 1), step (i + 1))), pipe < p.1 := fun p hp => by
    obtain ⟨i, -, rfl⟩ := List.mem_map.1 hp
    exact Nat.lt_add_of_pos_right (Nat.succ_pos i)
  have none : ((List.range n).map (fun i => (pipe + (i + 1), step (i + 1)))).filter (fun p => decide (p.1 ≤ pipe)) = [] :=
    List.filter_eq_nil_iff.2 fun p hp => by simpa using later p hp
  have all : ((List.range n).map (fun i => (pipe + (i + 1), step (i + 1)))).filter (fun p => decide (pipe < p.1)) =
      (List.range n).map (fun i => (pipe + (i + 1), step (i + 1))) := List.filter_eq_self.2 fun p hp => by simpa using later p hp
  rw [rest]
  exact ⟨by simp [asksNow, none], by simp [asksLater, all]⟩

/-- The requests of a DSM operation in the cycle in which it comes into the array. -/
theorem Tile.fetchNma_startDsm {x : Tile} {ctx : IssueCtx} {d : DsmOp} (idle : x.nma.op = none) (going : d.failed = false)
    (free : noneStarved x (asksNow ctx.pipe d.fetch.todo)) : (x.startDsm d).fetchNma ctx = { x with
      nma := { x.nma with dsm := some (d.withFetch (d.fetch.askedOf x ctx.pipe)) }, seq := x.seq + 1
      reads := x.reads ++ (asksNow ctx.pipe d.fetch.todo).map (fun r =>
        { due := ctx.pipe + 6, seq := d.seq, bundle := d.bundle, slot := .m, reader := .matrix, row := r
          poisoned := (x.rowAt r).poison != 0, corrected := x.ceRows.contains r }) } := by
  have requests := Tile.fetchFor_passes (x := x.startDsm d) (split_asks ctx.pipe d.fetch.todo d.fetch.got) free d.seq d.bundle .m .matrix
  have none : (x.startDsm d).nma.op = none := idle
  have occupant : (x.startDsm d).nma.dsm = some d := rfl
  simp only [Tile.fetchNma, Tile.fetchNmaOp, none, Tile.fetchDsm, occupant, going, Bool.false_eq_true, if_false]
  rw [requests]
  rfl

/-- A DSM operation that comes into the array of a ready tile. -/
theorem State.issues_newDsm {s : State} {t : TileId} {g : GroupId} {c : Instr} {f : IssueCtx → Tile → Issue} (ready : s.ready t g)
    (row : exec c s = s.act (fun d => d.issueSlotOf t .m f)) {dot : Bool} {k dst : Nat} {qs : List Nat} {step stepA stepB : Nat → List Nat} {turn : Nat → Nat}
    (least : 1 ≤ k) (hstep : step = fun i => stepA i ++ stepB (turn i)) {op : DsmOp}
    (new : op = newDsm (s.sees t g) (s.settled t g) dot k dst qs stepA stepB turn)
    (passes : f (s.sees t g) (s.settled t g) = .ok ((s.settled t g).startDsm op)) (free : noneStarved (s.settled t g) (step 0)) :
    s.issues t g c (fun x => { x with
      nma := { x.nma with dsm := some {
        dot := dot, k := k, rowsA := (List.range k).flatMap stepA, rowsB := (List.range k).flatMap stepB, dst := dst, qs := qs
        issued := (s.sees t g).pipe, seq := (s.settled t g).seq, bundle := (s.sees t g).bundle
        fetch := { todo := (List.range (k - 1)).map (fun i => ((s.sees t g).pipe + (i + 1), step (i + 1)))
                   got := (step 0).map (fun r => (r, (s.settled t g).rowAt r)) } } }
      seq := x.seq + 1, reads := x.reads ++ (step 0).map (rowRead s t g .m .matrix) }) := by
  obtain ⟨-, -, -, -, -, -, -, idleTu, idleNma, -⟩ := id ready
  have todo : op.fetch = { todo := (List.range k).map (fun i => ((s.sees t g).pipe + i, step i)) } := by rw [new, hstep]; rfl
  obtain ⟨now, later⟩ := asks_perCycle (s.sees t g).pipe least step
  have fetches := Tile.fetchNma_startDsm (x := s.settled t g) (ctx := s.sees t g) (d := op) idleNma (by rw [new]; rfl) (by rw [todo]; exact now ▸ free)
  rw [← Tile.fetchTu_idle ((s.settled t g).startDsm op) (s.sees t g) idleTu, Fetches.askedOf, todo] at fetches
  simp only [now, later] at fetches
  subst new
  exact State.issues_of_fetch ready row passes fetches rfl rfl rfl

/-- R129, R131: two eight-row groups of different quarters lie in sixteen banks. -/
theorem groups_banks {a b : Nat} (groupA : eightRowGroup (rowsFrom a 8) = true) (groupB : eightRowGroup (rowsFrom b 8) = true)
    (apart : quarterOf a ≠ quarterOf b) : ((rowsFrom a 8 ++ rowsFrom b 8).map bankOf).Nodup := by
  have one : ∀ {c : Nat}, eightRowGroup (rowsFrom c 8) = true → ∀ r ∈ rowsFrom c 8, quarterOf r = quarterOf c := fun group r hr => by
    obtain ⟨same, -⟩ := Bool.and_eq_true_iff.1 group
    exact beq_iff_eq.1 (List.all_eq_true.1 same r hr)
  have banks : ∀ c, ((rowsFrom c 8).map bankOf).Nodup := fun c => by
    rw [rowsFrom, List.map_map]
    exact eight_rows_banks c
  rw [List.map_append]
  refine List.nodup_append.2 ⟨banks a, banks b, fun x hx y hy same => apart ?_⟩
  obtain ⟨r, hr, rfl⟩ := List.mem_map.1 hx
  obtain ⟨z, hz, rfl⟩ := List.mem_map.1 hy
  rw [← one groupA r hr, ← one groupB z hz]
  simp only [bankOf, quarterOf] at same ⊢
  omega

/-- R131: the turn of B's rows keeps them out of the banks of A's. -/
theorem turn_bank {a b k i : Nat} (several : 2 ≤ k) (hi : i < k) : bankOf (a + i) ≠ bankOf (b + dsmTurn a b k i) := by
  have rows : (a + i) % 8 ≠ (b + dsmTurn a b k i) % 8 := by
    have wrap : ∀ δ, δ ≤ k → (i + δ) % k = if i + δ < k then i + δ else i + δ - k := fun δ hδ => by
      split
      next h => exact Nat.mod_eq_of_lt h
      next h => rw [Nat.mod_eq_sub_mod (Nat.le_of_not_lt h), Nat.mod_eq_of_lt (by omega)]
    unfold dsmTurn
    split
    · rw [wrap _ (by split <;> omega)]
      split <;> split <;> omega
    · omega
  simp only [bankOf]
  omega

/-- What an operation leaves of the sentinel may be said less exactly. -/
theorem State.occupies_mono {s : State} {t : TileId} {g : GroupId} {c : Instr} {kind : NmaKind} {occupancy latency : Nat} {first : List Nat}
    {later : List (Nat × List Nat)} {draws allows : Sentinel → Sentinel → Prop} (weaker : ∀ old new, draws old new → allows old new)
    (h : s.occupies t g c kind occupancy latency first later draws) : s.occupies t g c kind occupancy latency first later allows := by
  obtain ⟨op, m, y, issues, begins, drawn, what⟩ := h
  exact ⟨op, m, y, issues, begins, weaker _ _ drawn, what⟩

/-- An operation other than MMA and MCHR comes into the array of a ready tile, and draws no sample. -/
theorem State.occupies_quiet {s : State} {t : TileId} {g : GroupId} {c : Instr} {f : IssueCtx → Tile → Issue} (ready : s.ready t g)
    (row : exec c s = s.act (fun d => d.issueSlotOf t .m f)) {kind : NmaKind} {occupancy latency : Nat} {todo : List (Nat × List Nat)}
    (passes : f (s.sees t g) (s.settled t g) =
      .ok ((s.settled t g).startNma (newNma (s.sees t g) (s.settled t g) kind occupancy latency todo)))
    (free : noneStarved (s.settled t g) (asksNow (s.sees t g).pipe todo))
    (noPacket : ∀ row chain i0 nbr, kind ≠ .receive row chain i0 nbr) (other : ∀ f int zero a b nb xr shadow pad, kind ≠ .mma f int zero a b nb xr shadow pad) :
    s.occupies t g c kind occupancy latency (asksNow (s.sees t g).pipe todo) (asksLater (s.sees t g).pipe todo) noDraw :=
  State.occupies_of_op ready row rfl passes free (Tile.chainCheck_other _ _ noPacket) rfl fun y same =>
    (y.drawSentinel_other _ _ _ other).trans (by rw [← same])

/-- R94, R112: an MMA comes into the array of a ready tile, and its first step lets the sentinel draw. -/
theorem State.occupies_mma {s : State} {t : TileId} {g : GroupId} {c : Instr} {issue : IssueCtx → Tile → Issue} (ready : s.ready t g)
    (row : exec c s = s.act (fun d => d.issueSlotOf t .m issue)) {f : Fmt} {int zero : Bool} {a b nb shadow occupancy latency : Nat} {xr : BitVec 16}
    {pad : Option PadWindow} {todo : List (Nat × List Nat)} (several : nb ≠ 0) (asks : todo = panelFetch f a b nb (s.sees t g).pipe pad)
    (passes : issue (s.sees t g) (s.settled t g) = .ok ((s.settled t g).startNma
      (newNma (s.sees t g) (s.settled t g) (.mma f int zero a b nb xr shadow pad) occupancy latency todo)))
    (free : noneStarved (s.settled t g) (asksNow (s.sees t g).pipe todo)) :
    s.occupies t g c (.mma f int zero a b nb xr shadow pad) occupancy latency (asksNow (s.sees t g).pipe todo) (asksLater (s.sees t g).pipe todo)
      (fun old new => ∃ value, new = old.draw (firstSample f a b shadow pad (s.sees t g).wall (s.settled t g).seq) value) := by
  have first : todo.any (fun p => p.1 == (s.sees t g).pipe) = true := by
    rw [asks]
    exact panelFetch_first f a b _ several pad
  obtain ⟨value, draw⟩ := Tile.drawSentinel_begins
    (op := newNma (s.sees t g) (s.settled t g) (.mma f int zero a b nb xr shadow pad) occupancy latency todo) rfl rfl several first
    (Fetches.askedOf { todo := todo } (s.settled t g) (s.sees t g).pipe) (s.sees t g).wall
  exact State.occupies_of_op ready row rfl passes free (Tile.chainCheck_other _ _ (by exact nofun)) ⟨value, rfl⟩
    fun y same => (draw y).trans (by rw [same]; rfl)

/-- R112: what a draw of an MMA's first step does to the sentinel. -/
theorem Sentinel.draw_first {f : Fmt} {a b shadow wall seq : Nat} {pad : Option PadWindow} {old new : Sentinel}
    {value : Nat → Nat → Option (Option (Bool × Nat × Int))} (drawn : new = old.draw (firstSample f a b shadow pad wall seq) value) :
    new = { old with lfsr := new.lfsr, sample := new.sample, drop := new.drop } ∧ (old.ctrl.getLsbD 0 = false ∨ f.bits = 8 → new = old) ∧
    (old.ctrl.getLsbD 0 = true → f.bits ≠ 8 →
      let drawn := new.drop = (if old.sample.isSome then satInc old.drop else old.drop) ∧ ∃ y : SentSample, new.sample = some y ∧
        y.i < 288 ∧ y.j < 288 ∧ y.step = 0 ∧ (y.fmt, y.a, y.b, y.shadow, y.pad) = (f, a, b, shadow, pad) ∧ y.asked = wall
      new.lfsr = Config.lfsrNext old.lfsr ∧ (drawn ∨ new.sample = old.sample ∧ new.drop = old.drop) ∧
      (old.ctrl.toNat / (if old.ctrl.getLsbD 2 then 2 ^ 16 else 2 ^ 20) % 16 = 0 → drawn)) := by
  subst drawn
  refine ⟨Sentinel.draw_frame _ _ _, fun off => Sentinel.draw_off off _, fun on large => ?_⟩
  intro drawn
  obtain ⟨steps, either, always⟩ := Sentinel.draw_on (x := firstSample f a b shadow pad wall seq) on large value
  have sampled : old.sampled (old.draw (firstSample f a b shadow pad wall seq) value) (firstSample f a b shadow pad wall seq) → drawn :=
    fun ⟨drop, i, j, v, hi, hj, sample⟩ => ⟨drop, _, sample, hi, hj, rfl, rfl, rfl⟩
  exact ⟨steps, either.imp_left sampled, fun one => sampled (always one)⟩

/-- Settles O25: the runs of R131 are a fold over the rows; and each instruction passes its checks and makes the requests of its issue cycle, of which the
first of an MMA lets the sentinel draw. -/
theorem arrayOperationsStart : Obligations.ArrayOperationsStart := by
  refine ⟨fun c rows => ⟨flatMap_runsFrom c rows, map_fst_runsFrom c rows, length_runsFrom c rows, fun p hp => runsFrom_nodup hp⟩, fun s t g w ready => ?_⟩
  intro x pipe
  have detector := State.ready_hazard ready
  obtain ⟨idle, unowned⟩ := State.ready_unowned ready
  refine ⟨?_, ?_, ?_⟩
  · intro f code reserved int zero a b nb sx shadow pad u cycles panel several format state rows reqs free
    obtain ⟨powered, bus⟩ := rows
    have todo : reqs = panelFetch f a b nb pipe pad := (panelFetch_eq f a b nb pipe pad).symm
    have passes := issueMma_passes detector code reserved idle unowned bus several (mmaStateOk_pass format state)
      (needRows_pass (by rw [panelRows_eq, shadowRows_eq]; exact powered))
    rw [todo] at free ⊢
    exact State.occupies_mono (fun old new ⟨value, drawn⟩ => Sentinel.draw_first drawn) (State.occupies_mma ready rfl several rfl passes free)
  · intro f code out merge act sp s0 s1 s2 entry dst wide vec vecRows buffer vecs reqs writes reserved valid low leak encode rows free rings cycles
    have checks := State.moveChecks_pass ready rows rings
    rw [List.append_assoc] at checks
    exact State.occupies_quiet ready rfl (issueMepi_passes detector code rfl reserved valid low leak encode checks) free nofun nofun
  · intro dot sk k a b dst sa sb entry stepA stepB rowsA rowsB turn step reserved least most populated aligned groups rows free rings
    obtain ⟨powered, bus⟩ := rows
    have turns : turn = fun i => if dot then i else dsmTurn a b k i := funext fun i => by
      cases hdot : dot <;> simp [turn, hdot, dsmTurn]
    have passes := issueDsm_passes detector reserved idle unowned bus least most populated aligned groups (needRows_pass powered) rings
    have issues := State.issues_newDsm (c := .dsm t w) (step := step) (stepA := stepA) (stepB := stepB) (turn := fun i => if dot then i else dsmTurn a b k i)
      ready rfl least (by simp only [step, turns]) rfl passes free
    refine ⟨_, rfl, issues, fun two i hi => ?_⟩
    cases hdot : dot with
    | true =>
      obtain ⟨groupA, groupB, apart⟩ := groups hdot i hi
      simp only [step, stepA, stepB, turns, hdot, if_true] at groupA groupB ⊢
      exact groups_banks groupA groupB apart
    | false =>
      simp only [step, stepA, stepB, turns, hdot, Bool.false_eq_true, if_false, List.singleton_append, List.map_cons, List.map_nil]
      exact List.nodup_cons.2 ⟨fun same => turn_bank two hi (List.mem_singleton.1 same), List.nodup_singleton _⟩

end Sys2Proof.Machine

/- Accumulates into the near tier (R206, R208, R211, R212). -/

namespace Sys2Proof.Machine

/-- A sector of 144 words holds the words that it is made of. -/
theorem word_packNat {f : Nat → Nat} (fits : ∀ i, f i < 2 ^ 32) {i : Nat} (hi : i < 144) :
    (BitVec.ofNat 4608 (packNat 32 f 144)).extractLsb' (32 * i) 32 = BitVec.ofNat 32 (f i) := by
  refine BitVec.eq_of_getLsbD_eq fun k hk => ?_
  have inside : 32 * i + k < 4608 := by omega
  simp only [BitVec.getLsbD_extractLsb', BitVec.getLsbD_ofNat, testBit_packNat fits 144 i hk, hk, hi, inside, decide_true, Bool.true_and]

/-- R211: lane by lane modulo q, in 32-bit integers, or in FP32. -/
theorem accumulateData_lanes (op : AccOp) (a b : SectorBits) (q : Residue) :
    let new := (accumulateData op a b q.toNat).1
    match op with
    | .modAdd => 0 < q.toNat → ∀ i, i < 128 → (lane128 new i).toNat = ((lane128 a i).toNat + (lane128 b i).toNat) % q.toNat
    | .int32Add => ∀ i, i < 144 → new.extractLsb' (32 * i) 32 = a.extractLsb' (32 * i) 32 + b.extractLsb' (32 * i) 32
    | .fp32Add => ∀ i, i < 144 → (new.extractLsb' (32 * i) 32).toNat = (fAdd (a.extractLsb' (32 * i) 32).toNat (b.extractLsb' (32 * i) 32).toNat).bits := by
  cases op with
  | modAdd =>
    intro _ prime i hi
    have small : ((lane128 a i).toNat + (lane128 b i).toNat) % q.toNat < 2 ^ 36 := (Nat.mod_lt _ prime).trans q.isLt
    show (lane128 (sectorOf _) i).toNat = _
    rw [lane128_sectorOf _ hi, ← Nat.add_mod, res_toNat small]
  | int32Add =>
    intro _ i hi
    refine (word_packNat (fun i => (BitVec.ofInt 32 _).isLt) hi).trans ?_
    rw [BitVec.ofNat_toNat, BitVec.setWidth_eq, BitVec.ofInt_add, BitVec.ofInt_toInt, BitVec.ofInt_toInt]
  | fp32Add =>
    intro _ i hi
    have fits : ∀ i, (fAdd (a.extractLsb' (32 * i) 32).toNat (b.extractLsb' (32 * i) 32).toNat).bits < 2 ^ 32 := fun i => (fp32_encode_isResult _).1
    refine (congrArg BitVec.toNat (word_packNat fits hi)).trans ?_
    rw [BitVec.toNat_ofNat, Nat.mod_eq_of_lt (fits i)]

/-- What a sector holds after it is stored, and what every other one does. -/
theorem Mem.peekNear_pokeNear (m : Mem) (p o : Nat) (x : Sector) (kept : m.retiredNear.contains p = false) (wf : m.wf = true) :
    (m.pokeNear p o x).peekNear p o = x ∧ ∀ p' o', p' * 113 + o' ≠ p * 113 + o → (m.pokeNear p o x).peekNear p' o' = m.peekNear p' o' := by
  obtain ⟨cs, stores⟩ := Mem.writeNear_stores m p o x kept
  have read := Mem.peekNear_writeNear m p o x kept wf
  rw [stores] at read
  exact read

/-- R206: a read of a sector in place that meets uncorrectable codewords poisons them; where it meets none it changes nothing. -/
theorem Dev.memUe_met (d : Dev) (p o : Nat) (ue : BitVec 32) (kept : d.mem.retiredNear.contains p = false) (wf : d.mem.wf = true) :
    ∃ m fresh log host, d.memUe p o ue = { d with mem := m, fresh := fresh, log := log, host := host } ∧
      m = { d.mem with near := m.near, channels := m.channels } ∧ m.wf = true ∧
      m.peekNear p o = { d.mem.peekNear p o with poison := (d.mem.peekNear p o).poison ||| ue } ∧
      (∀ p' o', p' * 113 + o' ≠ p * 113 + o → m.peekNear p' o' = d.mem.peekNear p' o') ∧ (ue = 0 → log = d.log ∧ host = d.host) := by
  by_cases none : ue = 0
  · subst none
    exact ⟨d.mem, d.fresh, d.log, d.host, by simp [Dev.memUe], rfl, wf, by simp, fun _ _ _ => rfl, fun _ => ⟨rfl, rfl⟩⟩
  · obtain ⟨here, elsewhere⟩ := Mem.peekNear_pokeNear d.mem p o { d.mem.peekNear p o with poison := (d.mem.peekNear p o).poison ||| ue } kept wf
    have stored := Mem.pokeNear_wf d.mem p o { d.mem.peekNear p o with poison := (d.mem.peekNear p o).poison ||| ue } wf
    simp only [Dev.memUe, none, if_false, kept, Bool.false_eq_true]
    rw [Dev.event_frame]
    exact ⟨_, _, _, _, rfl, rfl, stored, here, elsewhere, False.elim⟩

/-- R211: an accumulate reads the sector and stores the sum, with the poison of both. -/
theorem Mem.accumulate_adds (m : Mem) (op : AccOp) (s : Nat) (operand : Sector) (q : Nat) (kept : m.retiredNear.contains (m.nearKey s).1 = false) :
    let k := m.nearKey s
    let x := m.peekNear k.1 k.2
    ∃ cs, m.accumulate op s operand q =
      { m.pokeNear k.1 k.2 { data := (accumulateData op x.data operand.data q).1, poison := x.poison ||| operand.poison } with channels := cs } := by
  intro k x
  refine ⟨(m.accumulate op s operand q).channels, ?_⟩
  have here : m.retiredNear.contains (m.place (s / 113)) = false := kept
  simp only [Mem.accumulate, Mem.onChannel, Mem.setChannel, Mem.nearKey, here, Bool.false_eq_true, if_false]
  rfl

/-- R206, R211, R212: an accumulate that is served. -/
theorem Dev.accumulate_served (d : Dev) (op : AccOp) (s : Nat) (operand : Sector) (q : Nat) (e : SectorEcc) (wf : d.mem.wf = true)
    (kept : d.mem.retiredNear.contains (d.mem.nearKey s).1 = false) :
    let k := d.mem.nearKey s
    let x := d.mem.peekNear k.1 k.2
    ∃ m fresh log host, d.accumulate op s operand q e = { d with mem := m, fresh := fresh, log := log, host := host } ∧
      m = { d.mem with near := m.near, channels := m.channels } ∧ (e.ue = 0 → log = d.log ∧ host = d.host) ∧
      m.peekNear k.1 k.2 = { data := (accumulateData op x.data operand.data q).1, poison := x.poison ||| e.ue ||| operand.poison } ∧
      ∀ p o, p * 113 + o ≠ k.1 * 113 + k.2 → m.peekNear p o = d.mem.peekNear p o := by
  intro k x
  obtain ⟨m, fresh, log, host, met, frame, stays, here, elsewhere, quiet⟩ := Dev.memUe_met (d.memCe k.1 e.ce) k.1 k.2 e.ue kept wf
  have key : m.nearKey s = k := by rw [frame]; rfl
  have keeps : m.retiredNear.contains (m.nearKey s).1 = false := by rw [key, frame]; exact kept
  obtain ⟨cs, adds⟩ := Mem.accumulate_adds m op s operand q keeps
  rw [key, here] at adds
  obtain ⟨new, others⟩ := Mem.peekNear_pokeNear m k.1 k.2
    { data := (accumulateData op x.data operand.data q).1, poison := x.poison ||| e.ue ||| operand.poison } (by rw [frame]; exact kept) stays
  have served : ∃ fresh, d.accumulate op s operand q e = { d with mem := m.accumulate op s operand q, fresh := fresh, log := log, host := host } := by
    simp only [Dev.accumulate, kept, Bool.false_eq_true, if_false]
    rw [met]
    exact ⟨_, rfl⟩
  obtain ⟨fresh', served⟩ := served
  refine ⟨m.accumulate op s operand q, fresh', log, host, served, ?_, quiet, ?_, fun p o ne => ?_⟩
  · rw [adds, frame]
    rfl
  · rw [adds]
    exact new
  · rw [adds]
    exact (others p o ne).trans (elsewhere p o ne)

end Sys2Proof.Machine

/- Chain packets (R116, R137, R146). -/

namespace Sys2Proof.Machine

/-- Between two compute dies traffic crosses no link but the four of the ring (R14). -/
theorem ringPath_links {a b l : Nat} (ha : a < 4) (hb : b < 4) (hl : l ∈ ringPath a b) : l ∈ [0, 1, 2, 3] := by
  have links : l < 4 := by
    unfold ringPath at hl
    split at hl <;> simp only [List.mem_cons, List.not_mem_nil, or_false] at hl <;> omega
  simp only [List.mem_cons, List.not_mem_nil, or_false]
  omega

/-- Where no die link is held, none on a path is. -/
theorem Dev.linkHeld_free {d : Dev} (free : d.linkHeld [0, 1, 2, 3] = false) {a b : Nat} (ha : a < 4) (hb : b < 4) : d.linkHeld (ringPath a b) = false := by
  refine List.any_eq_false.2 fun l hl => ?_
  exact List.any_eq_false.1 free l (ringPath_links ha hb hl)

/-- A packet whose rows all exist, once its links let it through. -/
theorem Dev.packetTransfer_passes {d : Dev} {t : TileId} {p : ChainPacket} {rest : List ChainPacket} (outbox : (d.tile t).nma.outbox = p :: rest)
    (free : d.linkHeld [0, 1, 2, 3] = false) (powered : ∀ r ∈ rowsFrom p.row p.rows.length, (d.tile p.tile).powered r = true) :
    d.packetTransfer t = some ⟨p.tile, p.ready, (rowsFrom p.row p.rows.length).drop p.landed⟩ := by
  have path : d.linkHeld (ringPath (t.toNat / 16) (p.tile.toNat / 16)) = false := Dev.linkHeld_free free (by omega) (by omega)
  have all : (rowsFrom p.row p.rows.length).takeWhile (fun r => (d.tile p.tile).powered r) = rowsFrom p.row p.rows.length :=
    List.takeWhile_eq_self_iff.2 powered
  simp only [Dev.packetTransfer, outbox, path, Bool.false_eq_true, if_false, all]

theorem rowsFrom_nodup (first n : Nat) : (rowsFrom first n).Nodup := List.Nodup.map_on (fun _ _ _ _ => Nat.add_left_cancel) List.nodup_range

theorem ChainPacket.rowsAt_keys (p : ChainPacket) (k : Nat) :
    (p.rowsAt k ((rowsFrom p.row p.rows.length).drop k)).map (·.1) = (rowsFrom p.row p.rows.length).drop k :=
  List.map_fst_zip (by simp [rowsFrom])

theorem ChainPacket.mem_rowsAt (p : ChainPacket) {k r : Nat} (least : p.row + k ≤ r) (most : r < p.row + p.rows.length) :
    (r, ({ data := p.rows[r - p.row] } : Row)) ∈ p.rowsAt k ((rowsFrom p.row p.rows.length).drop k) := by
  refine List.mem_iff_getElem.2 ⟨r - p.row - k, by simp [ChainPacket.rowsAt, rowsFrom]; omega, ?_⟩
  have place : k + (r - p.row - k) = r - p.row := by omega
  simp only [ChainPacket.rowsAt, rowsFrom, List.getElem_zip, List.getElem_drop, List.getElem_map, List.getElem_range, place]
  congr 1
  omega

/-- Slots that ports take leave the rest of the tile. -/
theorem Tile.takeSlots_frame (x : Tile) (wall : Nat) (rows : List Nat) : ∃ slotWall slotReads slotWrites before,
    x.takeSlots wall rows = { x with slotWall := slotWall, slotReads := slotReads, slotWrites := slotWrites, before := before } := by
  induction rows generalizing x with
  | nil => exact ⟨_, _, _, _, rfl⟩
  | cons r rows ih =>
    obtain ⟨slotWall, slotReads, slotWrites, before, rest⟩ := ih (x.takeSlot wall (bankOf r) true)
    refine ⟨slotWall, slotReads, slotWrites, before, rest.trans ?_⟩
    unfold Tile.takeSlot
    split <;> rfl

/-- Rows that come in through a port: nothing of the tile changes but them and what the ports keep. -/
theorem Tile.landRows_frame (x : Tile) (wall : Nat) (rows : List Nat) (rs : List (Nat × Row)) :
    ∃ scratch ceRows reads slotWall slotReads slotWrites before, (x.takeSlots wall rows).portWrite rs = { x with
      scratch := scratch, ceRows := ceRows, reads := reads, slotWall := slotWall, slotReads := slotReads, slotWrites := slotWrites, before := before } := by
  obtain ⟨slotWall, slotReads, slotWrites, _, taken⟩ := Tile.takeSlots_frame x wall rows
  obtain ⟨scratch, ceRows, reads, before, written⟩ := Tile.portWrite_frame (x.takeSlots wall rows) rs
  refine ⟨scratch, ceRows, reads, slotWall, slotReads, slotWrites, before, written.trans ?_⟩
  rw [taken]

theorem Tile.landRows_keeps (x : Tile) (wall : Nat) (rows : List Nat) (rs : List (Nat × Row)) :
    let y := (x.takeSlots wall rows).portWrite rs
    y.halted = x.halted ∧ y.haltRank = x.haltRank ∧ y.haltIssue = x.haltIssue ∧ y.segments = x.segments ∧ y.arriving = x.arriving := by
  obtain ⟨_, _, _, _, _, _, _, frame⟩ := Tile.landRows_frame x wall rows rs
  simp only [frame, and_self]

theorem Tile.takeSlots_scratch (x : Tile) (wall : Nat) (rows : List Nat) : (x.takeSlots wall rows).scratch = x.scratch := by
  obtain ⟨_, _, _, _, taken⟩ := Tile.takeSlots_frame x wall rows
  rw [taken]

/-- R116: what the rows of the receiving tile hold once a packet's rows have landed. -/
theorem ChainPacket.rowAt_landed (p : ChainPacket) {x : Tile} (wf : x.wf = true) (wall r : Nat) :
    let rows := (rowsFrom p.row p.rows.length).drop p.landed
    ((x.takeSlots wall rows).portWrite (p.rowsAt p.landed rows)).rowAt r =
      if h : p.row + p.landed ≤ r ∧ r < p.row + p.rows.length then { data := p.rows[r - p.row], poison := 0 } else x.rowAt r := by
  intro rows
  have same : (x.takeSlots wall rows).wf = true := by rw [Tile.wf, Tile.takeSlots_scratch]; exact wf
  have keys := p.rowsAt_keys p.landed
  split
  next inside =>
    obtain ⟨least, most⟩ := inside
    have once : ((p.rowsAt p.landed rows).map (·.1)).Nodup := by
      rw [keys]
      exact (rowsFrom_nodup _ _).sublist (List.drop_sublist _ _)
    exact Tile.rowAt_portWrite same once (p.mem_rowsAt least most)
  next outside =>
    have other : r ∉ (p.rowsAt p.landed rows).map (·.1) := fun mem => outside <| by
      rw [keys] at mem
      obtain ⟨i, hi, rfl⟩ := List.mem_iff_getElem.1 mem
      simp only [rowsFrom, List.length_drop, List.length_map, List.length_range] at hi
      simp only [rowsFrom, List.getElem_drop, List.getElem_map, List.getElem_range]
      omega
    refine (Tile.rowAt_portWrite_other same _ other).trans ?_
    unfold Tile.rowAt
    rw [Tile.takeSlots_scratch]

theorem Dev.arriveAt_eq (d : Dev) (u : TileId) (c : BitVec 6) (by_ : Option (TileId × BitVec 2)) :
    ∃ run, d.arriveAt u c by_ = ({ d with run := run } : Dev).setTile u ((d.tile u).arrive d.tick.wall c) := by
  unfold Dev.arriveAt
  exact ⟨_, Dev.onTile_kept _ u (·.arrive d.tick.wall c) rfl rfl rfl⟩

theorem exec_chainPacketLand (t : TileId) (s : State) : exec (.chainPacketLand t) s = execChainPacketLand t s := rfl

/-- R116, R137: a packet that may complete lands: its sender gives it up, its rows stand in the receiving tile, and the counter's rise is due. -/
theorem State.chainPacket_lands {s : State} {t : TileId} {p : ChainPacket} {rest : List ChainPacket} (outbox : (s.dev.tile t).nma.outbox = p :: rest)
    (apart : p.tile ≠ t) (free : s.dev.linkHeld [0, 1, 2, 3] = false) (opens : s.dev.portsOpen p.tile = true)
    (completes : s.dev.completes ⟨p.tile, p.ready, (rowsFrom p.row p.rows.length).drop p.landed⟩ = true)
    (powered : ∀ r ∈ rowsFrom p.row p.rows.length, (s.dev.tile p.tile).powered r = true) :
    let rows := (rowsFrom p.row p.rows.length).drop p.landed
    let sender := { s.dev.tile t with nma := { (s.dev.tile t).nma with outbox := rest } }
    let landed := ((s.dev.tile p.tile).takeSlots s.dev.tick.wall rows).portWrite (p.rowsAt p.landed rows)
    ∃ run, s.answers (.chainPacketLand t)
      ((({ s.dev with run := run } : Dev).setTile t sender).setTile p.tile (landed.arrive s.dev.tick.wall p.counter)) := by
  intro rows sender landed
  obtain ⟨halted, rank, issue, segments, -⟩ := Tile.landRows_keeps (s.dev.tile p.tile) s.dev.tick.wall rows (p.rowsAt p.landed rows)
  have sends : s.dev.onTile t (fun y => { y with nma := { y.nma with outbox := rest } }) = s.dev.setTile t sender := Dev.onTile_kept _ _ _ rfl rfl rfl
  have receiver : (s.dev.setTile t sender).tile p.tile = s.dev.tile p.tile := Dev.tile_setTile_other _ _ apart.symm
  have lands : (s.dev.setTile t sender).onTile p.tile (fun y =>
      (y.takeSlots (s.dev.setTile t sender).tick.wall ((rowsFrom p.row p.rows.length).drop p.landed)).portWrite
        (p.rowsAt p.landed ((rowsFrom p.row p.rows.length).drop p.landed))) = (s.dev.setTile t sender).setTile p.tile landed := by
    refine (Dev.onTile_kept _ _ _ ?_ ?_ ?_).trans ?_ <;> rw [receiver]
    · exact halted
    · exact rank
    · exact issue
    · rfl
  have exist : (rowsFrom p.row p.rows.length).find? (fun r => !landed.powered r) = none := List.find?_eq_none.2 fun r hr => by
    have same : landed.powered r = (s.dev.tile p.tile).powered r := by
      unfold Tile.powered
      rw [segments]
    simp [same, powered r hr]
  obtain ⟨run, arrives⟩ := Dev.arriveAt_eq ((s.dev.setTile t sender).setTile p.tile landed) p.tile p.counter none
  refine ⟨run, State.answers_of_act (exec_chainPacketLand t s) ?_⟩
  simp only [outbox, Dev.packetTransfer_passes outbox free powered, opens, completes, Bool.and_self, Bool.not_true, Bool.false_eq_true, if_false, sends]
  rw [lands, Dev.tile_setTile]
  simp only [exist]
  rw [arrives, Dev.tile_setTile]
  exact Dev.setTile_setTile (({ s.dev with run := run } : Dev).setTile t sender) p.tile landed _

end Sys2Proof.Machine

/- Packets and accumulates. -/

namespace Sys2Proof.Machine

theorem exec_accumulate (op : AccOp) (sector : Nat) (operand : SectorBits) (errors : AccErrors) (prime : Residue) (s : State) :
    exec (.accumulate op sector operand errors prime) s = execAccumulate op sector operand errors prime s := rfl

/-- R211: an accumulate to a sector that exists comes to its channel. -/
theorem State.accumulate_received {s : State} {sector : Nat} (valid : s.dev.mem.nearValid sector = true) (power : s.dev.pins.tripped = false)
    (op : AccOp) (operand : SectorBits) (errors : AccErrors) (prime : Residue) :
    s.answers (.accumulate op sector operand errors prime) (s.dev.receive (.accumulate op sector operand errors.operand prime errors.target)) :=
  State.answers_of_act (exec_accumulate op sector operand errors prime s) (by simp only [valid, power, Bool.not_false, Bool.and_self, if_true])

/-- Sectors of different keys lie apart in the store. -/
theorem Mem.nearKey_apart (m : Mem) (s : Nat) {p o : Nat} (sector : o < 113) (other : (p, o) ≠ m.nearKey s) :
    p * 113 + o ≠ (m.nearKey s).1 * 113 + (m.nearKey s).2 := by
  intro same
  have own : (m.nearKey s).2 < 113 := Nat.mod_lt _ (by decide)
  exact other (Prod.ext (by show p = (m.nearKey s).1; omega) (by show o = (m.nearKey s).2; omega))

/-- Settles O46: a packet's rows land through the port and its counter's rise is due; an accumulate is queued behind what it must wait for, or is served at
the sector's key and leaves every other sector. -/
theorem packetsAndAccumulates : Obligations.PacketsAndAccumulates := by
  refine fun s => ⟨fun t p rest outbox apart _ free opens completes exist wf => ?_, fun op sector operand poison prime ecc valid power => ?_⟩
  · have powered : ∀ r ∈ rowsFrom p.row p.rows.length, (s.dev.tile p.tile).powered r = true := fun r hr => by
      obtain ⟨k, hk, rfl⟩ := List.mem_map.1 hr
      exact exist k (List.mem_range.1 hk)
    obtain ⟨run, lands⟩ := State.chainPacket_lands outbox apart free opens completes powered
    obtain ⟨-, -, -, -, arriving⟩ := Tile.landRows_keeps (s.dev.tile p.tile) s.dev.tick.wall ((rowsFrom p.row p.rows.length).drop p.landed)
      (p.rowsAt p.landed ((rowsFrom p.row p.rows.length).drop p.landed))
    refine ⟨_, lands, ?_, ?_, fun r => ?_, fun u hu hp => ?_, rfl⟩
    · rw [Dev.tile_setTile_other _ _ apart, Dev.tile_setTile]
    · rw [Dev.tile_setTile]
      exact congrArg (· ++ [(s.dev.tick.wall, p.counter)]) arriving
    · rw [Dev.tile_setTile]
      exact p.rowAt_landed wf s.dev.tick.wall r
    · rw [Dev.tile_setTile_other _ _ (Ne.symm hp), Dev.tile_setTile_other _ _ (Ne.symm hu)]
      rfl
  · intro h
    have received := State.accumulate_received valid power op operand { operand := poison, target := ecc } prime
    refine ⟨fun waits => ?_, ?_⟩
    · rwa [Dev.receive_waits s.dev waits] at received
    intro key old served wf kept
    have there : s.dev.mem.retiredNear.contains (s.dev.mem.nearKey sector).1 = false := by simpa using kept
    obtain ⟨m, fresh, log, host, adds, frame, quiet, here, elsewhere⟩ :=
      Dev.accumulate_served s.dev op sector { data := operand, poison := poison } prime.toNat ecc wf there
    rw [Dev.receive_serves s.dev served] at received
    have result : s.answers (.accumulate op sector operand { operand := poison, target := ecc } prime)
        { s.dev with mem := m, fresh := fresh, log := log, host := host } := adds ▸ received
    refine ⟨_, result, by rw [← frame], quiet, fun p o sector' other => elsewhere p o (Mem.nearKey_apart _ _ sector' other), ?_⟩
    simp only [key, here]
    exact ⟨rfl, accumulateData_lanes op _ operand prime⟩

end Sys2Proof.Machine

/- What the scratchpad's ports grant (R131, R134, R136). -/

namespace Sys2Proof.Machine

/-- Tiles that differ in nothing that the ports' requests and slots depend on. -/
structure Tile.SamePorts (x y : Tile) : Prop where
  dma : x.dma = y.dma
  nma : x.nma = y.nma
  sent : x.sent = y.sent
  rings : x.rings = y.rings
  expands : x.expands = y.expands
  segments : x.segments = y.segments
  pend : x.pend = y.pend
  holds : x.holds = y.holds
  slotWall : x.slotWall = y.slotWall
  slotReads : x.slotReads = y.slotReads
  slotWrites : x.slotWrites = y.slotWrites

theorem Tile.SamePorts.rfl {x : Tile} : x.SamePorts x := by constructor <;> rfl

/-- What a port grants depends on no more of the tiles. -/
theorem Dev.portGrants_congr {d e : Dev} (frame : e = { d with tiles := e.tiles }) (same : ∀ u, (e.tile u).SamePorts (d.tile u)) (r : PortReq) :
    e.portGrants r = d.portGrants r := by
  have dma := fun u => (same u).dma
  have nma := fun u => (same u).nma
  have sent := fun u => (same u).sent
  have rings := fun u => (same u).rings
  have expands := fun u => (same u).expands
  have segments := fun u => (same u).segments
  have pend := fun u => (same u).pend
  have holds := fun u => (same u).holds
  have wall := fun u => (same u).slotWall
  have reads := fun u => (same u).slotReads
  have writes := fun u => (same u).slotWrites
  generalize e.tiles = tiles at frame
  subst frame
  simp only [Dev.portGrants, Dev.portsOpen, Dev.slotFree, Dev.portReqs, Dev.transfers, Dev.packetTransfer, Dev.fillTransfer, Dev.expandTransfer,
    Dev.sampleReqs, Dev.arrayHeld, Dev.unitsHeld, Dev.waits, Tile.waitFreezes, Tile.powered, dma, nma, sent, rings, expands, segments, pend, holds, wall,
    reads, writes]
  rfl

/-- One tile replaced by one that differs in nothing the ports depend on. -/
theorem Dev.portGrants_setTile {d : Dev} {t : TileId} {x y : Tile} (same : y.SamePorts x) (r : PortReq) :
    (d.setTile t y).portGrants r = (d.setTile t x).portGrants r := by
  refine Dev.portGrants_congr rfl (fun u => ?_) r
  by_cases hu : t = u
  · subst hu
    rwa [Dev.tile_setTile, Dev.tile_setTile]
  · rw [Dev.tile_setTile_other _ _ hu, Dev.tile_setTile_other _ _ hu]
    exact Tile.SamePorts.rfl

theorem Tile.takeSlot_now {x : Tile} {wall : Nat} (now : x.slotWall = wall) (bank : Nat) :
    x.takeSlot wall bank false = { x with slotReads := x.slotReads ++ [bank] } := by
  simp only [Tile.takeSlot, now, if_true, Bool.false_eq_true, if_false]

/-- The first slot taken in a wall cycle begins its account. -/
theorem Tile.takeSlot_later {x : Tile} {wall : Nat} (later : x.slotWall ≠ wall) (bank : Nat) :
    x.takeSlot wall bank false = { x with slotWall := wall, slotReads := [bank], slotWrites := [], before := [] } := by
  simp only [Tile.takeSlot, later, if_false, Bool.false_eq_true, List.nil_append]

/-- A bank's read slot taken: of the tile only the ports' account changes. -/
theorem Tile.takeSlot_frame (x : Tile) (wall bank : Nat) : ∃ slotReads slotWrites before, x.takeSlot wall bank false =
    { x with slotWall := wall, slotReads := slotReads ++ [bank], slotWrites := slotWrites, before := before } := by
  by_cases now : x.slotWall = wall
  · exact ⟨x.slotReads, x.slotWrites, x.before, by rw [Tile.takeSlot_now now, ← now]⟩
  · exact ⟨[], [], [], Tile.takeSlot_later now bank⟩

theorem Tile.takeSlot_sent (x : Tile) (wall bank : Nat) : (x.takeSlot wall bank false).sent = x.sent := by
  obtain ⟨_, _, _, frame⟩ := Tile.takeSlot_frame x wall bank
  rw [frame]

theorem Tile.takeSlot_ceOther (x : Tile) (wall bank : Nat) : (x.takeSlot wall bank false).ceOther = x.ceOther := by
  obtain ⟨_, _, _, frame⟩ := Tile.takeSlot_frame x wall bank
  rw [frame]

/-- A slot taken leaves what a port reads of a row in this cycle. -/
theorem Tile.bankRow_takeSlot (x : Tile) (wall bank r : Nat) : (x.takeSlot wall bank false).bankRow wall r = x.bankRow wall r := by
  by_cases now : x.slotWall = wall
  · rw [Tile.takeSlot_now now]
    rfl
  · rw [Tile.takeSlot_later now]
    simp only [Tile.bankRow, now, if_true, if_false, List.find?_nil]
    rfl

/-- A bank whose read slot has been taken serves no further read in this cycle. -/
theorem Dev.portGrants_taken (d : Dev) (t : TileId) (x : Tile) {r : PortReq} (tile : r.tile = t) (reads : r.write = false) :
    (d.setTile t (x.takeSlot d.tick.wall r.bank false)).portGrants r = false := by
  have taken : (d.setTile t (x.takeSlot d.tick.wall r.bank false)).slotFree t r.bank false = false := by
    obtain ⟨slotReads, _, _, frame⟩ := Tile.takeSlot_frame x d.tick.wall r.bank
    simp only [Dev.slotFree, Dev.tile_setTile, frame]
    simp
  simp only [Dev.portGrants, tile, reads, taken, Bool.and_false, Bool.false_and]

/-- A read that meets no error of a row that is not poisoned. -/
theorem Dev.portRead_clean {d : Dev} {t : TileId} {row : Nat} (port : BitVec 2) (whole : ((d.tile t).bankRow d.tick.wall row).1.poison = 0)
    (right : ((d.tile t).bankRow d.tick.wall row).2 = false) :
    d.portRead t row port false 0 = (d, { data := ((d.tile t).bankRow d.tick.wall row).1.data, poison := 0 }) := by
  simp [Dev.portRead, Dev.readsCorrected, right, whole]

/-- R142: a read whose error the ECC corrects. -/
theorem Dev.portRead_corrected {d : Dev} {t : TileId} {row : Nat} (port : BitVec 2) (whole : ((d.tile t).bankRow d.tick.wall row).1.poison = 0) :
    d.portRead t row port true 0 = (d.setTile t ((d.tile t).ceRead row (!(d.tile t).writtenIn d.tick.wall row)),
      { data := ((d.tile t).bankRow d.tick.wall row).1.data, poison := 0 }) := by
  have kept : d.onTile t (fun y => y.ceRead row (!y.writtenIn d.tick.wall row)) =
      d.setTile t ((d.tile t).ceRead row (!(d.tile t).writtenIn d.tick.wall row)) := by
    refine Dev.onTile_kept _ _ _ ?_ ?_ ?_ <;> (unfold Tile.ceRead; split <;> rfl)
  simp [Dev.portRead, Dev.readsCorrected, whole, kept]

end Sys2Proof.Machine

/- A sample of the sentinel (R113, R115). -/

namespace Sys2Proof.Machine

/-- The row of a sample that one of its reads is for, and the sample with what that read gave. -/
def SentSample.row (x : SentSample) (second : Bool) : Nat := if second then (x.rows false).2 else (x.rows false).1
def SentSample.has (x : SentSample) (second : Bool) : Option (Nat × Payload) := if second then x.gotB else x.gotA
def SentSample.gets (x : SentSample) (second : Bool) (got : Nat × Payload) : SentSample :=
  if second then { x with gotB := some got } else { x with gotA := some got }

theorem Dev.onTile_takeSlot (d : Dev) (t : TileId) (wall bank : Nat) :
    d.onTile t (fun y => y.takeSlot wall bank false) = d.setTile t ((d.tile t).takeSlot wall bank false) := by
  obtain ⟨_, _, _, frame⟩ := Tile.takeSlot_frame (d.tile t) wall bank
  refine Dev.onTile_kept _ _ _ ?_ ?_ ?_ <;> rw [frame]

/-- A row that the port does not grant, or that is there, is not read. -/
theorem Dev.sampleRow_refused {d : Dev} {t : TileId} {x : SentSample} {second : Bool} (refused : d.portGrants (x.req t false second) = false) (seen : RowEcc) :
    d.sampleRow t false second x seen = (d, x) := by
  simp only [Dev.sampleRow, refused, Bool.not_false, Bool.or_true, if_true]

section Reads

variable {d : Dev} {t : TileId} {x : SentSample} {second : Bool} (missing : x.has second = none) (granted : d.portGrants (x.req t false second) = true)
include missing granted

/-- A row of a sample that is granted its slot is read, and is there after the delay of its ECC. -/
theorem Dev.sampleRow_reads {seen : RowEcc} {e : Dev} {payload : Payload}
    (reads : (d.setTile t ((d.tile t).takeSlot d.tick.wall (bankOf (x.row second)) false)).portRead t (x.row second) 2 seen.corrected seen.uncorrectable =
      (e, payload)) :
    d.sampleRow t false second x seen = (e, x.gets second (d.tick.wall + d.readLate t (x.row second) seen.corrected, payload)) := by
  rw [← Dev.onTile_takeSlot] at reads
  cases second <;>
    simp only [SentSample.has, SentSample.row, Bool.false_eq_true, if_false, if_true] at missing reads <;>
    simp only [Dev.sampleRow, missing, granted, reads, Option.isSome_none, Bool.not_true, Bool.or_self, Bool.false_eq_true, if_false, if_true] <;> rfl

variable (whole : ((d.tile t).bankRow d.tick.wall (x.row second)).1.poison = 0)
include whole

theorem Dev.sampleRow_clean (right : ((d.tile t).bankRow d.tick.wall (x.row second)).2 = false) :
    d.sampleRow t false second x {} = (d.setTile t ((d.tile t).takeSlot d.tick.wall (bankOf (x.row second)) false),
      x.gets second (d.tick.wall, { data := ((d.tile t).bankRow d.tick.wall (x.row second)).1.data, poison := 0 })) := by
  have same : (((d.setTile t ((d.tile t).takeSlot d.tick.wall (bankOf (x.row second)) false)).tile t).bankRow d.tick.wall (x.row second)) =
      (d.tile t).bankRow d.tick.wall (x.row second) := by rw [Dev.tile_setTile, Tile.bankRow_takeSlot]
  have reads := Dev.portRead_clean (d := d.setTile t ((d.tile t).takeSlot d.tick.wall (bankOf (x.row second)) false)) (row := x.row second) 2
    (same ▸ whole) (same ▸ right)
  have now : d.readLate t (x.row second) false = 0 := by simp [Dev.readLate, Dev.readsCorrected, right]
  refine (Dev.sampleRow_reads missing granted reads).trans ?_
  rw [now, Nat.add_zero, ← same]
  rfl

theorem Dev.sampleRow_corrected :
    d.sampleRow t false second x { corrected := true } =
      (d.setTile t (((d.tile t).takeSlot d.tick.wall (bankOf (x.row second)) false).ceRead (x.row second)
        (!((d.tile t).takeSlot d.tick.wall (bankOf (x.row second)) false).writtenIn d.tick.wall (x.row second))),
      x.gets second (d.tick.wall + 2, { data := ((d.tile t).bankRow d.tick.wall (x.row second)).1.data, poison := 0 })) := by
  have same : (((d.setTile t ((d.tile t).takeSlot d.tick.wall (bankOf (x.row second)) false)).tile t).bankRow d.tick.wall (x.row second)) =
      (d.tile t).bankRow d.tick.wall (x.row second) := by rw [Dev.tile_setTile, Tile.bankRow_takeSlot]
  have reads := Dev.portRead_corrected (d := d.setTile t ((d.tile t).takeSlot d.tick.wall (bankOf (x.row second)) false)) (row := x.row second) 2
    (same ▸ whole)
  rw [Dev.tile_setTile, Dev.setTile_setTile] at reads
  refine (Dev.sampleRow_reads missing granted reads).trans ?_
  rw [← Tile.bankRow_takeSlot (d.tile t) d.tick.wall (bankOf (x.row second))]
  rfl

end Reads

/-- The second of a sample's reads, once the first has changed the tile. -/
theorem Dev.sampleRow_next {d : Dev} {t : TileId} {y : Tile} {x : SentSample} (got : Nat × Payload) (missing : x.gotB = none)
    (granted : (d.setTile t y).portGrants (x.req t false true) = true) (whole : (y.bankRow d.tick.wall (x.row true)).1.poison = 0)
    (right : (y.bankRow d.tick.wall (x.row true)).2 = false) :
    (d.setTile t y).sampleRow t false true (x.gets false got) {} = (d.setTile t (y.takeSlot d.tick.wall (bankOf (x.row true)) false),
      (x.gets false got).gets true (d.tick.wall, { data := (y.bankRow d.tick.wall (x.row true)).1.data, poison := 0 })) := by
  have reads := Dev.sampleRow_clean (d := d.setTile t y) (t := t) (x := x.gets false got) (second := true) missing granted
  rw [Dev.tile_setTile] at reads
  refine (reads whole right).trans ?_
  rw [Dev.setTile_setTile]
  rfl

/-- R113: a sample goes on once both of its rows are there. -/
theorem SentSample.operands_both (x : SentSample) (wall : Nat) (p q : Payload) :
    ((x.gets false (wall, p)).gets true (wall, q)).operands wall = some (p, q) := by
  simp [SentSample.gets, SentSample.operands]

theorem SentSample.operands_late (x : SentSample) (wall : Nat) (p q : Payload) :
    ((x.gets false (wall + 2, p)).gets true (wall, q)).operands wall = none := by
  simp [SentSample.gets, SentSample.operands]

theorem SentSample.operands_one {x : SentSample} (missing : x.gotB = none) (wall : Nat) (got : Nat × Payload) : (x.gets false got).operands wall = none := by
  simp [SentSample.gets, SentSample.operands, missing]

theorem exec_sentinelSample (t : TileId) (seen : SampleSeen) (s : State) : exec (.sentinelSample t seen) s = execSentinelSample t seen s := rfl

section Samples

variable {s : State} {t : TileId} {x : SentSample} (sample : (s.dev.tile t).sent.sample = some x)
include sample

/-- R113, R115, R136: a block whose value is not known, or that was drawn less than eight cycles ago, or whose units stand still, waits. -/
theorem State.sentinel_closed (shut : x.v = none ∨ s.dev.tick.wall < x.asked + 8 ∨ s.dev.arrayHeld t = true) (seen : SampleSeen) :
    s.answers (.sentinelSample t seen) s.dev := by
  have closed : s.dev.sampleOpen t x = false := by
    rw [Dev.sampleOpen, SentSample.mayRead]
    rcases shut with unknown | early | held
    · simp [unknown]
    · simp [Nat.not_le.2 early]
    · simp [held]
  refine State.answers_of_act (exec_sentinelSample t seen s) ?_
  simp only [sample, closed, Bool.not_false, if_true]

variable (compares : (s.dev.tile t).sent.ctrl.getLsbD 1 = false) (opens : s.dev.sampleOpen t x = true) {seen : SampleSeen} {d e : Dev} {y z : SentSample}
  (first : s.dev.sampleRow t false false x seen.a = (d, y)) (second : d.sampleRow t false true y seen.b = (e, z))
include compares opens first second

/-- A sample one of whose rows is not there yet stays with what has been read. -/
theorem State.sentinel_waits (missing : z.operands s.dev.tick.wall = none) : s.answers (.sentinelSample t seen)
    (e.setTile t { e.tile t with sent := { (e.tile t).sent with sample := some z } }) := by
  refine State.answers_of_act (exec_sentinelSample t seen s) ?_
  simp only [sample, opens, compares, first, second, missing, Bool.not_true, Bool.false_eq_true, if_false]
  exact Dev.onTile_kept _ _ _ rfl rfl rfl

/-- R113: once both rows are there the block is compared; a fault counts and is logged. -/
theorem State.sentinel_ends {p : Payload × Payload} (there : z.operands s.dev.tick.wall = some p) (same : (e.tile t).sent.ctrl.getLsbD 1 = false) :
    let sent := { (e.tile t).sent with sample := none }
    (seen.faulty = false → s.answers (.sentinelSample t seen) (e.setTile t { e.tile t with sent := sent })) ∧
    (seen.faulty = true → s.answers (.sentinelSample t seen) ((e.setTile t { e.tile t with sent := { sent with fault := satInc sent.fault } }).event t.toNat
      evSentinelFault [(16, z.i / 32), (20, e.tick.runTick % 2 ^ 32)])) := by
  refine ⟨fun right => ?_, fun fault => ?_⟩ <;> refine State.answers_of_act (exec_sentinelSample t seen s) ?_
  · simp only [sample, opens, compares, first, second, there, Bool.not_true, Bool.false_eq_true, if_false, Tile.sentinelSample, same, right]
  · simp only [sample, opens, compares, first, second, there, Bool.not_true, Bool.false_eq_true, if_false, Tile.sentinelSample, same, fault, if_true]
    rfl

end Samples

theorem Tile.findError_others (x : Tile) {row r : Nat} (ne : r ≠ row) : (x.findError row 0).ceRows.contains r = x.ceRows.contains r := by
  simp only [Tile.findError, ne_eq, not_true_eq_false, false_or]
  by_cases known : x.ceRows.contains row = true
  · rw [if_pos known]
  · rw [if_neg known, List.contains_cons, beq_eq_false_iff_ne.2 ne, Bool.false_or]

/-- R142: of the tile a corrected read leaves all but its counts and flags, and the account of the row's error. -/
theorem Tile.ceRead_frame (x : Tile) (row : Nat) (new : Bool) : ∃ scrCe ueForwarded arrivalSat arrivalLeftover raised ceRows reads,
    x.ceRead row new = { x with scrCe := scrCe, ueForwarded := ueForwarded, arrivalSat := arrivalSat, arrivalLeftover := arrivalLeftover, raised := raised
                                ceOther := satInc x.ceOther, ceRows := ceRows, reads := reads } ∧
      ∀ r, r ≠ row → ceRows.contains r = x.ceRows.contains r := by
  unfold Tile.ceRead
  split
  · exact ⟨_, _, _, _, _, _, _, rfl, fun r ne => Tile.findError_others x ne⟩
  · exact ⟨_, _, _, _, _, _, _, rfl, fun _ _ => rfl⟩

theorem Tile.samePorts_ceRead (x : Tile) (row : Nat) (new : Bool) : (x.ceRead row new).SamePorts x := by
  obtain ⟨_, _, _, _, _, _, _, frame, -⟩ := Tile.ceRead_frame x row new
  rw [frame]
  constructor <;> rfl

theorem Tile.ceRead_ceOther (x : Tile) (row : Nat) (new : Bool) : (x.ceRead row new).ceOther = satInc x.ceOther := by
  obtain ⟨_, _, _, _, _, _, _, frame, -⟩ := Tile.ceRead_frame x row new
  rw [frame]

theorem Tile.bankRow_ceRead (x : Tile) {row r : Nat} (ne : r ≠ row) (new : Bool) (wall : Nat) : (x.ceRead row new).bankRow wall r = x.bankRow wall r := by
  obtain ⟨_, _, _, _, _, _, _, frame, others⟩ := Tile.ceRead_frame x row new
  rw [frame]
  simp only [Tile.bankRow, others r ne]
  rfl

end Sys2Proof.Machine

/- Updates of firmware and owner record, the test access port, and the links (R218, R244, R396, R402, R444 to R446). -/

namespace Sys2Proof.Machine

variable {s : State}

theorem exec_pldmFwUpdate (slotB : Bool) (version : Word) (component : FwComponent) :
    exec (.pldmFwUpdate slotB version component) s = execPldmFwUpdate slotB version component s := rfl

theorem exec_ownerRecordUpdate (o : OwnerRecord) (sig : Option OwnerSignature) : exec (.ownerRecordUpdate o sig) s = execOwnerRecordUpdate o sig s := rfl

theorem exec_boundaryScanInstruction (i : TapInstruction) : exec (.boundaryScanInstruction i) s = execBoundaryScanInstruction i s := rfl

theorem exec_dieLinkReplay (link : BitVec 3) (cycles : BitVec 16) : exec (.dieLinkReplay link cycles) s = execDieLinkReplay link cycles s := rfl

theorem exec_farLinkDown (link : BitVec 2) : exec (.farLinkDown link) s = execFarLinkDown link s := rfl

/-- R396: the slot that runs is not written, nor one whose component does not verify. -/
theorem State.pldmFwUpdate_refused {slotB : Bool} {version : Word} {component : FwComponent}
    (refused : s.dev.managed = false ∨ s.dev.sec.bootSlot = (if slotB then 2 else 1) ∨ (componentSlot component version).verifies = false) :
    s.answers (.pldmFwUpdate slotB version component) s.dev := by
  refine State.answers_of_act (exec_pldmFwUpdate slotB version component) (if_pos ?_)
  simpa only [Bool.or_eq_true, Bool.not_eq_true', beq_iff_eq, or_assoc] using refused

theorem State.pldmFwUpdate_written {slotB : Bool} {version : Word} {component : FwComponent} (managed : s.dev.managed = true)
    (idle : s.dev.sec.bootSlot ≠ (if slotB then 2 else 1)) (verified : (componentSlot component version).verifies = true) :
    s.answers (.pldmFwUpdate slotB version component) { s.dev with
      flash := if slotB then { s.dev.flash with slotB := componentSlot component version } else { s.dev.flash with slotA := componentSlot component version } } := by
  refine State.answers_of_act (exec_pldmFwUpdate slotB version component) (if_neg ?_)
  simp only [managed, verified, beq_eq_false_iff_ne.2 idle, Bool.not_true, Bool.or_self, Bool.false_eq_true, not_false_eq_true]

/-- R402: whether an owner record may take the place of the one there: of none without a signature, of another with one of its keys. -/
def ownerAllows (owner : Option OwnerRecord) (o : OwnerRecord) (sig : Option OwnerSignature) : Bool :=
  match owner, sig with
  | none, _ => true
  | some _, none => false
  | some old, some g => ownerVerifies (some old) g.keyId g.r g.s (ownerRecordBytes o)

section Owners

variable {o : OwnerRecord} {sig : Option OwnerSignature}

theorem State.ownerRecordUpdate_kept (refused : s.dev.managed = false ∨ ownerAllows s.dev.flash.owner o sig = false) :
    s.answers (.ownerRecordUpdate o sig) s.dev := by
  have stops : (!s.dev.managed || !ownerRecordOk o || !ownerAllows s.dev.flash.owner o sig) = true := by
    rcases refused with unmanaged | forbidden
    · simp [unmanaged]
    · simp [forbidden]
  exact State.answers_of_act (exec_ownerRecordUpdate o sig) (if_pos stops)

theorem State.ownerRecordUpdate_stored (form : ownerRecordOk o = true) (managed : s.dev.managed = true)
    (allowed : ownerAllows s.dev.flash.owner o sig = true) :
    s.answers (.ownerRecordUpdate o sig) { s.dev with flash := { s.dev.flash with owner := ownerRecordStored o } } := by
  have goes : ¬ (!s.dev.managed || !ownerRecordOk o || !ownerAllows s.dev.flash.owner o sig) = true := by simp [form, managed, allowed]
  exact State.answers_of_act (exec_ownerRecordUpdate o sig) (if_neg goes)

end Owners

/-- R446: what the test access port makes of an instruction. -/
theorem State.boundaryScan_answers (i : TapInstruction) (power : s.dev.pins.up = true) : ∃ tap,
    s.answers (.boundaryScanInstruction i) { s.dev with pins := { s.dev.pins with tap := tap, tdoSlew := s.dev.pins.slew.extractLsb' 4 2 } } ∧
    ((s.dev.pins.perst = true ∨ i = .bypass ∨ i = .idcode ∨ i = .samplePreload) → tap = i) ∧
    (s.dev.pins.perst = false → (i = .extest ∨ i = .extestPulse ∨ i = .extestTrain) → tap = .bypass) := by
  refine ⟨_, State.answers_of_act (exec_boundaryScanInstruction i) (if_neg (by simp [power])), ?_, ?_⟩
  · intro acts
    cases i <;> simp_all
  · intro outside family
    cases i <;> simp_all

/-- R244, R393: a replay holds its link for its length and counts in EQ_LINKl. -/
theorem State.dieLinkReplay_answers (link : BitVec 3) (cycles : BitVec 16) (power : s.dev.pins.tripped = false) :
    let w := Store.read eqDefault s.dev.clocks.eqLink link.toNat
    s.answers (.dieLinkReplay link cycles) { s.dev with clocks := { s.dev.clocks with
      eqLink := Store.write eqDefault s.dev.clocks.eqLink link.toNat (satInc (w.extractLsb' 16 16) ++ w.extractLsb' 0 16)
      linkHold := s.dev.clocks.linkHold.set link.toNat (s.dev.tick.wall + cycles.toNat) } } :=
  State.answers_of_act (exec_dieLinkReplay link cycles) (Dev.unlessTripped_powered power _)

/-- A count that stays at its largest value is not 0 once it has risen. -/
theorem satInc_ne_zero (x : BitVec 16) : satInc x ≠ 0 := by
  unfold satInc
  split
  next full => rw [full]; decide
  next below => exact fun none => below (eq_neg_of_add_eq_zero_left none)

theorem append_ne_zero {a : BitVec 16} (risen : a ≠ 0) (b : BitVec 16) : (a ++ b : BitVec (16 + 16)) ≠ 0 := by
  refine fun none => risen (BitVec.eq_of_getLsbD_eq fun k hk => ?_)
  have bit : (a ++ b).getLsbD (16 + k) = false := by rw [none]; exact BitVec.getLsbD_zero
  have high : ¬ 16 + k < 16 := by omega
  rw [BitVec.getLsbD_append] at bit
  simpa [high] using bit

/-- R218: a link that goes down is no longer up, and the loss is logged. -/
theorem State.farLinkDown_answers (link : BitVec 2) (up : s.dev.mem.farUp.getLsbD link.toNat = true) :
    ∃ m : BitVec 4, (∀ k, m.getLsbD k = decide (link.toNat = k)) ∧ s.answers (.farLinkDown link)
      ((s.dev.onMem (fun x => { x with farUp := x.farUp &&& ~~~m, farDown := x.farDown ||| m })).event srcFar evFarLinkDown [(16, link.toNat)]) := by
  refine ⟨BitVec.ofNat 4 (2 ^ link.toNat), fun k => ?_, State.answers_of_act (exec_farLinkDown link) (if_pos up)⟩
  have small : link.toNat < 4 := link.isLt
  rw [BitVec.getLsbD_ofNat, Nat.testBit_two_pow]
  by_cases same : link.toNat = k
  · simp [← same, small]
  · simp [same]

/-- Settles O57: each command is taken through the rule of its own; of a sample's two reads the second waits where both rows lie in one bank, and its grant
does not depend on what the first has found. -/
theorem serviceEvents : Obligations.ServiceEvents := by
  intro s
  refine ⟨fun slotB version component => ?_, fun o format policy keys => ?_, fun t x sample compares => ?_, fun i down => ?_, fun i power => ?_,
    fun link cycles eight power => ?_, fun link up => ?_⟩
  · intro own slot good
    exact ⟨State.pldmFwUpdate_refused, State.pldmFwUpdate_written⟩
  · intro stored
    have form : ownerRecordOk o = true := by simp [ownerRecordOk, format, policy, keys]
    refine ⟨fun unmanaged sig => State.ownerRecordUpdate_kept (.inl unmanaged),
      fun managed unclaimed sig => State.ownerRecordUpdate_stored form managed (by rw [unclaimed]; rfl), fun claimed => ?_, fun sig managed claimed => ?_⟩
    · obtain ⟨old, claimed⟩ := Option.ne_none_iff_exists'.1 claimed
      exact State.ownerRecordUpdate_kept (.inr (by rw [claimed]; rfl))
    · obtain ⟨old, claimed⟩ := Option.ne_none_iff_exists'.1 claimed
      have verdict : ownerAllows s.dev.flash.owner o (some sig) = ownerVerifies s.dev.flash.owner sig.keyId sig.r sig.s (ownerRecordBytes o) := by
        rw [claimed]
        rfl
      split
      next good => exact State.ownerRecordUpdate_stored form managed (verdict.trans good)
      next bad => exact State.ownerRecordUpdate_kept (.inr (verdict.trans (Bool.not_eq_true _ ▸ bad)))
  · intro w rows sent one read clean
    refine ⟨fun seen shut => State.sentinel_closed sample shut seen, fun opens noA noB granted cleanA banks => ?_,
      fun opens noA noB granted grantedB cleanA cleanB apart => ?_⟩
    · obtain ⟨whole, right⟩ := cleanA
      have first := Dev.sampleRow_clean (second := false) noA granted whole right
      have refused : (s.dev.setTile t one).portGrants (x.req t false true) = false := by
        have taken := Dev.portGrants_taken s.dev t (s.dev.tile t) (r := x.req t false true) rfl rfl
        rwa [show (x.req t false true).bank = bankOf rows.1 from banks.symm] at taken
      have answers := State.sentinel_waits sample compares opens (seen := {}) first
        (Dev.sampleRow_refused (x := x.gets false _) refused {}) (SentSample.operands_one noB _ _)
      rwa [Dev.tile_setTile, Dev.setTile_setTile] at answers
    · obtain ⟨wholeA, rightA⟩ := cleanA
      obtain ⟨wholeB, rightB⟩ := cleanB
      refine ⟨?_, ?_⟩
      · let late := one.ceRead rows.1 (!one.writtenIn w rows.1)
        have first := Dev.sampleRow_corrected (second := false) noA granted wholeA
        have same : late.bankRow w rows.2 = (s.dev.tile t).bankRow w rows.2 :=
          (Tile.bankRow_ceRead one (Ne.symm apart) _ w).trans (Tile.bankRow_takeSlot _ _ _ _)
        have second := Dev.sampleRow_next (w + 2, { data := ((s.dev.tile t).bankRow w rows.1).1.data, poison := 0 }) noB
          ((Dev.portGrants_setTile (Tile.samePorts_ceRead one rows.1 _) _).trans grantedB)
          ((congrArg (·.1.poison) same).trans wholeB) ((congrArg (·.2) same).trans rightB)
        refine ⟨_, State.sentinel_waits sample compares opens (seen := { a := { corrected := true } }) first second (SentSample.operands_late x w _ _),
          fun u hu => ?_, ?_, ?_⟩
        · rw [Dev.setTile_setTile, Dev.tile_setTile_other _ _ (Ne.symm hu)]
        · rw [Dev.tile_setTile]
          show ((s.dev.setTile t (late.takeSlot w (bankOf rows.2) false)).tile t).ceOther = _
          rw [Dev.tile_setTile, Tile.takeSlot_ceOther, Tile.ceRead_ceOther, Tile.takeSlot_ceOther]
        · rw [Dev.tile_setTile]
          exact ⟨_, rfl, rfl, rfl⟩
      · have first := Dev.sampleRow_clean (second := false) noA granted wholeA rightA
        have same : one.bankRow w rows.2 = (s.dev.tile t).bankRow w rows.2 := Tile.bankRow_takeSlot _ _ _ _
        have second := Dev.sampleRow_next (w, { data := ((s.dev.tile t).bankRow w rows.1).1.data, poison := 0 }) noB grantedB
          ((congrArg (·.1.poison) same).trans wholeB) ((congrArg (·.2) same).trans rightB)
        have kept : (one.takeSlot s.dev.tick.wall (bankOf (x.row true)) false).sent = (s.dev.tile t).sent := (Tile.takeSlot_sent _ _ _).trans (Tile.takeSlot_sent _ _ _)
        have comparing : ((s.dev.setTile t read).tile t).sent.ctrl.getLsbD 1 = false := by rw [Dev.tile_setTile]; exact (congrArg (·.ctrl.getLsbD 1) kept).trans compares
        obtain ⟨right, -⟩ := State.sentinel_ends sample compares opens (seen := {}) first second (SentSample.operands_both x w _ _) comparing
        obtain ⟨-, fault⟩ := State.sentinel_ends sample compares opens (seen := { faulty := true }) first second (SentSample.operands_both x w _ _) comparing
        have right := right rfl
        have fault := fault rfl
        rw [Dev.tile_setTile, Dev.setTile_setTile, kept] at right fault
        exact ⟨right, fault⟩
  · exact State.answers_of_act (exec_boundaryScanInstruction i) (if_pos (by simp [down]))
  · obtain ⟨tap, answers, same, family⟩ := State.boundaryScan_answers i power
    exact ⟨_, answers, rfl, rfl, same, family⟩
  · refine ⟨_, State.dieLinkReplay_answers link cycles power, ?_, ?_, rfl, rfl⟩
    · have inside : link.toNat < s.dev.clocks.linkHold.length := eight ▸ link.isLt
      simp [List.getD_eq_getElem?_getD, inside]
    · exact Store.read_write_listed eqDefault _ _ (append_ne_zero (satInc_ne_zero _) _)
  · obtain ⟨m, bits, answers⟩ := State.farLinkDown_answers link up
    refine ⟨_, answers, ?_, ?_, ?_, ?_, ?_, fun k other => ?_⟩
    · simp [bits]
    · simp [bits]
    · rw [Dev.event_mem]
      rfl
    · rw [Dev.event_tiles]
      rfl
    · rw [Dev.event_next]
      rfl
    · have inside : s.dev.mem.farUp.getLsbD k = true → k < 4 := BitVec.lt_of_getLsbD
      simpa [bits, Ne.symm other] using inside

end Sys2Proof.Machine

/- Rows that an instruction reads or writes as it issues (R129 to R134, R146, R187, R284, R291). -/

namespace Sys2Proof.Machine



/-- Settles O59: reset lists no row and no sector, and an unlisted row reads as zeros. -/
theorem memoryCanonicalAtReset : Obligations.MemoryCanonicalAtReset := by
  unfold Obligations.MemoryCanonicalAtReset
  refine ⟨State.reset_memoryWf, rfl, rfl, fun t => ?_⟩
  rw [State.reset_tile]
  exact ⟨rfl, fun _ => rfl⟩

theorem claim_free {ctx : IssueCtx} {x : Tile} (bus : x.busNow ctx.pipe = ([], [])) (reads writes : List Nat) :
    claim ctx reads writes x = .ok (x.took ctx.pipe reads writes) := by
  have nothing : ∀ l : List Nat, l.any (fun r => ([] : List Nat).contains (bankOf r)) = false := fun l => by simp
  simp only [claim, bus, nothing]
  rfl

theorem needFull_pass {x : Tile} {rows : List Nat} (h : noneStarved x rows) : needFull x rows = .ok () := by
  simp only [needFull, h, Bool.not_false, need_true]

theorem needNoRing_pass {x : Tile} {rows : List Nat} (h : noneInRing x rows) : needNoRing x rows = .ok () := by
  simp only [needNoRing, h, Bool.not_false, need_true]

section Rows

variable {s : State} {t : TileId} {g : GroupId} (ready : s.ready t g)
include ready

/-- While no unit of the tile is busy, no quarter's slots are owned (R133). -/
theorem State.ready_slotsFree (reads writes : List Nat) : slotsFree (s.settled t g) (s.sees t g).pipe reads writes = true := by
  obtain ⟨-, -, -, -, -, -, -, idleTu, idleNma, idleDsm⟩ := ready
  simp [slotsFree, Tile.owned, Tile.tuOwned, Tile.nmaOwned, Owned.append, idleTu, idleNma, idleDsm]

/-- The checks on rows read at issue, in order, and their slots (R133, R134, R146, R187). -/
theorem State.reads_bind {rows : List Nat} (ok : rowsOk s t g rows) (full : noneStarved (s.settled t g) rows) {α : Type}
    (k : Tile → Except IssueStop α) :
    (do
      needRows (s.settled t g) rows
      need (slotsFree (s.settled t g) (s.sees t g).pipe rows []) .operandRange
      needFull (s.settled t g) rows
      let x ← claim (s.sees t g) rows [] (s.settled t g)
      k x) = k ((s.settled t g).took (s.sees t g).pipe rows []) := by
  simp only [needRows_pass ok.1, State.ready_slotsFree ready, need_true, needFull_pass full, claim_free ok.2, IssueStop.ok_bind]

/-- The checks on rows written at issue, in order, and their slots. -/
theorem State.writes_bind {rows : List Nat} (ok : rowsOk s t g rows) (apart : noneInRing (s.settled t g) rows) {α : Type}
    (k : Tile → Except IssueStop α) :
    (do
      needRows (s.settled t g) rows
      need (slotsFree (s.settled t g) (s.sees t g).pipe [] rows) .operandRange
      needNoRing (s.settled t g) rows
      let x ← claim (s.sees t g) [] rows (s.settled t g)
      k x) = k ((s.settled t g).took (s.sees t g).pipe [] rows) := by
  simp only [needRows_pass ok.1, State.ready_slotsFree ready, need_true, needNoRing_pass apart, claim_free ok.2, IssueStop.ok_bind]

end Rows

/-- What a tile asks of its engine port for a row in this cycle (R132). -/
def Tile.asks (x : Tile) (ctx : IssueCtx) (slot : Slot) (reader : Reader) (row : Nat) : RowRead :=
  { due := ctx.pipe + 6, seq := x.seq, bundle := ctx.bundle, slot := slot, reader := reader, row := row
    poisoned := (x.rowAt row).poison != 0, corrected := x.ceRows.contains row }

theorem rowRead_eq_asks (s : State) (t : TileId) (g : GroupId) (slot : Slot) (reader : Reader) :
    rowRead s t g slot reader = (s.settled t g).asks (s.sees t g) slot reader := rfl

/-- What VLD gives lane j before its mask: the window's value in a pad row, else the lane as the row is seen (R144, R168, R284). -/
def loadedLane (x : Tile) (w : BitVec 26) (padded : Nat → Bool) (win : PadWindow) (j : Nat) : Residue :=
  if padded (j / 128) then (if win.scalar then win.value else 0) else lane128 (x.rowAt (vectorRow x w (j / 128))).seen (j % 128)

theorem filterMap_ite {α β : Type} (l : List α) (p : α → Bool) (f : α → β) :
    l.filterMap (fun k => if p k then some (f k) else none) = (l.filter p).map f := by
  rw [← List.filterMap_eq_map, List.filterMap_filter]
  rfl

/-- Vectors under a mask agree where their active lanes do. -/
theorem maskedVec_congr (x : Tile) (m : BitVec 3) {F G : Nat → Residue} (same : ∀ j, j < 1024 → active x.k m j = true → F j = G j) :
    maskedVec x m F = maskedVec x m G := by
  unfold maskedVec mkVec
  refine List.map_congr_left fun j hj => ?_
  split
  next act => exact same j (List.mem_range.1 hj) act
  next => rfl

/-- Results on their way and slots taken leave the units, the pending instructions and the halt alone. -/
theorem Tile.flyTook_keeps (x : Tile) (pipe n : Nat) (ds : List Dest) (reads writes : List Nat) :
    let y := (x.fly pipe n ds).took pipe reads writes
    y.tu = x.tu ∧ y.nma = x.nma ∧ y.pend = x.pend ∧ y.halted = x.halted ∧ y.taken = x.taken := by
  unfold Tile.took Tile.fly
  exact ⟨rfl, rfl, rfl, rfl, rfl⟩

theorem Tile.launch_took (x : Tile) (ctx : IssueCtx) (reads writes : List Nat) (n : Nat) (ds : List Dest) :
    (x.took ctx.pipe reads writes).launch ctx n ds = (x.fly ctx.pipe n ds).took ctx.pipe reads writes := by
  unfold Tile.launch Tile.took Tile.fly
  rfl

/-- Rows asked for at issue join those asked for before, whatever is launched. -/
theorem Tile.launch_reading (x : Tile) (ctx : IssueCtx) (sl : Slot) (reader : Reader) (rows : List Nat) (n : Nat) (ds : List Dest) :
    ((x.took ctx.pipe rows []).request ctx sl reader rows).launch ctx n ds =
      { (x.fly ctx.pipe n ds).took ctx.pipe rows [] with reads := x.reads ++ rows.map (x.asks ctx sl reader) } := by
  unfold Tile.launch Tile.request Tile.took Tile.fly
  rfl

theorem Tile.launch_naming (x : Tile) (ctx : IssueCtx) (sl : Slot) (reader : Reader) (rows : List Nat) (names : BitVec 8) (n : Nat) (ds : List Dest) :
    ({ (x.took ctx.pipe rows []).request ctx sl reader rows with named := (x.took ctx.pipe rows []).named ||| names } : Tile).launch ctx n ds =
      { (x.fly ctx.pipe n ds).took ctx.pipe rows [] with reads := x.reads ++ rows.map (x.asks ctx sl reader), named := x.named ||| names } := by
  unfold Tile.launch Tile.request Tile.took Tile.fly
  rfl

section Moves

variable {s : State} {t : TileId} {g : GroupId} {w : BitVec 26} (ready : s.ready t g)
include ready

/-- VLD past its checks: it asks for the rows and puts the lanes on their way (R132, R168, R284). -/
theorem State.issueVld_passes (fields : w &&& (if vPwen w then 0x7F else 0x307F) = 0) {padded : Nat → Bool} {win : PadWindow} {rows : List Nat}
    (window : (s.settled t g).pads[(vPW w).toNat] = win) (pads : (fun k => vPwen w && win.pads (vectorRow (s.settled t g) w k)) = padded)
    (named : ((List.range 8).filter (fun k => groupActive (s.settled t g).k (vMask w) k && !padded k)).map (vectorRow (s.settled t g) w) = rows)
    (odd : (vStride w).getLsbD 0 = true) (group : eightRowGroup ((List.range 8).map (vectorRow (s.settled t g) w)) = true)
    (ok : rowsOk s t g rows) (full : noneStarved (s.settled t g) rows) :
    issueVld (s.sees t g) w (s.settled t g) = .ok ((((s.settled t g).took (s.sees t g).pipe rows []).request (s.sees t g) .v .vector rows).launch
      (s.sees t g) 8 [.v (vD w) (maskedVec (s.settled t g) (vMask w) (loadedLane (s.settled t g) w padded win))
        (writeMask (s.settled t g) (vMask w) (vZ w))]) := by
  have lanes : maskedVec (s.settled t g) (vMask w) (loadedLane (s.settled t g) w padded win) = maskedVec (s.settled t g) (vMask w) (fun j =>
      match ((List.range 8).map (fun k => if padded k then none else if groupActive (s.settled t g).k (vMask w) k
        then some ((s.settled t g).fetchRow (vectorRow (s.settled t g) w k)).seen else some 0)).getD (j / 128) none with
      | some d => lane128 d (j % 128)
      | none => if win.scalar then win.value else 0) := by
    refine maskedVec_congr _ _ fun j hj act => ?_
    have below : j / 128 < 8 := by omega
    rw [List.getD_eq_getElem?_getD, List.getElem?_map, List.getElem?_range below, Option.map_some, Option.getD_some, groupActive_of_active act,
      loadedLane]
    split <;> rfl
  rw [lanes]
  subst window pads named
  rw [← filterMap_ite] at ok full ⊢
  exact (openSlot_bind fields (State.ready_hazard ready) _).trans ((need_bind _ odd _).trans ((need_bind _ group _).trans
    (State.reads_bind ready ok full _)))

/-- Group k of the vector that VST writes, as a sector (R29, R284). -/
def storedRow (x : Tile) (w : BitVec 26) (k : Nat) : SectorBits := sectorOf (fun i => lane (x.vreg (vD w)) (128 * k + i))

theorem State.issueVst_passes (fields : w &&& 0x38FF = 0) {groups : List Nat}
    (named : (List.range 8).filter (groupActive (s.settled t g).k (vMask w)) = groups)
    (odd : (vStride w).getLsbD 0 = true) (group : eightRowGroup ((List.range 8).map (vectorRow (s.settled t g) w)) = true)
    (ok : rowsOk s t g (groups.map (vectorRow (s.settled t g) w))) (apart : noneInRing (s.settled t g) (groups.map (vectorRow (s.settled t g) w))) :
    issueVst (s.sees t g) w (s.settled t g) = .ok (((s.settled t g).took (s.sees t g).pipe [] (groups.map (vectorRow (s.settled t g) w))).launch
      (s.sees t g) 2 (groups.map (fun k => .row (vectorRow (s.settled t g) w k) { data := storedRow (s.settled t g) w k }))) := by
  subst named
  exact (openSlot_bind fields (State.ready_hazard ready) _).trans ((need_bind _ odd _).trans ((need_bind _ group _).trans
    (State.writes_bind ready ok apart _)))

/-- An instruction that reads rows at issue and launches its result leaves them asked for and their slots taken (R132, R134). -/
theorem State.issues_reading {c : Instr} {sl : Slot} {f : IssueCtx → Tile → Issue} (row : exec c s = s.act (fun d => d.issueSlotOf t sl f))
    {reader : Reader} {rows : List Nat} {latency : Nat} {dests : Tile → List Dest}
    (passes : f (s.sees t g) (s.settled t g) = .ok ((((s.settled t g).took (s.sees t g).pipe rows []).request (s.sees t g) sl reader rows).launch
      (s.sees t g) latency (dests (s.settled t g)))) :
    s.issues t g c (fun x => { (x.fly (s.sees t g).pipe latency (dests x)).took (s.sees t g).pipe rows [] with
      reads := x.reads ++ rows.map (rowRead s t g sl reader) }) := by
  rw [Tile.launch_reading, ← rowRead_eq_asks] at passes
  obtain ⟨tu, nma, pend, halted, taken⟩ := Tile.flyTook_keeps (s.settled t g) (s.sees t g).pipe latency (dests (s.settled t g)) rows []
  exact State.issues_of_ok ready row passes tu nma pend halted taken

/-- An instruction that writes rows launches them and takes their slots. -/
theorem State.issues_writing {c : Instr} {sl : Slot} {f : IssueCtx → Tile → Issue} (row : exec c s = s.act (fun d => d.issueSlotOf t sl f))
    {rows : List Nat} {latency : Nat} {dests : Tile → List Dest}
    (passes : f (s.sees t g) (s.settled t g) = .ok (((s.settled t g).took (s.sees t g).pipe [] rows).launch
      (s.sees t g) latency (dests (s.settled t g)))) :
    s.issues t g c (fun x => (x.fly (s.sees t g).pipe latency (dests x)).took (s.sees t g).pipe [] rows) := by
  rw [Tile.launch_took] at passes
  obtain ⟨tu, nma, pend, halted, taken⟩ := Tile.flyTook_keeps (s.settled t g) (s.sees t g).pipe latency (dests (s.settled t g)) [] rows
  exact State.issues_of_ok ready row passes tu nma pend halted taken

end Moves

/-- Settles O8: each instruction past its checks, and the lanes of the rows it moves. -/
theorem vectorMemory : Obligations.VectorMemory := by
  unfold Obligations.VectorMemory
  constructor
  · intro s t g w ready fields x win padded rows odd group ok full
    have passes := State.issueVld_passes ready fields (win := win) rfl rfl rfl odd group ok full
    refine ⟨maskedVec x (vMask w) (loadedLane x w padded win), mkVec_length _, ?_, fun j hj => lane_maskedVec _ _ _ hj⟩
    exact State.issues_reading ready rfl (dests := fun y => [.v (vD w) _ (writeMask y (vMask w) (vZ w))]) passes
  · intro s t g w ready fields x groups odd group ok apart
    have passes := State.issueVst_passes ready fields rfl odd group ok apart
    refine ⟨storedRow x w, ?_, fun k _ i hi => lane128_sectorOf _ hi⟩
    exact State.issues_writing ready rfl (f := fun ctx y => issueVst ctx w y)
      (dests := fun y => groups.map (fun k => .row (vectorRow y w k) { data := storedRow x w k })) passes

section Headers

variable {s : State} {t : TileId} {g : GroupId} {w : BitVec 26} (ready : s.ready t g) (fields : w &&& 0xF = 0) {row : Nat}
variable (address : shRow (s.settled t g) w = row) (ok : rowsOk s t g [row])
include ready fields address ok

/-- HLD of a row that holds a well-formed header (R130, R291). -/
theorem State.issues_hld {h : Header} (parsed : parseHeader (((s.settled t g).rowAt row).seen.toNat % 2 ^ 512) = some h)
    (formed : (s.settled t g).headerOk h = true) (full : noneStarved (s.settled t g) [row]) :
    s.issues t g (.hld t w) (fun x => { (x.fly (s.sees t g).pipe 7 [.hld (f3 w 23) h (BitVec.ofNat 15 row)]).took (s.sees t g).pipe [row] [] with
      reads := x.reads ++ [rowRead s t g .s (.header false) row], named := x.named ||| BitVec.ofNat 8 (2 ^ (f3 w 23).toNat) }) := by
  subst address
  have fetched : parseHeader (((s.settled t g).fetchRow (shRow (s.settled t g) w)).seen.toNat % 2 ^ 512) = some h := parsed
  have passes : issueHld (s.sees t g) w (s.settled t g) = .ok
      (({ ((s.settled t g).took (s.sees t g).pipe [shRow (s.settled t g) w] []).request (s.sees t g) .s (.header false) [shRow (s.settled t g) w] with
        named := ((s.settled t g).took (s.sees t g).pipe [shRow (s.settled t g) w] []).named ||| BitVec.ofNat 8 (2 ^ (f3 w 23).toNat) } : Tile).launch
          (s.sees t g) 7 [.hld (f3 w 23) h (BitVec.ofNat 15 (shRow (s.settled t g) w))]) := by
    simp only [issueHld, reservedZero_pass fields, hazardFree_off _ _ _ (State.ready_hazard ready), IssueStop.ok_bind, fetched, formed]
    exact State.reads_bind ready ok full _
  rw [Tile.launch_naming, ← rowRead_eq_asks] at passes
  obtain ⟨tu, nma, pend, halted, taken⟩ := Tile.flyTook_keeps (s.settled t g) (s.sees t g).pipe 7
    [.hld (f3 w 23) h (BitVec.ofNat 15 (shRow (s.settled t g) w))] [shRow (s.settled t g) w] []
  exact State.issues_of_ok ready (sl := .s) rfl passes tu nma pend halted taken

/-- HST puts the header's bits in its row (R130, R291). -/
theorem State.issues_hst (apart : noneInRing (s.settled t g) [row]) : s.issues t g (.hst t w) (fun x =>
    (x.fly (s.sees t g).pipe 2 [.row row { data := BitVec.ofNat 4608 (x.hreg (f3 w 23)).hdr.bits }, .home (f3 w 23) (BitVec.ofNat 15 row)]).took
      (s.sees t g).pipe [] [row]) := by
  subst address
  have passes : issueHst (s.sees t g) w (s.settled t g) = .ok (((s.settled t g).took (s.sees t g).pipe [] [shRow (s.settled t g) w]).launch
      (s.sees t g) 2 [.row (shRow (s.settled t g) w) { data := BitVec.ofNat 4608 ((s.settled t g).hreg (f3 w 23)).hdr.bits },
        .home (f3 w 23) (BitVec.ofNat 15 (shRow (s.settled t g) w))]) := by
    simp only [issueHst, reservedZero_pass fields, hazardFree_off _ _ _ (State.ready_hazard ready), IssueStop.ok_bind]
    exact State.writes_bind ready ok apart _
  exact State.issues_writing ready (f := fun ctx x => issueHst ctx w x) rfl (dests := fun x =>
    [.row (shRow (s.settled t g) w) { data := BitVec.ofNat 4608 (x.hreg (f3 w 23)).hdr.bits },
      .home (f3 w 23) (BitVec.ofNat 15 (shRow (s.settled t g) w))]) passes

end Headers

/-- Settles O14: each instruction past its checks, of the row that it names. -/
theorem headerMoves : Obligations.HeaderMoves := by
  unfold Obligations.HeaderMoves
  intro s t g w ready fields x n row ok
  exact ⟨fun h parsed formed full => State.issues_hld ready fields rfl ok parsed formed full,
    fun apart => State.issues_hst ready fields rfl ok apart⟩

end Sys2Proof.Machine

/- The sequencer's instructions of the S slot (R138, R168, R238, R240, R268, R296). -/

namespace Sys2Proof.Machine

/- Pending instructions. -/

/-- A tile in which one instruction alone pends, and has issued in this cycle, completes it at once or leaves it pending (R240). -/
theorem Tile.tryPend_one {x : Tile} {p : Pending} (alone : x.pend = [p]) : x.tryPend p.wall = if x.pendMet p then x.completePend p.wall p else x := by
  simp [Tile.tryPend, alone]

/-- What is left of a stage, as the statement has it, is what the end-of-stage marker waits for (R166, R192, R238). -/
theorem Tile.markerMet_iff (x : Tile) : x.markerMet = true ↔ x.tu.op = none ∧ x.nma.op = none ∧ x.nma.dsm = none ∧
    ¬ (x.flights ≠ [] ∨ x.reads ≠ [] ∨ x.dueHalts ≠ [] ∨ x.nma.tails ≠ [] ∨ x.nma.closes ≠ [] ∨
      x.nma.outbox ≠ [] ∨ (∃ q, q ∈ x.dma.queues.toList ∧ q ≠ []) ∨ ∃ r, r ∈ x.rings.toList ∧ r.armed = true ∧ r.done < r.pages) := by
  have queues : x.dma.queues.all (·.isEmpty) = true ↔ ¬ ∃ q, q ∈ x.dma.queues.toList ∧ q ≠ [] := by
    simp [← Vector.all_toList]
  have rings : x.rings.all (fun r => !r.armed || decide (r.pages ≤ r.done)) = true ↔ ¬ ∃ r, r ∈ x.rings.toList ∧ r.armed = true ∧ r.done < r.pages := by
    simp only [← Vector.all_toList, List.all_eq_true, Bool.or_eq_true, Bool.not_eq_true', decide_eq_true_eq, not_exists, not_and, not_lt]
    exact forall₂_congr fun r _ => ⟨fun h armed => h.resolve_left (by simp [armed]), fun h => (Bool.eq_false_or_eq_true _).symm.imp_right h⟩
  simp only [Tile.markerMet, Bool.and_eq_true, List.isEmpty_iff, Option.isNone_iff_eq_none, queues, rings, ne_eq, not_or, not_not]
  tauto

/-- The tile in which an instruction pends beside those that did (R240). -/
def Tile.pends (x : Tile) (p : Pending) : Tile := { x with pend := x.pend ++ [p] }

/-- What is left of a tile in which nothing pended once an instruction pends and, if it can, completes (R240). -/
def Tile.pendsOnly (x : Tile) (p : Pending) : Tile :=
  let y : Tile := { x with pend := [p] }
  if y.pendMet p then y.completePend p.wall p else y

/-- An instruction that pends as it issues, where no other pends and the units are free. -/
theorem Tile.issueOne_pends (x : Tile) {ctx : IssueCtx} {sl : Slot} {f : IssueCtx → Tile → Issue} {p : Pending} (passes : f ctx x = .ok (x.pends p))
    (idleTu : x.tu.op = none) (idleNma : x.nma.op = none) (idleDsm : x.nma.dsm = none) (noPend : x.pend = []) (now : p.wall = ctx.wall) :
    x.issueOne ctx sl f = x.pendsOnly p := by
  rw [Tile.pends, noPend, List.nil_append] at passes
  have fetched : firstFetch ctx { x with pend := [p] } = .ok { x with pend := [p] } := firstFetch_idle _ _ idleTu idleNma idleDsm
  simp only [Tile.issueOne, passes, fetched, ← now]
  exact Tile.tryPend_one rfl

theorem Tile.pendsOnly_marker (x : Tile) {p : Pending} (marker : p.kind = .marker) (noPend : x.pend = []) :
    x.pendsOnly p = if x.markerMet then { x with done := true } else { x with pend := [p] } := by
  have met : ({ x with pend := [p] } : Tile).pendMet p = x.markerMet := by
    simp only [Tile.pendMet, marker, List.head?_cons, beq_self_eq_true, Bool.and_true]
    rfl
  have done : ({ x with pend := [p] } : Tile).completePend p.wall p = { x with done := true } := by
    simp only [Tile.completePend, marker, if_true, List.erase_cons_head, ← noPend]
  simp only [Tile.pendsOnly, met, done]

theorem Tile.pendsOnly_wait (x : Tile) {p : Pending} {c : BitVec 6} {k : BitVec 16} (wait : p.kind = .wait c k)
    (short : x.arrival[c.toNat].toNat < k.toNat) : x.pendsOnly p = { x with pend := [p] } := by
  have unmet : ({ x with pend := [p] } : Tile).pendMet p = false := by
    simp only [Tile.pendMet, wait, decide_eq_false_iff_not, not_le]
    exact short
  simp only [Tile.pendsOnly, unmet, Bool.false_eq_true, if_false]

/-- The tile that takes k arrivals of a counter, which has still to find the writes that they name (R138, R163). -/
def Tile.takes (x : Tile) (c : BitVec 6) (k : BitVec 16) : Tile :=
  { x with arrival := x.arrival.set c.toNat (x.arrival[c.toNat] - k), taken := x.taken ++ [(c, k.toNat)] }

theorem Tile.takes_pend (x : Tile) (c : BitVec 6) (k : BitVec 16) : (x.takes c k).pend = x.pend := rfl
theorem Tile.takes_tu (x : Tile) (c : BitVec 6) (k : BitVec 16) : (x.takes c k).tu = x.tu := rfl
theorem Tile.takes_nma (x : Tile) (c : BitVec 6) (k : BitVec 16) : (x.takes c k).nma = x.nma := rfl
theorem Tile.takes_taken (x : Tile) (c : BitVec 6) (k : BitVec 16) : (x.takes c k).taken = x.taken ++ [(c, k.toNat)] := rfl

/-- Once what it has taken is accounted for, only the counter has changed. -/
theorem Tile.takes_untaken {x : Tile} (none : x.taken = []) (c : BitVec 6) (k : BitVec 16) :
    { x.takes c k with taken := [] } = { x with arrival := x.arrival.set c.toNat (x.arrival[c.toNat] - k) } := by
  rw [← none]
  rfl

section Issued

variable {s : State} {t : TileId} {g : GroupId} (ready : s.ready t g)
include ready

/-- An instruction that issues by itself leaves its tile as `issueOne` has it, and the waits that it meets take their arrivals. -/
theorem State.issueSlotOf_going {sl : Slot} {f : IssueCtx → Tile → Issue} {y : Tile} (issued : (s.settled t g).issueOne (s.sees t g) sl f = y)
    (going : y.halted = false) : s.dev.issueSlotOf t sl f = (s.dev.setTile t y).coverTaken t := by
  obtain ⟨member, may, ecc, detector, start, -⟩ := ready
  generalize hchange : (fun x : Tile => x.issueAlone (s.sees t g) sl f) = change
  have change_eq : change (s.dev.tile t) = y := by
    subst hchange
    have start' : ((s.dev.tile t).settle (s.sees t g)).halted = false := start
    simp only [Tile.issueAlone, start', Bool.false_eq_true, if_false]
    exact issued
  have alone : s.dev.issueSlotOf t sl f = ((s.dev.onTile t change).extentCheck g t (s.dev.tile t) (s.sees t g).bundle).coverTaken t := by
    simp only [Dev.issueSlotOf, member, Dev.insertEcc_done s.dev g ecc, may, if_true, ← hchange]
    rfl
  rw [alone, Dev.onTile_going _ _ _ (by rw [change_eq]; exact going), Dev.extentCheck_off _ _ _ _ _ (by exact detector), change_eq]

/-- An instruction that pends as it issues leaves its tile alone changed, pending or completed. -/
theorem State.issues_pending {c : Instr} {sl : Slot} {f : IssueCtx → Tile → Issue} (row : exec c s = s.act (fun d => d.issueSlotOf t sl f))
    {p : Pending} (now : p.wall = (s.sees t g).wall) {change : Tile → Tile} (passes : f (s.sees t g) (s.settled t g) = .ok ((s.settled t g).pends p))
    (left : (s.settled t g).pendsOnly p = change (s.settled t g)) (halted : (change (s.settled t g)).halted = (s.settled t g).halted)
    (taken : (change (s.settled t g)).taken = (s.settled t g).taken) : s.issues t g c change := by
  obtain ⟨-, -, -, -, going, noPend, untaken, idleTu, idleNma, idleDsm⟩ := id ready
  have issued := State.issueSlotOf_going ready (sl := sl) (Tile.issueOne_pends _ passes idleTu idleNma idleDsm noPend now)
    (by rw [left, halted, going])
  rw [State.issues, row, State.act, issued, left, Dev.coverTaken_none]
  · rfl
  · rw [Dev.tile_setTile, taken, untaken]

end Issued

section Waits

variable {s : State} {t : TileId} {g : GroupId} {w : BitVec 26} (ready : s.ready t g)
include ready

/-- The instruction of this cycle, as it pends (R240). -/
def State.pendingNow (s : State) (t : TileId) (g : GroupId) (kind : PendKind) : Pending :=
  { kind := kind, wall := (s.sees t g).wall, bundle := (s.sees t g).bundle }

/-- WAIT for arrivals that have come takes them, the oldest first (R138, R163). -/
theorem State.wait_met (fields : w &&& 0xF = 0) {c : BitVec 6} {k : BitVec 16} (counter : w.extractLsb' 20 6 = c) (count : w.extractLsb' 4 16 = k)
    (some : k ≠ 0) (come : k ≤ (s.settled t g).arrival[c.toNat]) : exec (.wait t w) s = .next { s with dev :=
      (s.dev.setTile t { s.settled t g with arrival := (s.settled t g).arrival.set c.toNat ((s.settled t g).arrival[c.toNat] - k) }).cover t c k.toNat } := by
  subst counter count
  obtain ⟨-, -, -, -, going, noPend, untaken, idleTu, idleNma, idleDsm⟩ := id ready
  generalize hc : (w.extractLsb' 20 6 : BitVec 6) = c
  generalize hk : (w.extractLsb' 4 16 : BitVec 16) = k at *
  have passes : issueWait (s.sees t g) w (s.settled t g) = .ok ((s.settled t g).takes c k) := by
    simp only [issueWait, reservedZero_pass fields, hazardFree_off _ _ _ (State.ready_hazard ready), IssueStop.ok_bind, hk, hc, bne_iff_ne.2 some,
      need_true]
    exact if_pos (hc ▸ come)
  have issued : (s.settled t g).issueOne (s.sees t g) .s (fun ctx x => issueWait ctx w x) = (s.settled t g).takes c k := by
    have fetched := firstFetch_idle ((s.settled t g).takes c k) (s.sees t g) (by rwa [Tile.takes_tu]) (by rwa [Tile.takes_nma])
      (by rwa [Tile.takes_nma])
    simp only [Tile.issueOne, passes, fetched]
    exact Tile.tryPend_none _ _ ((Tile.takes_pend ..).trans noPend)
  have taken : ((s.settled t g).takes c k).taken = [(c, k.toNat)] := by rw [Tile.takes_taken, untaken, List.nil_append]
  show s.act (fun d => d.issueSlotOf t .s (fun ctx x => issueWait ctx w x)) = _
  rw [State.act, State.issueSlotOf_going ready issued going]
  simp only [Dev.coverTaken, Dev.tile_setTile, Dev.setTile_setTile, taken, Tile.takes_untaken untaken]
  rfl

theorem State.wait_pends (fields : w &&& 0xF = 0) (short : (s.settled t g).arrival[(w.extractLsb' 20 6 : BitVec 6).toNat] < (w.extractLsb' 4 16 : BitVec 16)) :
    s.issues t g (.wait t w) (fun x => { x with pend := [s.pendingNow t g (.wait (w.extractLsb' 20 6) (w.extractLsb' 4 16))] }) := by
  have several : (w.extractLsb' 4 16 : BitVec 16) ≠ 0 := fun zero => absurd (zero ▸ short) BitVec.not_lt_zero
  refine State.issues_pending ready (sl := .s) (f := fun ctx x => issueWait ctx w x) rfl
    (p := s.pendingNow t g (.wait (w.extractLsb' 20 6) (w.extractLsb' 4 16))) rfl ?_ (Tile.pendsOnly_wait _ rfl short) rfl rfl
  have unmet : ¬ (w.extractLsb' 4 16 : BitVec 16).toNat ≤ ((s.settled t g).arrival[(w.extractLsb' 20 6 : BitVec 6).toNat]).toNat := not_le.2 short
  simp only [issueWait, reservedZero_pass fields, hazardFree_off _ _ _ (State.ready_hazard ready), IssueStop.ok_bind, bne_iff_ne.2 several, need_true,
    if_neg unmet]
  rfl

theorem State.wait_zero (fields : w &&& 0xF = 0) (zero : (w.extractLsb' 4 16 : BitVec 16) = 0) : s.refuses t g (.wait t w) 0 .operandRange := by
  refine State.refuses_of_error (sl := .s) ready (f := fun ctx x => issueWait ctx w x) rfl ?_
  simp only [issueWait, reservedZero_pass fields, hazardFree_off _ _ _ (State.ready_hazard ready), IssueStop.ok_bind, zero]
  rfl

/-- The end-of-stage marker ends the stage at once where nothing of it is left, or pends (R238, R240). -/
theorem State.issues_marker (fields : w = 0) : s.issues t g (.endst t w) (fun x =>
    if (s.settled t g).markerMet then { x with done := true } else { x with pend := [s.pendingNow t g .marker] }) := by
  subst fields
  obtain ⟨-, -, -, -, -, noPend, -⟩ := id ready
  refine State.issues_pending ready (sl := .s) (f := fun ctx x => issueEndst ctx 0 x) rfl (p := s.pendingNow t g .marker) rfl ?_
    (Tile.pendsOnly_marker _ rfl noPend) ?_ ?_
  · simp only [issueEndst, hazardFree_off _ _ _ (State.ready_hazard ready)]
    rfl
  · split <;> rfl
  · split <;> rfl

end Waits

end Sys2Proof.Machine

namespace Sys2Proof.Machine

/-- The checks of LOOP: a count and a body, every outer level active and no inner one, and an end within the next outer level (R268). -/
def loopFits (x : Tile) (bundle : Nat) (w : BitVec 30) : Bool :=
  let n := (w.extractLsb' 28 2).toNat
  ((w.extractLsb' 16 12).toNat != 0 && (w.extractLsb' 0 16 : BitVec 16) != 0) &&
  ((List.range 4).all (fun k => (x.loops.toList.getD k {}).active == decide (k < n)) &&
  (n == 0 || decide (bundle + (w.extractLsb' 16 12).toNat ≤ (x.loops.toList.getD (n - 1) {}).stop)))

theorem loopFits_iff (x : Tile) (bundle : Nat) (w : BitVec 30) : loopFits x bundle w = true ↔
    w.extractLsb' 16 12 ≠ 0 ∧ w.extractLsb' 0 16 ≠ 0 ∧ (∀ k, k < 4 → (x.loops.toList.getD k {}).active = decide (k < (w.extractLsb' 28 2).toNat)) ∧
      (0 < (w.extractLsb' 28 2).toNat →
        bundle + (w.extractLsb' 16 12).toNat ≤ (x.loops.toList.getD ((w.extractLsb' 28 2).toNat - 1) {}).stop) := by
  have body : (w.extractLsb' 16 12).toNat ≠ 0 ↔ w.extractLsb' 16 12 ≠ 0 := not_congr (BitVec.toNat_eq (y := 0)).symm
  simp only [loopFits, Bool.and_eq_true, bne_iff_ne, List.all_eq_true, List.mem_range, beq_iff_eq, Bool.or_eq_true, decide_eq_true_eq,
    and_assoc, body, Nat.pos_iff_ne_zero, Classical.or_iff_not_imp_left, ne_eq]

/-- The tile with a level of loops armed (R268). -/
def Tile.armLoop (x : Tile) (bundle : Nat) (w : BitVec 30) : Tile :=
  { x with
    l := x.l.setIfInBounds (w.extractLsb' 28 2).toNat (w.extractLsb' 0 16)
    loops := x.loops.setIfInBounds (w.extractLsb' 28 2).toNat
      { active := true, start := bundle + 1, stop := bundle + (w.extractLsb' 16 12).toNat } }

/-- An armed level leaves the units, the pending instructions and the halt alone. -/
theorem Tile.armLoop_keeps (x : Tile) (bundle : Nat) (w : BitVec 30) : let y := x.armLoop bundle w
    y.tu = x.tu ∧ y.nma = x.nma ∧ y.pend = x.pend ∧ y.halted = x.halted ∧ y.taken = x.taken := by
  unfold Tile.armLoop
  exact ⟨rfl, rfl, rfl, rfl, rfl⟩

theorem issueLoop_eq {ctx : IssueCtx} (x : Tile) (w : BitVec 30) (detector : ctx.hazard = false) : issueLoop ctx w x =
    need (loopFits x ctx.bundle.toNat w) .operandRange >>= fun _ => .ok (x.armLoop ctx.bundle.toNat w) := by
  have chain : ∀ {α : Type} (a b : Bool) (k : Unit → Except IssueStop α),
      (need (a && b) .operandRange >>= k) = need a .operandRange >>= fun _ => need b .operandRange >>= k := fun a b k => by
    cases a <;> rfl
  simp only [issueLoop, hazardFree_off ctx x _ detector, IssueStop.ok_bind, loopFits, chain (_ != 0 && _), chain (List.all ..)]
  rfl

section Loops

variable {s : State} {t : TileId} {g : GroupId} {w : BitVec 30} (ready : s.ready t g)
include ready

theorem State.issues_loop (fits : loopFits (s.settled t g) (s.sees t g).bundle.toNat w = true) :
    s.issues t g (.loop t w) (fun x => x.armLoop (s.sees t g).bundle.toNat w) := by
  obtain ⟨tu, nma, pend, halted, taken⟩ := Tile.armLoop_keeps (s.settled t g) (s.sees t g).bundle.toNat w
  refine State.issues_of_ok ready (sl := .s) (f := fun ctx x => issueLoop ctx w x) rfl ?_ tu nma pend halted taken
  rw [issueLoop_eq _ _ (State.ready_hazard ready), fits]
  rfl

theorem State.refuses_loop (unfit : loopFits (s.settled t g) (s.sees t g).bundle.toNat w = false) : s.refuses t g (.loop t w) 0 .operandRange := by
  refine State.refuses_of_error (sl := .s) ready (f := fun ctx x => issueLoop ctx w x) rfl ?_
  rw [issueLoop_eq _ _ (State.ready_hazard ready), unfit]
  rfl

end Loops

/-- The window that PWLD loads from two scalar registers, and a third for its value (R168). -/
def loadedWindow (x : Tile) (w : BitVec 26) : PadWindow :=
  let a := x.sreg (f4 w 19)
  let b := x.sreg (f4 w 15)
  { base := a.extractLsb' 0 15, lineRows := a.extractLsb' 15 11, lineStride := a.extractLsb' 26 15, lines := a.extractLsb' 41 16
    lo := b.extractLsb' 0 16, hi := b.extractLsb' 16 16, scalar := w.getLsbD 23
    value := if w.getLsbD 23 then (x.sreg (f4 w 11)).extractLsb' 0 36 else 0 }

theorem issuePwld_eq {ctx : IssueCtx} {w : BitVec 26} (x : Tile) (fields : w &&& (if w.getLsbD 23 then 0x7FF else 0x7FFF) = 0) (detector : ctx.hazard = false) :
    let win := loadedWindow x w
    issuePwld ctx w x = need (win.lineRows != 0 && decide (win.lineRows.toNat ≤ 1024)) .operandRange >>= fun _ =>
      need (decide (win.lineRows.toNat ≤ win.lineStride.toNat)) .operandRange >>= fun _ => .ok (x.launch ctx 1 [.pad (f2 w 24) win]) := by
  simp only [issuePwld, reservedZero_pass fields, hazardFree_off ctx x _ detector, IssueStop.ok_bind]
  rfl

theorem issueFlagclr_eq {ctx : IssueCtx} {w : BitVec 26} (x : Tile) (fields : w &&& 0xFF = 0) (detector : ctx.hazard = false) :
    issueFlagclr ctx w x = need (f2 w 24 != 3) .reservedField >>= fun _ =>
      need ((w.extractLsb' 8 16).setWidth 32 &&& ~~~flagFields (f2 w 24) == 0) .operandRange >>= fun _ =>
        .ok (x.launch ctx 1 [.clear (f2 w 24) ((w.extractLsb' 8 16).setWidth 32)]) := by
  simp only [issueFlagclr, reservedZero_pass fields, hazardFree_off ctx x _ detector, IssueStop.ok_bind]
  rfl

/-- The fields of the window, by the numbers in the registers. -/
theorem loadedWindow_eq (x : Tile) (w : BitVec 26) :
    let a := (x.sreg (f4 w 19)).toNat
    let b := (x.sreg (f4 w 15)).toNat
    loadedWindow x w =
      { base := BitVec.ofNat 15 a, lineRows := BitVec.ofNat 11 (a / 2 ^ 15 % 2 ^ 11), lineStride := BitVec.ofNat 15 (a / 2 ^ 26 % 2 ^ 15)
        lines := BitVec.ofNat 16 (a / 2 ^ 41), lo := BitVec.ofNat 16 b, hi := BitVec.ofNat 16 (b / 2 ^ 16), scalar := w.getLsbD 23
        value := if w.getLsbD 23 then BitVec.ofNat 36 (x.sreg (f4 w 11)).toNat else 0 } := by
  have taken : ∀ (v : BitVec 64) (lo len : Nat), v.extractLsb' lo len = BitVec.ofNat len (v.toNat / 2 ^ lo) := fun v lo len => by
    rw [← Nat.shiftRight_eq_div_pow]
    rfl
  have wrapped : ∀ n k : Nat, BitVec.ofNat k (n % 2 ^ k) = BitVec.ofNat k n := fun n k => BitVec.eq_of_toNat_eq (by simp)
  simp only [loadedWindow, taken, wrapped, Nat.pow_zero, Nat.div_one]

section Loads

variable {s : State} {t : TileId} {g : GroupId} {w : BitVec 26} (ready : s.ready t g)
include ready

/-- An S-slot instruction whose checks pass and whose results are launched. -/
theorem State.issues_launched {c : Instr} {f : IssueCtx → Tile → Issue} (row : exec c s = s.act (fun d => d.issueSlotOf t .s f)) {latency : Nat}
    {dests : List Dest} (passes : f (s.sees t g) (s.settled t g) = .ok ((s.settled t g).launch (s.sees t g) latency dests)) :
    s.issues t g c (fun x => x.fly (s.sees t g).pipe latency dests) := by
  refine State.issues_of_ok ready row (passes.trans (congrArg _ (Tile.launch_eq_fly _ _ _ _))) ?_ ?_ ?_ ?_ ?_
  · exact Tile.fly_tu ..
  · exact Tile.fly_nma ..
  · exact Tile.fly_pend ..
  · exact Tile.fly_halted ..
  · exact Tile.fly_taken ..

theorem State.refuses_pwld (fields : w &&& (if w.getLsbD 23 then 0x7FF else 0x7FFF) = 0)
    (malformed : (loadedWindow (s.settled t g) w).lineRows = 0 ∨ 1024 < (loadedWindow (s.settled t g) w).lineRows.toNat ∨
      (loadedWindow (s.settled t g) w).lineStride.toNat < (loadedWindow (s.settled t g) w).lineRows.toNat) : s.refuses t g (.pwld t w) 0 .operandRange := by
  refine State.refuses_of_error (sl := .s) ready (f := fun ctx x => issuePwld ctx w x) rfl ?_
  rw [issuePwld_eq _ fields (State.ready_hazard ready)]
  rcases malformed with zero | long | short
  · rw [zero]
    rfl
  · rw [decide_eq_false (not_le.2 long), Bool.and_false]
    rfl
  · rw [decide_eq_false (not_le.2 short)]
    cases (loadedWindow (s.settled t g) w).lineRows != 0 && decide ((loadedWindow (s.settled t g) w).lineRows.toNat ≤ 1024) <;> rfl

theorem State.issues_pwld (fields : w &&& (if w.getLsbD 23 then 0x7FF else 0x7FFF) = 0) (some : (loadedWindow (s.settled t g) w).lineRows ≠ 0)
    (fits : (loadedWindow (s.settled t g) w).lineRows.toNat ≤ 1024)
    (apart : (loadedWindow (s.settled t g) w).lineRows.toNat ≤ (loadedWindow (s.settled t g) w).lineStride.toNat) :
    s.issues t g (.pwld t w) (fun x => x.fly (s.sees t g).pipe 1 [.pad (f2 w 24) (loadedWindow (s.settled t g) w)]) := by
  refine State.issues_launched ready (f := fun ctx x => issuePwld ctx w x) rfl ?_
  rw [issuePwld_eq _ fields (State.ready_hazard ready), bne_iff_ne.2 some, decide_eq_true fits, decide_eq_true apart]
  rfl

theorem State.refuses_flagclr_reserved (fields : w &&& 0xFF = 0) (reserved : f2 w 24 = 3) : s.refuses t g (.flagclr t w) 0 .reservedField := by
  refine State.refuses_of_error (sl := .s) ready (f := fun ctx x => issueFlagclr ctx w x) rfl ?_
  rw [issueFlagclr_eq _ fields (State.ready_hazard ready), reserved]
  rfl

theorem State.refuses_flagclr_field (fields : w &&& 0xFF = 0) (register : f2 w 24 ≠ 3)
    (unknown : (w.extractLsb' 8 16).setWidth 32 &&& ~~~flagFields (f2 w 24) ≠ 0) : s.refuses t g (.flagclr t w) 0 .operandRange := by
  refine State.refuses_of_error (sl := .s) ready (f := fun ctx x => issueFlagclr ctx w x) rfl ?_
  rw [issueFlagclr_eq _ fields (State.ready_hazard ready), bne_iff_ne.2 register, beq_eq_false_iff_ne.2 unknown]
  rfl

theorem State.issues_flagclr (fields : w &&& 0xFF = 0) (register : f2 w 24 ≠ 3)
    (known : (w.extractLsb' 8 16).setWidth 32 &&& ~~~flagFields (f2 w 24) = 0) :
    s.issues t g (.flagclr t w) (fun x => x.fly (s.sees t g).pipe 1 [.clear (f2 w 24) ((w.extractLsb' 8 16).setWidth 32)]) := by
  refine State.issues_launched ready (f := fun ctx x => issueFlagclr ctx w x) rfl ?_
  rw [issueFlagclr_eq _ fields (State.ready_hazard ready), bne_iff_ne.2 register, beq_iff_eq.2 known]
  rfl

end Loads

/-- Settles O12: each instruction by its checks in order, and what it leaves where they pass. -/
theorem sequencerResults : Obligations.SequencerResults := by
  unfold Obligations.SequencerResults
  refine ⟨fun s t g w ready => ?_, fun s t g w ready => ?_, fun s t g w ready => ?_⟩
  · intro x n stop fits
    refine ⟨fun holds => State.issues_loop ready ((loopFits_iff _ _ _).2 holds), fun fails => State.refuses_loop ready ?_⟩
    exact Bool.eq_false_iff.2 fun holds => fails ((loopFits_iff _ _ _).1 holds)
  · intro x c k left pends
    obtain ⟨-, -, -, -, -, -, -, idleTu, idleNma, idleDsm⟩ := id ready
    have marker := State.issues_marker ready (w := w)
    refine ⟨fun fields several come => State.wait_met ready fields rfl rfl several come, fun fields short => State.wait_pends ready fields short,
      fun fields zero => State.wait_zero ready fields zero, fun zero nothing => ?_, fun zero something => ?_⟩
    · have met : (s.settled t g).markerMet = true := (Tile.markerMet_iff _).2 ⟨idleTu, idleNma, idleDsm, nothing⟩
      simp only [met, if_true] at marker
      exact marker zero
    · have unmet : (s.settled t g).markerMet = false := Bool.eq_false_iff.2 fun met => ((Tile.markerMet_iff _).1 met).2.2.2 something
      simp only [unmet, Bool.false_eq_true, if_false] at marker
      exact marker zero
  · intro x a b lineRows stride scalar bits
    have rows : (loadedWindow x w).lineRows.toNat = lineRows := by simp [loadedWindow, lineRows, a, Nat.shiftRight_eq_div_pow, f4]
    have apart : (loadedWindow x w).lineStride.toNat = stride := by simp [loadedWindow, stride, a, Nat.shiftRight_eq_div_pow, f4]
    have zero : (loadedWindow x w).lineRows = 0 ↔ lineRows = 0 := by rw [← rows]; exact BitVec.toNat_eq (y := 0)
    refine ⟨fun fields malformed => State.refuses_pwld ready fields ?_, fun fields => State.refuses_flagclr_reserved ready fields,
      fun fields => State.refuses_flagclr_field ready fields, fun fields some fits inside => ?_, fun fields => State.issues_flagclr ready fields⟩
    · rw [zero, rows, apart]
      exact malformed
    · have loads := State.issues_pwld ready fields (mt zero.1 (Nat.ne_of_gt some)) (rows ▸ fits) (rows ▸ apart ▸ inside)
      rw [loadedWindow_eq] at loads
      exact loads

end Sys2Proof.Machine

/- The tick boundary of a run that an FLR has stopped and whose accepted requests have still to land (R348; log 46). -/

namespace Sys2Proof.Machine

/-- A run at the end of its tick, in which chain packets have still to land. -/
def landingAtBoundary : Dev := { skippedRun with tick := { running := true, cycle := 200000 } }

/-- That run after an FLR: its tiles have stopped, and the run ends once the packets have landed. -/
def flrAtBoundary : State := { dev := landingAtBoundary.stopTiles (.flr .running) }

theorem flrAtBoundary_lands : flrAtBoundary.dev.stillLands = true := by decide +kernel

/-- An FLR of a run whose accepted requests have still to land stops the tiles and waits (R348; log 46). -/
theorem Dev.flr_lands {d : Dev} (running : d.run.state = .running) (lands : (d.stopTiles (.flr .running)).stillLands = true) :
    d.flr = d.stopTiles (.flr .running) := by
  unfold Dev.flr Run.going
  simp only [running]
  exact if_pos lands

theorem landingAtBoundary_powered : landingAtBoundary.pins.tripped = false := by decide +kernel

/-- The state is one that an FLR leaves. -/
theorem flrAtBoundary_reached : ({ dev := landingAtBoundary } : State).answers .flr flrAtBoundary.dev := by
  refine State.answers_of_act (f := fun d => d.unlessTripped Dev.flr) rfl ?_
  rw [Dev.unlessTripped_powered landingAtBoundary_powered]
  exact Dev.flr_lands rfl flrAtBoundary_lands

theorem flrAtBoundary_due : flrAtBoundary.dev.tick.boundaryDue = true := by decide +kernel
theorem flrAtBoundary_stopped : flrAtBoundary.dev.running = false := by decide +kernel

/-- Refutes O41: the clauses on TICK_BOUNDARY have it begin a run tick in the state RUNNING, but during an FLR whose run has still requests to land the state is
RUNNING while no stage runs (log 46), and there, as another clause says, the boundary begins none. -/
theorem not_tickEvents : ¬ Obligations.TickEvents := by
  unfold Obligations.TickEvents
  intro ⟨boundary, _⟩
  obtain ⟨d, _, _, _, _, _, _, _, _, _, _, _, _, _, _, _, _, outside, within⟩ := boundary flrAtBoundary flrAtBoundary_due rfl
  obtain ⟨_, noTick, _⟩ := outside flrAtBoundary_stopped
  obtain ⟨begun, _⟩ := within skippingImage rfl rfl rfl rfl
  exact absurd (noTick.symm.trans begun) (by decide)

end Sys2Proof.Machine

/- The memories and the scratchpads stay in their one form (R147, R196, R216; log 17). Here stand the rules for the parts of the state; each function of the model
then keeps the form by a walk along its definition. -/

namespace Sys2Proof.Machine

/- The parts of a device. -/
section Parts

variable {d : Dev} {x : Tile}

theorem Dev.memoryWf_iff (d : Dev) : d.memoryWf ↔ d.mem.wf ∧ ∀ t, (d.tile t).wf := by
  rw [Dev.memoryWf, Bool.and_eq_true, Vector.all_eq_true]
  refine and_congr_right fun _ => ⟨fun all t => all _ t.isLt, fun all i hi => ?_⟩
  have index : (BitVec.ofNat 6 i).toNat = i := Nat.mod_eq_of_lt hi
  simpa only [Dev.tile, index] using all (BitVec.ofNat 6 i)

theorem Dev.mem_canon (h : d.memoryWf) : d.mem.wf := ((Dev.memoryWf_iff d).1 h).1

theorem Dev.tile_canon (h : d.memoryWf) {t : TileId} : (d.tile t).wf := ((Dev.memoryWf_iff d).1 h).2 _

/-- A change of other parts of the device keeps the form. -/
theorem Dev.keep (h : d.memoryWf) {e : Dev} (same : (e.mem, e.tiles) = (d.mem, d.tiles)) : e.memoryWf := by
  obtain ⟨mem, tiles⟩ := Prod.mk.inj same
  rwa [Dev.memoryWf, mem, tiles]

/-- A change of other parts of the tile keeps the form. -/
theorem Tile.keep (hx : x.wf) {y : Tile} (scratch : y.scratch = x.scratch) : y.wf := by
  rwa [Tile.wf, scratch]

/-- A change of other parts of the memory keeps the form. -/
theorem Mem.keep {m n : Mem} (hm : m.wf) (same : (n.near, n.far, n.undef, n.farEpoch, n.farZero) = (m.near, m.far, m.undef, m.farEpoch, m.farZero)) :
    n.wf := by
  simp only [Prod.mk.injEq] at same
  obtain ⟨near, far, undef, epoch, zero⟩ := same
  have epochs : n.epochAt = m.epochAt := by
    funext k
    simp only [Mem.epochAt, undef]
  have nearDefault : n.nearDefault = m.nearDefault := by
    funext k
    simp only [Mem.nearDefault, epochs]
  have farDefault : n.farDefault = m.farDefault := by
    funext k
    simp only [Mem.farDefault, epoch, zero]
  rwa [Mem.wf, near, far, nearDefault, farDefault]

theorem Dev.setTile_canon (h : d.memoryWf) {t : TileId} (hx : x.wf) : (d.setTile t x).memoryWf := by
  refine (Dev.memoryWf_iff _).2 ⟨Dev.mem_canon (d := d) h, fun u => ?_⟩
  by_cases same : t = u
  · rwa [← same, Dev.tile_setTile]
  · rw [Dev.tile_setTile_other d _ same]
    exact Dev.tile_canon h

theorem Dev.withMem_canon (h : d.memoryWf) {m : Mem} (hm : m.wf) : { d with mem := m }.memoryWf :=
  (Dev.memoryWf_iff _).2 ⟨hm, fun _ => Dev.tile_canon (d := d) h⟩

theorem Dev.withTiles_canon (h : d.memoryWf) {tiles : Vector Tile 64} (ht : tiles.all Tile.wf) : { d with tiles := tiles }.memoryWf := by
  have hm : d.mem.wf := Dev.mem_canon h
  simp only [Dev.memoryWf, hm, ht, Bool.and_self]

theorem Dev.onMem_canon (h : d.memoryWf) {f : Mem → Mem} (hf : ∀ m, m.wf → (f m).wf) : (d.onMem f).memoryWf :=
  Dev.withMem_canon h (hf _ (Dev.mem_canon h))

theorem Dev.mapTiles_canon (h : d.memoryWf) {p : TileId → Bool} {f : TileId → Tile → Tile} (hf : ∀ t x, x.wf → (f t x).wf) :
    (d.mapTiles p f).memoryWf := by
  refine (Dev.memoryWf_iff _).2 ⟨?_, fun t => ?_⟩
  · rw [Dev.mapTiles_mem]
    exact Dev.mem_canon h
  · rw [Dev.tile_mapTiles]
    split
    · exact hf _ _ (Dev.tile_canon h)
    · exact Dev.tile_canon h

end Parts

/- Folds and choices. -/
section Folds

variable {α : Type} {l : List α}

theorem Dev.foldl_canon {d : Dev} (h : d.memoryWf) {f : Dev → α → Dev} (hf : ∀ d a, d.memoryWf → (f d a).memoryWf) : (l.foldl f d).memoryWf := by
  induction l generalizing d with
  | nil => exact h
  | cons a l ih => exact ih (hf d a h)

theorem Tile.foldl_canon {x : Tile} (h : x.wf) {f : Tile → α → Tile} (hf : ∀ x a, x.wf → (f x a).wf) : (l.foldl f x).wf := by
  induction l generalizing x with
  | nil => exact h
  | cons a l ih => exact ih (hf x a h)

theorem Mem.foldl_canon {m : Mem} (h : m.wf) {f : Mem → α → Mem} (hf : ∀ m a, m.wf → (f m a).wf) : (l.foldl f m).wf := by
  induction l generalizing m with
  | nil => exact h
  | cons a l ih => exact ih (hf m a h)

variable {p : Prop} [Decidable p]

theorem Dev.ite_canon {a b : Dev} (ha : a.memoryWf) (hb : b.memoryWf) : (if p then a else b).memoryWf := by
  split
  · exact ha
  · exact hb

theorem Tile.ite_canon {a b : Tile} (ha : a.wf) (hb : b.wf) : (if p then a else b).wf := by
  split
  · exact ha
  · exact hb

theorem Mem.ite_canon {a b : Mem} (ha : a.wf) (hb : b.wf) : (if p then a else b).wf := by
  split
  · exact ha
  · exact hb

/-- A fold that carries more than the device. -/
theorem Dev.foldl_fst_canon {β : Type} {r : Dev × β} (h : r.1.memoryWf) {f : Dev × β → α → Dev × β}
    (hf : ∀ r a, r.1.memoryWf → (f r a).1.memoryWf) : (l.foldl f r).1.memoryWf := by
  induction l generalizing r with
  | nil => exact h
  | cons a l ih => exact ih (hf r a h)

theorem Store.foldl_write_wf {β : Type} [DecidableEq α] (d : Nat → α) (key : β → Nat) (value : β → α) {l : List β} {m : Sparse α}
    (h : Store.wf d m) : Store.wf d (l.foldl (fun m u => Store.write d m (key u) (value u)) m) := by
  induction l generalizing m with
  | nil => exact h
  | cons u l ih => exact ih (Store.write_wf d (key u) (value u) h)

end Folds

/- What an issue gives, and where a command leads. -/
section Outcomes

/-- What a computation with checks gives, if it gives something, satisfies `p`. -/
def Yields {ε α : Type} (p : α → Bool) (r : Except ε α) : Prop := ∀ a, r = .ok a → p a

variable {ε α β : Type} {p : α → Bool}

theorem Yields.ok {a : α} (ha : p a) : Yields p (.ok a : Except ε α) := fun _ same => Except.ok.inj same ▸ ha

theorem Yields.pure {a : α} (ha : p a) : Yields p (pure a : Except ε α) := Yields.ok ha

theorem Yields.error (e : ε) : Yields p (.error e) := fun _ same => by simp at same

/-- What follows a step whose result satisfies `q`. -/
theorem Yields.bindOf {q : β → Bool} {r : Except ε β} (hr : Yields q r) {f : β → Except ε α} (hf : ∀ b, q b → Yields p (f b)) :
    Yields p (r >>= f) := by
  cases r with
  | error e => exact Yields.error e
  | ok b => exact hf b (hr b rfl)

/-- What follows a check. -/
theorem Yields.bind {r : Except ε β} {f : β → Except ε α} (hf : ∀ b, Yields p (f b)) : Yields p (r >>= f) :=
  Yields.bindOf (q := fun _ => true) (fun _ _ => rfl) fun b _ => hf b

/-- The state that a command leads to, if it leads to one, has its memories in the one form. -/
def Kept (o : Host.Outcome State Fault Refusal) : Prop := ∀ s', o = .next s' → s'.dev.memoryWf

theorem State.act_canon {s : State} {f : Dev → Dev} (h : (f s.dev).memoryWf) : Kept (s.act f) := fun _ same => Host.Outcome.next.inj same ▸ h

end Outcomes

end Sys2Proof.Machine

/- The form is kept by every function of the model, in the order of the model's files. -/

namespace Sys2Proof.Machine

section Functions

variable {d : Dev} {x : Tile} {m : Mem} {s : State}

/- Operands. -/

theorem claim_canon {ctx reads writes} (hx : x.wf) : Yields Tile.wf (claim ctx reads writes x) := by
  unfold claim
  dsimp only
  split
  · exact .error _
  · exact .ok (Tile.keep hx (by dsimp only))

theorem Tile.launch_canon {ctx latency dests} (hx : x.wf) : (x.launch ctx latency dests).wf := by
  unfold Tile.launch
  exact Tile.keep hx (by dsimp only)

/- Rows. -/

theorem Tile.keepOld_canon {r} (hx : x.wf) : (x.keepOld r).wf := by
  unfold Tile.keepOld
  exact Tile.ite_canon hx (Tile.keep hx (by dsimp only))

theorem Tile.portWrite_canon {rs} (hx : x.wf) : (x.portWrite rs).wf :=
  Tile.storeRows_wf _ _ (Tile.foldl_canon hx (fun _ _ h1 => Tile.keepOld_canon h1))

theorem Tile.engineWrite_canon {rs} (hx : x.wf) : (x.engineWrite rs).wf := by
  unfold Tile.engineWrite
  extract_lets y1
  have hy1 : y1.wf := Tile.portWrite_canon hx
  exact Tile.keep hy1 (by dsimp only)

theorem Tile.request_canon {ctx slot reader rows} (hx : x.wf) : (x.request ctx slot reader rows).wf := by
  unfold Tile.request
  exact Tile.keep hx (by dsimp only)

/- Headers. -/

theorem issueHop_canon {c ctx w} (hx : x.wf) : Yields Tile.wf (issueHop c ctx w x) := by
  unfold issueHop
  extract_lets _ _ _ _ y1
  have hy1 : y1.wf := Tile.keep hx (by dsimp only)
  exact .bind fun _ => .bind fun _ => .bind fun _ => .bind fun _ => .bind fun _ => .pure (Tile.launch_canon hy1)

theorem issueInvalidate_canon {ctx w} (hx : x.wf) : Yields Tile.wf (issueInvalidate ctx w x) := by
  unfold issueInvalidate
  extract_lets _ y1
  have hy1 : y1.wf := Tile.keep hx (by dsimp only)
  exact .bind fun _ => .bind fun _ => .bind fun _ => .bind fun _ => .pure (Tile.launch_canon hy1)

theorem issueHld_canon {ctx w} (hx : x.wf) : Yields Tile.wf (issueHld ctx w x) := by
  unfold issueHld
  exact .bind fun _ => .bind fun _ => .bind fun _ => .bind fun _ => .bind fun _ => .bindOf (claim_canon hx) fun _ h1 => .pure (Tile.launch_canon
    (Tile.keep (Tile.request_canon h1) (by dsimp only)))

theorem issueHst_canon {ctx w} (hx : x.wf) : Yields Tile.wf (issueHst ctx w x) := by
  unfold issueHst
  exact .bind fun _ => .bind fun _ => .bind fun _ => .bind fun _ => .bind fun _ => .bindOf (claim_canon hx) fun _ h1 => .pure (Tile.launch_canon h1)

/- Descriptor. -/

theorem issueDmaiss_canon {ctx w} (hx : x.wf) : Yields Tile.wf (issueDmaiss ctx w x) := by
  unfold issueDmaiss
  dsimp only
  refine .bind fun _ => .bind fun _ => .bind fun _ => .bind fun _ => .bind fun _ => ?_
  split <;> exact .pure (Tile.keep hx (by dsimp only))

/- Scalar. -/

theorem issueSli_canon {ctx w} (hx : x.wf) : Yields Tile.wf (issueSli ctx w x) :=
  .bind fun _ => .bind fun _ => .pure (Tile.launch_canon hx)

theorem issueSlis_canon {ctx w} (hx : x.wf) : Yields Tile.wf (issueSlis ctx w x) :=
  .bind fun _ => .bind fun _ => .pure (Tile.launch_canon hx)

theorem issueSaddi_canon {ctx w} (hx : x.wf) : Yields Tile.wf (issueSaddi ctx w x) :=
  .bind fun _ => .bind fun _ => .pure (Tile.launch_canon hx)

theorem issueSalu_canon {ctx w} (hx : x.wf) : Yields Tile.wf (issueSalu ctx w x) :=
  .bind fun _ => .bind fun _ => .pure (Tile.launch_canon hx)

theorem issueCcld_canon {ctx w} (hx : x.wf) : Yields Tile.wf (issueCcld ctx w x) := by
  unfold issueCcld
  dsimp only
  refine .bind fun _ => .bind fun _ => .bind fun _ => ?_
  split
  · exact .error _
  · split
    · exact .error _
    · exact .bind fun _ => .pure (Tile.launch_canon hx)

theorem issueLoop_canon {ctx w} (hx : x.wf) : Yields Tile.wf (issueLoop ctx w x) := by
  unfold issueLoop
  exact .bind fun _ => .bind fun _ => .bind fun _ => .bind fun _ => .pure (Tile.keep hx (by dsimp only))

theorem issueWait_canon {ctx w} (hx : x.wf) : Yields Tile.wf (issueWait ctx w x) := by
  unfold issueWait
  refine .bind fun _ => .bind fun _ => .bind fun _ => ?_
  split <;> exact .pure (Tile.keep hx (by dsimp only))

theorem issueEndst_canon {ctx w} (hx : x.wf) : Yields Tile.wf (issueEndst ctx w x) := by
  unfold issueEndst
  exact .bind fun _ => .bind fun _ => .pure (Tile.keep hx (by dsimp only))

theorem issuePwld_canon {ctx w} (hx : x.wf) : Yields Tile.wf (issuePwld ctx w x) :=
  .bind fun _ => .bind fun _ => .bind fun _ => .bind fun _ => .pure (Tile.launch_canon hx)

theorem issueFlagclr_canon {ctx w} (hx : x.wf) : Yields Tile.wf (issueFlagclr ctx w x) :=
  .bind fun _ => .bind fun _ => .bind fun _ => .bind fun _ => .pure (Tile.launch_canon hx)

theorem issueKarm_canon {ctx w} (hx : x.wf) : Yields Tile.wf (issueKarm ctx w x) := by
  unfold issueKarm
  exact .bind fun _ => .bind fun _ => .bind fun _ => .bind fun _ => .bind fun _ => .bind fun _ => .bind fun _ => .pure (Tile.keep hx (by dsimp only))

theorem issueKrel_canon {ctx w} (hx : x.wf) : Yields Tile.wf (issueKrel ctx w x) :=
  .bind fun _ => .bind fun _ => .bind fun _ => .pure (Tile.launch_canon hx)

theorem issueExpand_canon {ctx w} (hx : x.wf) : Yields Tile.wf (issueExpand ctx w x) := by
  unfold issueExpand
  exact .bind fun _ => .bind fun _ => .bind fun _ => .bind fun _ => .bind fun _ => .bind fun _ => .bind fun _ => .pure (Tile.launch_canon
    (Tile.keep hx (by dsimp only)))

/- EngineIssue. -/

theorem Tile.startTu_canon {op} (hx : x.wf) : (x.startTu op).wf := by
  unfold Tile.startTu
  exact Tile.keep hx (by dsimp only)

theorem issueTransform_canon {inverse ctx w} (hx : x.wf) : Yields Tile.wf (issueTransform inverse ctx w x) := by
  unfold issueTransform
  refine .bind fun _ => .bind fun _ => ?_
  split
  · exact .bind fun _ => .pure (Tile.startTu_canon hx)
  · exact .error _

theorem issueNtt_canon {ctx w} (hx : x.wf) : Yields Tile.wf (issueNtt ctx w x) :=
  issueTransform_canon hx

theorem issueIntt_canon {ctx w} (hx : x.wf) : Yields Tile.wf (issueIntt ctx w x) :=
  issueTransform_canon hx

theorem issueAuto_canon {ctx w} (hx : x.wf) : Yields Tile.wf (issueAuto ctx w x) := by
  unfold issueAuto
  refine .bind fun _ => .bind fun _ => ?_
  split
  · exact .bind fun _ => .bind fun _ => .pure (Tile.startTu_canon hx)
  · exact .error _

theorem issuePerm_canon {ctx w} (hx : x.wf) : Yields Tile.wf (issuePerm ctx w x) := by
  unfold issuePerm
  refine .bind fun _ => .bind fun _ => ?_
  split
  · exact .bind fun _ => .pure (Tile.startTu_canon hx)
  · exact .error _

theorem issueTxp_canon {ctx w} (hx : x.wf) : Yields Tile.wf (issueTxp ctx w x) :=
  .bind fun _ => .bind fun _ => .bind fun _ => .pure (Tile.startTu_canon hx)

theorem Tile.startNma_canon {op} (hx : x.wf) : (x.startNma op).wf := by
  unfold Tile.startNma
  exact Tile.keep hx (by dsimp only)

theorem issueMma_canon {ctx w} (hx : x.wf) : Yields Tile.wf (issueMma ctx w x) := by
  unfold issueMma
  refine .bind fun _ => ?_
  split
  · exact .error _
  · exact .bind fun _ => .bind fun _ => .bind fun _ => .bind fun _ => .bind fun _ => .bind fun _ => .pure (Tile.startNma_canon hx)

theorem issueDsm_canon {ctx w} (hx : x.wf) : Yields Tile.wf (issueDsm ctx w x) := by
  unfold issueDsm
  exact .bind fun _ => .bind fun _ => .bind fun _ => .bind fun _ => .bind fun _ => .bind fun _ => .bind fun _ => .bind fun _ => .pure (Tile.keep hx (by dsimp only))

theorem issueMspill_canon {ctx w} (hx : x.wf) : Yields Tile.wf (issueMspill ctx w x) :=
  .bind fun _ => .bind fun _ => .bind fun _ => .pure (Tile.startNma_canon hx)

theorem issueMresume_canon {ctx w} (hx : x.wf) : Yields Tile.wf (issueMresume ctx w x) :=
  .bind fun _ => .bind fun _ => .bind fun _ => .pure (Tile.startNma_canon hx)

theorem issueMepi_canon {ctx w} (hx : x.wf) : Yields Tile.wf (issueMepi ctx w x) := by
  unfold issueMepi
  refine .bind fun _ => .bind fun _ => ?_
  split
  · exact .error _
  · exact .bind fun _ => .bind fun _ => .bind fun _ => .bind fun _ => .bind fun _ => .bind fun _ => .pure (Tile.startNma_canon hx)

theorem issueMchs_canon {ctx w} (hx : x.wf) : Yields Tile.wf (issueMchs ctx w x) :=
  .bind fun _ => .bind fun _ => .bind fun _ => .bind fun _ => .bind fun _ => .pure (Tile.startNma_canon hx)

theorem issueMchr_canon {ctx w} (hx : x.wf) : Yields Tile.wf (issueMchr ctx w x) :=
  .bind fun _ => .bind fun _ => .bind fun _ => .bind fun _ => .pure (Tile.startNma_canon hx)

/- Flags. -/

theorem Tile.record_canon {sched h'} (hx : x.wf) : (x.record sched h').wf := by
  unfold Tile.record
  exact Tile.keep hx (by dsimp only)

theorem Tile.halt_canon {sched h'} (hx : x.wf) : (x.halt sched h').wf := by
  unfold Tile.halt
  extract_lets y1
  have hy1 : y1.wf := Tile.keep hx (by dsimp only)
  exact Tile.ite_canon (Tile.ite_canon (Tile.record_canon hy1) hy1) (Tile.record_canon hx)

theorem Tile.scrErr_canon {row port kind} (hx : x.wf) : (x.scrErr row port kind).wf := by
  unfold Tile.scrErr
  exact Tile.keep hx (by dsimp only)

theorem Tile.clearScr_canon {m'} (hx : x.wf) : (x.clearScr m').wf := by
  unfold Tile.clearScr
  exact Tile.keep hx (by dsimp only)

theorem Tile.raiseScr_canon {m'} (hx : x.wf) : (x.raiseScr m').wf := by
  unfold Tile.raiseScr
  exact Tile.keep hx (by dsimp only)

theorem Tile.raiseMve_canon {m'} (hx : x.wf) : (x.raiseMve m').wf := by
  unfold Tile.raiseMve
  exact Tile.keep hx (by dsimp only)

theorem Tile.raisingNma_canon {f} (hx : x.wf) (hf : ∀ x, x.wf → (f x).wf) : (x.raisingNma f).wf := by
  have flags : { x with nma := { x.nma with flags := 0 } }.wf := Tile.keep hx (by dsimp only)
  unfold Tile.raisingNma
  exact Tile.keep (hf _ flags) (by dsimp only)

theorem Tile.raiseTu_canon {one two} (hx : x.wf) : (x.raiseTu one two).wf := by
  unfold Tile.raiseTu
  exact Tile.keep hx (by dsimp only)

theorem Tile.findError_canon {row writes} (hx : x.wf) : (x.findError row writes).wf := by
  unfold Tile.findError
  exact Tile.keep hx (by dsimp only)

theorem Tile.ceRead_canon {row new} (hx : x.wf) : (x.ceRead row new).wf := by
  unfold Tile.ceRead
  extract_lets y1 y2
  have hy1 : y1.wf := Tile.raiseScr_canon hx
  have hy2 : y2.wf := Tile.keep hy1 (by dsimp only)
  exact Tile.ite_canon (Tile.findError_canon hy2) hy2

theorem Tile.count_canon {c} (hx : x.wf) : (x.count c).wf := by
  unfold Tile.count
  exact Tile.ite_canon (Tile.raiseScr_canon hx) (Tile.keep hx (by dsimp only))

theorem Tile.arrive_canon {wall c} (hx : x.wf) : (x.arrive wall c).wf := by
  unfold Tile.arrive
  exact Tile.keep hx (by dsimp only)

theorem Tile.arrivals_canon {wall} (hx : x.wf) : (x.arrivals wall).wf := by
  unfold Tile.arrivals
  exact Tile.foldl_canon (Tile.keep hx (by dsimp only)) (fun _ _ h1 => Tile.count_canon h1)

/- Ops. -/

theorem Dev.setGroup_canon {g x'} (h : d.memoryWf) : (d.setGroup g x').memoryWf := by
  unfold Dev.setGroup
  exact Dev.keep h (by dsimp only)

theorem Dev.setRing_canon {n r} (h : d.memoryWf) : (d.setRing n r).memoryWf := by
  unfold Dev.setRing
  exact Dev.keep h (by dsimp only)

theorem Dev.setStream_canon {n x'} (h : d.memoryWf) : (d.setStream n x').memoryWf := by
  unfold Dev.setStream
  exact Dev.keep h (by dsimp only)

theorem Dev.mapGroups_canon {f} (h : d.memoryWf) : (d.mapGroups f).memoryWf := by
  unfold Dev.mapGroups
  exact Dev.keep h (by dsimp only)

theorem Dev.emit_canon {o} (h : d.memoryWf) : (d.emit o).memoryWf := by
  unfold Dev.emit
  exact Dev.keep h (by dsimp only)

theorem Dev.drew_canon (h : d.memoryWf) : d.drew.memoryWf := by
  unfold Dev.drew
  exact Dev.keep h (by dsimp only)

theorem Dev.mark_canon {off bits} (h : d.memoryWf) : (d.mark off bits).memoryWf := by
  unfold Dev.mark
  exact Dev.keep h (by dsimp only)

theorem Dev.afresh_canon : d.afresh.memoryWf := by
  refine (Dev.memoryWf_iff _).2 ⟨rfl, fun t => ?_⟩
  simp only [Dev.afresh, Dev.tile, Vector.getElem_map]
  rfl

theorem Dev.off_canon : d.off.memoryWf := by
  unfold Dev.off
  extract_lets e1
  have he1 : e1.memoryWf := Dev.afresh_canon
  exact Dev.keep he1 (by dsimp only)

theorem Dev.trip_canon : d.trip.memoryWf := by
  unfold Dev.trip
  extract_lets e1
  have he1 : e1.memoryWf := Dev.off_canon
  exact Dev.keep he1 (by dsimp only)

theorem Dev.unlessTripped_canon {f} (h : d.memoryWf) (hf : ∀ d, d.memoryWf → (f d).memoryWf) : (d.unlessTripped f).memoryWf :=
  Dev.ite_canon h (hf _ h)

theorem Dev.onClocks_canon {f} (h : d.memoryWf) : (d.onClocks f).memoryWf := by
  unfold Dev.onClocks
  exact Dev.keep h (by dsimp only)

theorem Dev.linkTrains_canon {l} (h : d.memoryWf) : (d.linkTrains l).memoryWf :=
  Dev.onClocks_canon h

theorem Dev.message_canon {v} (h : d.memoryWf) : (d.message v).memoryWf := by
  unfold Dev.message
  exact Dev.ite_canon (Dev.keep h (by dsimp only)) (Dev.emit_canon h)

theorem Dev.event_canon {source ev data} (h : d.memoryWf) : (d.event source ev data).memoryWf := by
  unfold Dev.event
  extract_lets marked entry logged
  have hm : marked.memoryWf := Dev.ite_canon (Dev.mark_canon h) h
  have hl : logged.memoryWf := Dev.keep hm (by dsimp only)
  split
  · split
    · exact Dev.keep hl (by dsimp only)
    · exact Dev.message_canon (Dev.keep hl (by dsimp only))
  · exact hl

theorem Dev.pulse_canon (h : d.memoryWf) : d.pulse.memoryWf := by
  unfold Dev.pulse
  exact Dev.emit_canon (Dev.keep h (by dsimp only))

theorem Dev.enter_canon {next opcode} (h : d.memoryWf) : (d.enter next opcode).memoryWf := by
  unfold Dev.enter
  extract_lets e1
  have he1 : e1.memoryWf := Dev.ite_canon h (Dev.event_canon h)
  exact Dev.keep he1 (by dsimp only)

theorem Dev.flagRing_canon {cq r n} (h : d.memoryWf) : (d.flagRing cq r n).memoryWf :=
  Dev.mark_canon (Dev.setRing_canon h)

theorem Dev.postRecord_canon {cq bytes} (h : d.memoryWf) : (d.postRecord cq bytes).memoryWf := by
  unfold Dev.postRecord
  extract_lets _ _ _ _ _ _ _ _ e1
  have he1 : e1.memoryWf := Dev.emit_canon (Dev.setRing_canon h)
  exact Dev.ite_canon (Dev.event_canon (Dev.flagRing_canon h)) (Dev.ite_canon (Dev.ite_canon (Dev.message_canon he1) he1) h)

theorem Dev.unreserve_canon {cq n} (h : d.memoryWf) : (d.unreserve cq n).memoryWf :=
  Dev.setRing_canon h

theorem Dev.finalRecord_canon {f wasPending st detail} (h : d.memoryWf) : (d.finalRecord f wasPending st detail).memoryWf :=
  Dev.postRecord_canon (Dev.unreserve_canon h)

theorem Dev.postBatch_canon {n r} (h : d.memoryWf) : (d.postBatch n r).memoryWf := by
  unfold Dev.postBatch
  extract_lets _ e1
  have he1 : e1.memoryWf := Dev.ite_canon (Dev.setStream_canon h) h
  exact Dev.postRecord_canon he1

theorem Dev.flushBacklog_canon {k n} (h : d.memoryWf) : (d.flushBacklog k n).memoryWf := by
  induction k generalizing d with
  | zero => exact h
  | succ k ih =>
    unfold Dev.flushBacklog
    split
    · exact h
    · split
      · exact h
      · exact ih (Dev.postBatch_canon (Dev.setStream_canon h))

theorem Dev.flushStream_canon {n} (h : d.memoryWf) : (d.flushStream n).memoryWf :=
  Dev.flushBacklog_canon h

theorem Dev.shut_canon {n} (h : d.memoryWf) : (d.shut n).memoryWf :=
  Dev.setStream_canon h

theorem Dev.finishClose_canon {j detail} (h : d.memoryWf) : (d.finishClose j detail).memoryWf := by
  unfold Dev.finishClose
  exact Dev.finalRecord_canon (Dev.keep h (by dsimp only))

theorem Dev.entriesFreed_canon {cq} (h : d.memoryWf) : (d.entriesFreed cq).memoryWf := by
  unfold Dev.entriesFreed
  refine Dev.foldl_canon h ?_
  refine fun _ _ h1 => ?_
  split
  · extract_lets e1
    have he1 : e1.memoryWf := Dev.flushStream_canon h1
    exact Dev.ite_canon (Dev.finishClose_canon (Dev.shut_canon he1)) he1
  · exact Dev.ite_canon (Dev.flushStream_canon h1) h1

theorem Dev.complete_canon {f wasPending st detail} (h : d.memoryWf) : (d.complete f wasPending st detail).memoryWf := by
  unfold Dev.complete
  extract_lets e1
  have he1 : e1.memoryWf := Dev.finalRecord_canon h
  exact Dev.ite_canon (Dev.entriesFreed_canon he1) he1

theorem Dev.becomePending_canon {f k} (h : d.memoryWf) : (d.becomePending f k).memoryWf := by
  unfold Dev.becomePending
  extract_lets e1
  have he1 : e1.memoryWf := Dev.ite_canon (Dev.postRecord_canon (Dev.unreserve_canon h)) h
  exact Dev.keep he1 (by dsimp only)

theorem Dev.finish_canon {j st detail} (h : d.memoryWf) : (d.finish j st detail).memoryWf := by
  unfold Dev.finish
  extract_lets _ e1
  have he1 : e1.memoryWf := Dev.keep h (by dsimp only)
  exact Dev.complete_canon he1

theorem Dev.finishAll_canon {p st detail} (h : d.memoryWf) : (d.finishAll p st detail).memoryWf :=
  Dev.foldl_canon h (fun _ _ h1 => Dev.finish_canon h1)

theorem Dev.take_canon {f} (h : d.memoryWf) : (d.take f).memoryWf := by
  unfold Dev.take
  exact Dev.keep h (by dsimp only)

theorem Dev.pump_canon {n} (h : d.memoryWf) : (d.pump n).memoryWf := by
  induction n generalizing d with
  | zero => exact h
  | succ n ih =>
    unfold Dev.pump
    split
    · split
      · exact h
      · exact ih (Dev.complete_canon (Dev.take_canon h))
    · exact h

theorem Dev.pumpAll_canon (h : d.memoryWf) : d.pumpAll.memoryWf :=
  Dev.pump_canon h

theorem State.event_canon {f : Dev → Dev} (h : (f s.dev).memoryWf) : Kept (s.event f) :=
  State.act_canon (Dev.pumpAll_canon h)

theorem Dev.command_canon {c opcode t effect} (h : d.memoryWf) (hf : ∀ d a1, d.memoryWf → (effect d a1).memoryWf) :
    (d.command c opcode t effect).memoryWf := by
  unfold Dev.command
  split
  · extract_lets e1
    have he1 : e1.memoryWf := Dev.take_canon h
    split
    · refine Dev.pumpAll_canon ?_
      split
      · exact Dev.complete_canon he1
      · split
        · exact Dev.complete_canon he1
        · exact Dev.ite_canon (Dev.complete_canon he1) (Dev.ite_canon (Dev.complete_canon (Dev.keep he1 (by dsimp only))) (hf _ _ he1))
    · exact h
  · exact h

theorem Dev.noteHalt_canon {t} (h : d.memoryWf) : (d.noteHalt t).memoryWf := by
  unfold Dev.noteHalt
  extract_lets _ _ _ y1 _ y2 e1 _ e2 e3
  have hy1 : y1.wf := Dev.tile_canon h
  have hy2 : y2.wf := Tile.keep hy1 (by dsimp only)
  have he1 : e1.memoryWf := Dev.setTile_canon h hy2
  have he2 : e2.memoryWf := Dev.keep he1 (by dsimp only)
  have he3 : e3.memoryWf := by
    unfold e3
    split
    · exact Dev.setGroup_canon he2
    · exact he2
  exact Dev.event_canon he3

theorem Dev.amendHalt_canon {t} (h : d.memoryWf) : (d.amendHalt t).memoryWf := by
  unfold Dev.amendHalt
  exact Dev.keep h (by dsimp only)

theorem Dev.onTile_canon {t f} (h : d.memoryWf) (hf : ∀ x, x.wf → (f x).wf) : (d.onTile t f).memoryWf := by
  unfold Dev.onTile
  extract_lets y1 y2 e1
  have hy1 : y1.wf := Dev.tile_canon h
  have hy2 : y2.wf := hf _ hy1
  have he1 : e1.memoryWf := Dev.setTile_canon h hy2
  exact Dev.ite_canon (Dev.noteHalt_canon he1) (Dev.ite_canon (Dev.amendHalt_canon he1) he1)

theorem Dev.haltTile_canon {t r bundle} (h : d.memoryWf) : (d.haltTile t r bundle).memoryWf :=
  Dev.onTile_canon h (fun _ h1 => Tile.halt_canon h1)

/- MemOps. -/

theorem Mem.setChannel_canon {n c} (hm : m.wf) : (m.setChannel n c).wf := by
  unfold Mem.setChannel
  exact Mem.keep hm (by dsimp only)

theorem Mem.onChannel_canon {n f} (hm : m.wf) : (m.onChannel n f).wf :=
  Mem.setChannel_canon hm

theorem Mem.hit_canon {p} (hm : m.wf) : (m.hit p).wf :=
  Mem.onChannel_canon hm

theorem Mem.forget_canon {mask first pages} (hm : m.wf) : (m.forget mask first pages).wf :=
  Mem.forget_wf m _ _ _ ((Mem.wf_iff m).1 hm).2 ⟨_, ((Mem.wf_iff m).1 hm).1⟩

theorem Mem.forgetData_canon {pages} (hm : m.wf) : (m.forgetData pages).wf := by
  unfold Mem.forgetData
  extract_lets n1
  have hn1 : n1.wf := Mem.forget_canon hm
  exact Mem.keep hn1 (by dsimp only)

theorem Dev.memUe_canon {p o ue} (h : d.memoryWf) : (d.memUe p o ue).memoryWf := by
  unfold Dev.memUe
  split
  · exact h
  · refine Dev.event_canon (Dev.withMem_canon h (Mem.onChannel_canon ?_))
    split
    · exact Dev.mem_canon h
    · exact Mem.pokeNear_wf _ _ _ _ (Dev.mem_canon h)

theorem Dev.memCe_canon {p ce} (h : d.memoryWf) : (d.memCe p ce).memoryWf :=
  Dev.onMem_canon h (fun _ h1 => Mem.onChannel_canon h1)

theorem Dev.readNear_canon {p o e} (h : d.memoryWf) : (d.readNear p o e).1.memoryWf := by
  unfold Dev.readNear
  extract_lets e1
  have he1 : e1.memoryWf := Dev.ite_canon h (Dev.memUe_canon (Dev.memCe_canon h))
  exact Dev.withMem_canon he1 (Mem.readNear_wf _ _ _ (Dev.mem_canon he1))

theorem Dev.accumulate_canon {op s operand q e} (h : d.memoryWf) : (d.accumulate op s operand q e).memoryWf := by
  unfold Dev.accumulate
  extract_lets _ e1
  have he1 : e1.memoryWf := Dev.ite_canon h (Dev.memUe_canon (Dev.memCe_canon h))
  exact Dev.onMem_canon (Dev.mark_canon he1) (fun _ h2 => Mem.accumulate_wf _ _ _ _ _ h2)

theorem Dev.readFar_canon {s lines timeout} (h : d.memoryWf) : (d.readFar s lines timeout).1.memoryWf := by
  unfold Dev.readFar
  split
  · exact Dev.event_canon h
  · exact h

theorem Dev.writeFar_canon {s x'} (h : d.memoryWf) : (d.writeFar s x').memoryWf :=
  Dev.ite_canon (Dev.event_canon h) (Dev.onMem_canon h (fun _ h1 => Mem.writeFar_wf _ _ _ h1))

theorem Dev.windowError_canon (h : d.memoryWf) : d.windowError.memoryWf := by
  unfold Dev.windowError
  exact Dev.mark_canon (Dev.keep h (by dsimp only))

theorem Dev.writePiece_canon {s a bs poisoned e} (h : d.memoryWf) : (d.writePiece s a bs poisoned e).memoryWf := by
  unfold Dev.writePiece
  split
  · exact Dev.windowError_canon h
  · refine Dev.onMem_canon ?_ (fun _ h1 => Mem.writeNear_wf _ _ _ _ h1)
    split
    · exact h
    · exact Dev.readNear_canon h

theorem Dev.readPiece_canon {s a n e} (h : d.memoryWf) : (d.readPiece s a n e).1.memoryWf := by
  unfold Dev.readPiece
  extract_lets _ _ _ _ e1
  have he1 : e1.memoryWf := Dev.drew_canon (Dev.readNear_canon h)
  split
  · exact Dev.windowError_canon h
  · split
    · exact Dev.readNear_canon h
    · exact Dev.mark_canon (Dev.keep he1 (by dsimp only))

theorem Dev.readParts_canon {parts ecc} (h : d.memoryWf) : (d.readParts parts ecc).1.memoryWf :=
  Dev.foldl_fst_canon h fun _ _ h1 => Dev.readPiece_canon h1

theorem Dev.serveMem_canon {x'} (h : d.memoryWf) : (d.serveMem x').memoryWf := by
  unfold Dev.serveMem
  split
  · exact Dev.writePiece_canon h
  · exact Dev.emit_canon (Dev.readParts_canon h)
  · exact Dev.accumulate_canon h
  · exact Dev.onMem_canon h (fun _ h1 => Mem.writeNear_wf _ _ _ _ h1)
  · exact Dev.onMem_canon (Dev.readNear_canon h) (fun _ h1 => Mem.writeNear_wf _ _ _ _ h1)
  · exact Dev.accumulate_canon (Dev.readNear_canon h)
  · exact Dev.onMem_canon h (fun _ h1 => Mem.writeNear_wf _ _ _ _ h1)
  · exact Dev.onMem_canon (Dev.readNear_canon h) (fun _ h1 => Mem.writeNear_wf _ _ _ _ h1)
  · exact Dev.onMem_canon h (fun _ h1 => Mem.writeNear_wf _ _ _ _ h1)
  · exact h
  · exact h
  · exact h
  · exact h
  · exact h
  · exact h

theorem Dev.hold_canon {h'} (h : d.memoryWf) : (d.hold h').memoryWf := by
  unfold Dev.hold
  exact Dev.keep h (by dsimp only)

theorem Dev.receiveMem_canon {h'} (h : d.memoryWf) : (d.receiveMem h').memoryWf :=
  Dev.ite_canon (Dev.hold_canon h) (Dev.serveMem_canon h)

/- Progress. -/

theorem Tile.land_canon {x'} (hx : x.wf) : (x.land x').wf := by
  unfold Tile.land
  split
  · exact Tile.keep hx (by dsimp only)
  · exact Tile.keep hx (by dsimp only)
  · exact Tile.keep hx (by dsimp only)
  · exact Tile.keep hx (by dsimp only)
  · exact Tile.keep hx (by dsimp only)
  · exact Tile.keep hx (by dsimp only)
  · exact Tile.keep hx (by dsimp only)
  · exact Tile.engineWrite_canon hx
  · exact Tile.raiseMve_canon hx
  · exact Tile.ite_canon (Tile.keep hx (by dsimp only)) (Tile.ite_canon (Tile.keep hx (by dsimp only)) (Tile.clearScr_canon hx))
  · exact Tile.keep hx (by dsimp only)
  · exact Tile.keep hx (by dsimp only)

theorem Tile.landDue_canon {pipe} (hx : x.wf) : (x.landDue pipe).wf := by
  unfold Tile.landDue
  extract_lets _ y1
  have hy1 : y1.wf := Tile.keep hx (by dsimp only)
  exact Tile.foldl_canon hy1 (fun _ _ h2 => Tile.land_canon h2)

theorem Tile.cancel_canon {seq} (hx : x.wf) : (x.cancel seq).wf := by
  unfold Tile.cancel
  exact Tile.keep hx (by dsimp only)

theorem Tile.deliver_canon {ctx r ecc} (hx : x.wf) : (x.deliver ctx r ecc).wf := by
  unfold Tile.deliver
  extract_lets y found z shown w
  have hy : y.wf := Tile.keep hx (by dsimp only)
  have hfound : found.wf := Tile.findError_canon (Tile.raiseScr_canon hy)
  have hz : z.wf := Tile.ite_canon (Tile.keep hfound (by dsimp only)) hy
  have hshown : shown.wf := Tile.scrErr_canon hz
  have hw : w.wf := Tile.ite_canon (Tile.keep hshown (by dsimp only)) hz
  split
  · exact Tile.halt_canon (Tile.scrErr_canon (Tile.cancel_canon hy))
  · split
    · exact Tile.halt_canon (Tile.scrErr_canon (Tile.cancel_canon hz))
    · split
      · exact Tile.halt_canon (Tile.cancel_canon hw)
      · exact hw

theorem Tile.tellUpset_canon {u} (hx : x.wf) : (x.tellUpset u).wf := by
  unfold Tile.tellUpset
  exact Tile.keep hx (by dsimp only)

theorem Tile.closeTransform_canon {ctx op inverse table told} (hx : x.wf) : (x.closeTransform ctx op inverse table told).wf := by
  unfold Tile.closeTransform
  extract_lets u s ok1 ok2 unit y raised
  have hy : y.wf := Tile.keep hx (by dsimp only)
  have hraised : raised.wf := Tile.raiseTu_canon hy
  split
  · exact hy
  · exact Tile.halt_canon (Tile.keep hraised (by dsimp only))

theorem Tile.closeDue_canon {ctx u} (hx : x.wf) : (x.closeDue ctx u).wf := by
  unfold Tile.closeDue
  split
  · exact Tile.closeTransform_canon hx
  · exact hx

theorem Tile.permCheck_canon {ctx} (hx : x.wf) : (x.permCheck ctx).wf := by
  unfold Tile.permCheck
  split
  · exact Tile.ite_canon hx (Tile.halt_canon (Tile.keep hx (by dsimp only)))
  · exact hx

theorem Tile.writeChunk_canon {self width left n first written ready row} (hx : x.wf) :
    (x.writeChunk self width left n first written ready row).1.wf := by
  unfold Tile.writeChunk
  extract_lets _ y1
  have hy1 : y1.wf := Tile.engineWrite_canon hx
  exact Tile.keep hy1 (by dsimp only)

theorem Tile.tuChunk_canon {ctx op} (hx : x.wf) : (x.tuChunk ctx op).1.wf := by
  unfold Tile.tuChunk
  split
  · exact Tile.writeChunk_canon hx
  · exact Tile.engineWrite_canon hx

theorem Tile.tuProgress_canon {op pipe} (hx : x.wf) : (x.tuProgress op pipe).wf := by
  unfold Tile.tuProgress
  split
  · exact Tile.ite_canon hx (Tile.keep hx (by dsimp only))
  · exact hx

theorem Tile.tuCycle_canon {ctx} (hx : x.wf) : (x.tuCycle ctx).wf := by
  unfold Tile.tuCycle
  split
  · exact hx
  · extract_lets y1 r y2
    have hy1 : y1.wf := Tile.tuProgress_canon hx
    have hy2 : r.1.wf := by
      unfold r
      split
      · exact Tile.tuChunk_canon hy1
      · exact hy1
    split
    · exact Tile.keep hy2 (by dsimp only)
    · split <;> exact Tile.keep hy2 (by dsimp only)

theorem Tile.landStep_canon {ctx op} (hx : x.wf) : (x.landStep ctx op).1.wf := by
  unfold Tile.landStep
  split
  · split
    · exact Tile.raisingNma_canon hx (fun _ h1 => Tile.keep h1 (by dsimp only))
    · exact hx
  · exact hx

theorem Tile.landTails_canon {ctx ops} (hx : x.wf) : (x.landTails ctx ops).1.wf := by
  induction ops generalizing x with
  | nil => exact hx
  | cons op ops ih => exact ih (Tile.landStep_canon hx)

theorem Tile.finishNma_canon {ctx op} (hx : x.wf) : (x.finishNma ctx op).wf := by
  unfold Tile.finishNma
  split
  · exact Tile.keep hx (by dsimp only)
  · exact Tile.keep hx (by dsimp only)
  · exact Tile.keep hx (by dsimp only)
  · exact Tile.keep hx (by dsimp only)
  · exact Tile.keep hx (by dsimp only)
  · split <;> exact Tile.keep hx (by dsimp only)

theorem Tile.nmaOpCycle_canon {ctx} (hx : x.wf) : (x.nmaOpCycle ctx).wf := by
  unfold Tile.nmaOpCycle
  split
  · exact hx
  · extract_lets _ _ w _ y1 _ _ y2
    have hw : w.1.wf := by
      unfold w
      split
      · exact Tile.landStep_canon hx
      · exact Tile.writeChunk_canon (Tile.landStep_canon hx)
    have hy2 : y2.wf := Tile.keep hw (by dsimp only)
    exact Tile.ite_canon hx (Tile.ite_canon (Tile.raisingNma_canon hy2 (fun _ h3 => Tile.finishNma_canon h3)) hy2)

theorem Tile.closeDsm_canon {ctx ops} (hx : x.wf) : (x.closeDsm ctx ops).1.wf := by
  induction ops generalizing x with
  | nil => exact hx
  | cons op ops ih =>
    refine ih (x := Prod.fst (ite _ _ _)) ?_
    split
    · exact Tile.writeChunk_canon hx
    · exact hx

theorem Tile.closeOverdue_canon {ctx} (hx : x.wf) : (x.closeOverdue ctx).wf := by
  unfold Tile.closeOverdue
  extract_lets _ y1
  have hy1 : y1.wf := Tile.closeDsm_canon hx
  exact Tile.keep hy1 (by dsimp only)

theorem Tile.nmaCycle_canon {ctx} (hx : x.wf) : (x.nmaCycle ctx).wf := by
  unfold Tile.nmaCycle
  extract_lets _ y1 _ y2 _ y3 _ y4
  have hy1 : y1.wf := Tile.landTails_canon hx
  have hy2 : y2.wf := Tile.nmaOpCycle_canon (Tile.keep hy1 (by dsimp only))
  have hy3 : y3.wf := Tile.closeDsm_canon hy2
  have hy4 : y4.wf := Tile.keep hy3 (by dsimp only)
  split
  · exact Tile.ite_canon (Tile.keep hy4 (by dsimp only)) hy4
  · exact hy4

theorem Tile.fetchFor_canon {ctx f seq bundle slot reader} (hx : x.wf) : (x.fetchFor ctx f seq bundle slot reader).1.wf := by
  unfold Tile.fetchFor
  dsimp only
  split
  · exact Tile.halt_canon (Tile.cancel_canon hx)
  · exact Tile.keep hx (by dsimp only)

theorem Tile.fetchTu_canon {ctx} (hx : x.wf) : (x.fetchTu ctx).wf := by
  unfold Tile.fetchTu
  split
  · extract_lets _ y1
    have hy1 : y1.wf := Tile.fetchFor_canon hx
    exact Tile.ite_canon hx (Tile.keep hy1 (by dsimp only))
  · exact hx

theorem Tile.drawSentinel_canon {op fetch wall pipe} (hx : x.wf) : (x.drawSentinel op fetch wall pipe).wf := by
  unfold Tile.drawSentinel
  split
  · exact Tile.ite_canon (Tile.keep hx (by dsimp only)) hx
  · exact hx

theorem Tile.chainCheck_canon {ctx op} (hx : x.wf) : (x.chainCheck ctx op).wf := by
  unfold Tile.chainCheck
  split
  · exact Tile.ite_canon (Tile.keep (Tile.cancel_canon hx) (by dsimp only)) hx
  · exact hx

theorem Tile.fetchNmaOp_canon {ctx} (hx : x.wf) : (x.fetchNmaOp ctx).wf := by
  unfold Tile.fetchNmaOp
  split
  · extract_lets _ y1
    have hy1 : y1.wf := Tile.fetchFor_canon (Tile.chainCheck_canon hx)
    exact Tile.ite_canon hx (Tile.drawSentinel_canon (Tile.keep hy1 (by dsimp only)))
  · exact hx

theorem Tile.fetchDsm_canon {ctx} (hx : x.wf) : (x.fetchDsm ctx).wf := by
  unfold Tile.fetchDsm
  split
  · extract_lets _ y1
    have hy1 : y1.wf := Tile.fetchFor_canon hx
    exact Tile.ite_canon hx (Tile.keep hy1 (by dsimp only))
  · exact hx

theorem Tile.fetchNma_canon {ctx} (hx : x.wf) : (x.fetchNma ctx).wf :=
  Tile.fetchDsm_canon (Tile.fetchNmaOp_canon hx)

theorem Tile.meet_canon {ctx x'} (hx : x.wf) : (x.meet ctx x').wf := by
  unfold Tile.meet
  split
  · exact Tile.deliver_canon hx
  · exact Tile.halt_canon (Tile.keep hx (by dsimp only))
  · exact Tile.closeDue_canon hx
  · exact Tile.permCheck_canon hx
  · exact Tile.fetchTu_canon hx
  · exact Tile.fetchNmaOp_canon hx
  · exact Tile.fetchDsm_canon hx

theorem Tile.settle_canon {ctx} (hx : x.wf) : (x.settle ctx).wf :=
  Tile.foldl_canon hx (fun _ _ h1 => Tile.meet_canon h1)

theorem Tile.endCycle_canon {ctx} (hx : x.wf) : (x.endCycle ctx).wf := by
  unfold Tile.endCycle
  exact Tile.nmaCycle_canon (Tile.tuCycle_canon (Tile.landDue_canon (Tile.keep hx (by dsimp only))))

theorem Tile.dropFlights_canon (hx : x.wf) : x.dropFlights.wf := by
  unfold Tile.dropFlights
  exact Tile.keep hx (by dsimp only)

theorem Tile.completePend_canon {x' p} (hx : x.wf) : (x.completePend x' p).wf := by
  unfold Tile.completePend
  extract_lets y1
  have hy1 : y1.wf := Tile.keep hx (by dsimp only)
  split <;> exact Tile.keep hy1 (by dsimp only)

theorem Tile.tryPend_canon {x'} (hx : x.wf) : (x.tryPend x').wf :=
  Tile.foldl_canon hx (fun _ _ h1 => Tile.ite_canon (Tile.completePend_canon h1) h1)

/- DmaOps. -/

theorem Tile.setQueue_canon {q js} (hx : x.wf) : (x.setQueue q js).wf := by
  unfold Tile.setQueue
  exact Tile.keep hx (by dsimp only)

theorem Tile.setHead_canon {q j} (hx : x.wf) : (x.setHead q j).wf := by
  unfold Tile.setHead
  split
  · exact Tile.setQueue_canon hx
  · exact hx

theorem Tile.dmaError_canon {q j kind element} (hx : x.wf) : (x.dmaError q j kind element).wf := by
  unfold Tile.dmaError
  exact Tile.keep hx (by dsimp only)

theorem Dev.boundsHalt_canon {t row port} (h : d.memoryWf) : (d.boundsHalt t row port).memoryWf :=
  Dev.onTile_canon h (fun _ h1 => Tile.halt_canon (Tile.scrErr_canon h1))

theorem Dev.dmaFail_canon {t q j kind bad} (h : d.memoryWf) : (d.dmaFail t q j kind bad).memoryWf := by
  unfold Dev.dmaFail
  extract_lets e1
  have he1 : e1.memoryWf := by
    unfold e1
    split
    · exact Dev.ite_canon h (Dev.boundsHalt_canon h)
    · exact h
  refine Dev.onTile_canon he1 ?_
  refine fun _ h2 => ?_
  refine Tile.halt_canon ?_
  refine Tile.dmaError_canon ?_
  refine Tile.setHead_canon ?_
  split
  · exact Tile.ite_canon (Tile.scrErr_canon h2) h2
  · exact h2

theorem Dev.dmaStep_canon {t q j} (h : d.memoryWf) : (d.dmaStep t q j).memoryWf := by
  unfold Dev.dmaStep
  split
  · exact Dev.dmaFail_canon h
  · exact Dev.onTile_canon h (fun _ h1 => Tile.setHead_canon h1)
  · exact Dev.onTile_canon h (fun _ h1 => Tile.setHead_canon h1)

theorem Dev.listStep_canon {t q j} (h : d.memoryWf) : (d.listStep t q j).memoryWf := by
  unfold Dev.listStep
  split
  · exact Dev.ite_canon (Dev.onTile_canon h (fun _ h1 => Tile.setHead_canon h1)) (Dev.dmaFail_canon h)
  · exact h

theorem Dev.dmaRequest_canon {t q} (h : d.memoryWf) : (d.dmaRequest t q).memoryWf := by
  unfold Dev.dmaRequest
  split
  · exact Dev.ite_canon h (Dev.ite_canon (Dev.dmaStep_canon h) (Dev.listStep_canon h))
  · exact h

theorem Tile.takeSlot_canon {wall bank write} (hx : x.wf) : (x.takeSlot wall bank write).wf := by
  unfold Tile.takeSlot
  extract_lets y1
  have hy1 : y1.wf := Tile.ite_canon hx (Tile.keep hx (by dsimp only))
  exact Tile.ite_canon (Tile.keep hy1 (by dsimp only)) (Tile.keep hy1 (by dsimp only))

theorem Dev.takePort_canon {r} (h : d.memoryWf) : (d.takePort r).memoryWf :=
  Dev.onTile_canon h (fun _ h1 => Tile.takeSlot_canon h1)

theorem Dev.carried_canon {t q src asked p} (h : d.memoryWf) : (d.carried t q src asked p).1.memoryWf := by
  unfold Dev.carried
  split
  · exact Dev.drew_canon h
  · exact h

theorem Dev.portRead_canon {u row port corrected ue} (h : d.memoryWf) : (d.portRead u row port corrected ue).1.memoryWf := by
  unfold Dev.portRead
  extract_lets _ e1
  have he1 : e1.memoryWf := Dev.ite_canon (Dev.onTile_canon h (fun _ h1 => Tile.ceRead_canon h1)) h
  split
  · exact Dev.event_canon (Dev.onTile_canon he1 (fun _ h2 => Tile.raiseScr_canon (Tile.scrErr_canon h2)))
  · split
    · exact Dev.onTile_canon he1 (fun _ h2 => Tile.scrErr_canon h2)
    · exact he1

theorem Dev.listRow_canon {p} (h : d.memoryWf) : (d.listRow p).1.memoryWf :=
  Dev.ite_canon h (Dev.drew_canon h)

theorem Dev.dmaReadReturn_canon {t q corrected ue} (h : d.memoryWf) : (d.dmaReadReturn t q corrected ue).memoryWf := by
  unfold Dev.dmaReadReturn
  split
  · exact h
  · split
    · split
      · exact h
      · exact Dev.onTile_canon (Dev.listRow_canon (Dev.carried_canon (Dev.portRead_canon (Dev.takePort_canon h)))) (fun _ h1 => Tile.setHead_canon h1)
    · split
      · exact h
      · split
        · split
          · exact h
          · exact Dev.onTile_canon (Dev.carried_canon (Dev.portRead_canon (Dev.takePort_canon h))) (fun _ h1 => Tile.setHead_canon h1)
        · exact Dev.ite_canon h (Dev.onTile_canon (Dev.portRead_canon (Dev.takePort_canon h)) (fun _ h1 => Tile.setHead_canon h1))
        · exact h

theorem Dev.supply_canon {t q j x' s} (h : d.memoryWf) : (d.supply t q j x' s).memoryWf :=
  Dev.onTile_canon (Dev.carried_canon h) (fun _ h1 => Tile.setHead_canon h1)

theorem Dev.nearServe_canon {channel page sector ecc} (h : d.memoryWf) : (d.nearServe channel page sector ecc).memoryWf := by
  unfold Dev.nearServe
  split
  · exact Dev.supply_canon (Dev.readNear_canon h)
  · exact h

theorem Dev.nearReturn_canon {channel page sector ce ue} (h : d.memoryWf) : (d.nearReturn channel page sector ce ue).memoryWf := by
  unfold Dev.nearReturn
  split
  · exact Dev.ite_canon (Dev.hold_canon h) (Dev.nearServe_canon h)
  · exact h

theorem Dev.farSupply_canon {sector lines timeout} (h : d.memoryWf) : (d.farSupply sector lines timeout).memoryWf := by
  unfold Dev.farSupply
  split
  · exact Dev.ite_canon h (Dev.supply_canon (Dev.readFar_canon h))
  · exact h

theorem execFarReadReturn_canon {sector lines} (h : s.dev.memoryWf) :
    Kept (execFarReadReturn sector lines s) := State.act_canon (Dev.ite_canon h (Dev.farSupply_canon h))

theorem execFarWriteLost_canon {sector} (h : s.dev.memoryWf) :
    Kept (execFarWriteLost sector s) := State.act_canon (Dev.ite_canon h (Dev.event_canon (Dev.onMem_canon (Dev.drew_canon h)
      (fun _ h1 => Mem.writeFar_wf _ _ _ h1))))

theorem execFarLinkDown_canon {link} (h : s.dev.memoryWf) :
    Kept (execFarLinkDown link s) := State.act_canon (Dev.ite_canon (Dev.event_canon (Dev.onMem_canon h (fun _ h1 => Mem.keep h1 (by dsimp only)))) h)

theorem Dev.arriveAt_canon {u c by_} (h : d.memoryWf) : (d.arriveAt u c by_).memoryWf := by
  unfold Dev.arriveAt
  exact Dev.onTile_canon (Dev.keep h (by dsimp only)) (fun _ h1 => Tile.arrive_canon h1)

theorem Dev.cover_canon {t c k} (h : d.memoryWf) : (d.cover t c k).memoryWf := by
  unfold Dev.cover
  exact Dev.keep h (by dsimp only)

theorem Dev.coverTaken_canon {t} (h : d.memoryWf) : (d.coverTaken t).memoryWf :=
  Dev.ite_canon h (Dev.foldl_canon (Dev.setTile_canon h (Tile.keep (Dev.tile_canon h) (by dsimp only))) fun _ _ h1 => Dev.cover_canon h1)

theorem Dev.loseAt_canon {place old a n} (h : d.memoryWf) : (d.loseAt place old a n).memoryWf := by
  have hd : d.drew.memoryWf := Dev.drew_canon h
  unfold Dev.loseAt
  extract_lets v x y lies
  split
  · exact Dev.ite_canon (Dev.setTile_canon hd (Tile.setRow_wf _ _ _ (Dev.tile_canon h))) h
  · exact Dev.ite_canon (Dev.onMem_canon hd fun m hm => Mem.writeFar_wf m _ _ hm) h
  · extract_lets k e
    have he : e.memoryWf := Dev.keep hd (by dsimp only)
    exact Dev.ite_canon (Dev.onMem_canon he fun m hm => Mem.pokeNear_wf m _ _ _ hm) he

theorem Dev.loseReads_canon {t q p} (h : d.memoryWf) : (d.loseReads t q p).memoryWf := by
  unfold Dev.loseReads
  extract_lets _ e1
  have he1 : e1.memoryWf := by
    unfold e1
    refine Dev.foldl_canon h ?_
    refine fun _ _ h1 => ?_
    split
    · exact Dev.ite_canon (Dev.loseAt_canon h1) h1
    · exact h1
  exact Dev.ite_canon h (Dev.mapTiles_canon (Dev.drew_canon he1) (fun _ _ h2 => Tile.keep h2 (by dsimp only)))

theorem Dev.landing_canon {t q y p x'} (h : d.memoryWf) : (d.landing t q y p x').1.memoryWf := by
  unfold Dev.landing
  extract_lets e1 _ _ _ _ e2
  have he1 : e1.memoryWf := Dev.loseReads_canon h
  have he2 : e2.memoryWf := Dev.ite_canon (Dev.keep he1 (by dsimp only)) he1
  split
  · exact Dev.drew_canon he2
  · exact he2

theorem Dev.landXfer_canon {t q x' p} (h : d.memoryWf) : (d.landXfer t q x' p).memoryWf := by
  unfold Dev.landXfer
  split
  · exact Dev.onTile_canon (Dev.landing_canon h) (fun _ h1 => Tile.portWrite_canon h1)
  · exact Dev.receiveMem_canon (Dev.landing_canon h)
  · exact Dev.writeFar_canon (Dev.landing_canon h)

theorem Dev.acceptAll_canon {t q} (h : d.memoryWf) : (d.acceptAll t q).memoryWf := by
  unfold Dev.acceptAll
  exact Dev.keep h (by dsimp only)

theorem Dev.dmaFinish_canon {t q} (h : d.memoryWf) : (d.dmaFinish t q).memoryWf := by
  unfold Dev.dmaFinish
  extract_lets e1
  have he1 : e1.memoryWf := Dev.acceptAll_canon h
  split
  · exact h
  · extract_lets e2
    have he2 : e2.memoryWf := Dev.ite_canon he1 (Dev.arriveAt_canon he1)
    split
    · exact h
    · split
      · exact Dev.onTile_canon h (fun _ h3 => Tile.setQueue_canon h3)
      · exact Dev.ite_canon h (Dev.onTile_canon he2 (fun _ h3 => Tile.keep (Tile.setQueue_canon h3) (by dsimp only)))

theorem Dev.dmaLand_canon {t q} (h : d.memoryWf) : (d.dmaLand t q).memoryWf := by
  unfold Dev.dmaLand
  split
  · exact h
  · split
    · exact Dev.dmaFinish_canon h
    · extract_lets req e1
      have he1 : e1.memoryWf := by
        unfold e1 req
        split
        · exact Dev.takePort_canon h
        · exact h
      split
      · exact h
      · extract_lets e2 e3 e4
        have he2 : e2.memoryWf := Dev.landXfer_canon he1
        have he3 : e3.memoryWf := Dev.onTile_canon he2 (fun _ h4 => Tile.setQueue_canon h4)
        have he4 : e4.memoryWf := by
          unfold e4
          split
          · exact Dev.ite_canon he3 (Dev.arriveAt_canon he3)
          · exact he3
        exact Dev.dmaFinish_canon he4

theorem Tile.stopQueues_canon {self} (hx : x.wf) : (x.stopQueues self).wf := by
  unfold Tile.stopQueues
  exact Tile.keep hx (by dsimp only)

theorem Tile.takeSlots_canon {wall rows} (hx : x.wf) : (x.takeSlots wall rows).wf :=
  Tile.foldl_canon hx (fun _ _ h1 => Tile.takeSlot_canon h1)

theorem execChainPacketLand_canon {sender} (h : s.dev.memoryWf) : Kept (execChainPacketLand sender s) := by
  unfold execChainPacketLand
  refine State.act_canon ?_
  split
  · extract_lets e1 e2
    have he1 : e1.memoryWf := Dev.onTile_canon h (fun _ h2 => Tile.keep h2 (by dsimp only))
    have he2 : e2.memoryWf := Dev.onTile_canon he1 (fun _ h2 => Tile.portWrite_canon (Tile.takeSlots_canon h2))
    split
    · exact h
    · split
      · exact Dev.boundsHalt_canon he2
      · exact Dev.arriveAt_canon he2
  · exact h

theorem Dev.servePacket_canon {sender} (h : d.memoryWf) : (d.servePacket sender).memoryWf := by
  unfold Dev.servePacket
  split
  · extract_lets _ e1
    have he1 : e1.memoryWf := Dev.onTile_canon h (fun _ h1 => Tile.portWrite_canon (Tile.takeSlots_canon h1))
    exact Dev.onTile_canon he1 (fun _ h2 => Tile.keep h2 (by dsimp only))
  · exact h

theorem Dev.serveFill_canon {t n} (h : d.memoryWf) : (d.serveFill t n).memoryWf := by
  unfold Dev.serveFill
  split
  · exact Dev.onTile_canon (Dev.keep h (by dsimp only)) (fun _ h1 => Tile.takeSlots_canon h1)
  · exact h

theorem Dev.serveExpansion_canon {t} (h : d.memoryWf) : (d.serveExpansion t).memoryWf := by
  unfold Dev.serveExpansion
  split
  · exact Dev.onTile_canon h (fun _ h1 => Tile.keep (Tile.portWrite_canon (Tile.takeSlots_canon h1)) (by dsimp only))
  · exact h

theorem Dev.serveRemote_canon (h : d.memoryWf) : d.serveRemote.memoryWf := by
  unfold Dev.serveRemote
  split
  · exact h
  · exact Dev.foldl_canon h (fun _ _ h1 => Dev.serveExpansion_canon (Dev.foldl_canon (Dev.servePacket_canon h1)
    (fun _ _ h2 => Dev.serveFill_canon h2)))

theorem Dev.extentCheck_canon {g t bundle} (h : d.memoryWf) : (d.extentCheck g t x bundle).memoryWf := by
  unfold Dev.extentCheck
  split
  · exact h
  · refine Dev.foldl_canon h ?_
    exact fun _ _ h2 => Dev.ite_canon (Dev.onTile_canon (Dev.keep h2 (by dsimp only)) (fun _ h3 => Tile.halt_canon h3)) (Dev.keep h2 (by dsimp only))

/- KeyStream. -/

theorem Dev.setKsu_canon {die k} (h : d.memoryWf) : (d.setKsu die k).memoryWf := by
  unfold Dev.setKsu
  exact Dev.keep h (by dsimp only)

theorem Dev.readKey_canon {e i o f} (h : d.memoryWf) : (d.readKey e i o f).1.memoryWf := by
  unfold Dev.readKey
  split
  · exact Dev.readFar_canon h
  · exact Dev.readNear_canon h

theorem Dev.readKeys_canon {e i f a n} (h : d.memoryWf) : (d.readKeys e i f a n).1.memoryWf :=
  Dev.foldl_fst_canon h fun _ _ h1 => Dev.readKey_canon h1

theorem Tile.setRing_canon {n r} (hx : x.wf) : (x.setRing n r).wf := by
  unfold Tile.setRing
  exact Tile.keep hx (by dsimp only)

theorem Dev.raiseKsu_canon {die late mismatch ueHeader ueData farFetch} (h : d.memoryWf) :
    (d.raiseKsu die late mismatch ueHeader ueData farFetch).memoryWf :=
  Dev.mark_canon (Dev.setKsu_canon h)

theorem Dev.startFill_canon {die t n} (h : d.memoryWf) : (d.startFill die t n).memoryWf := by
  unfold Dev.startFill
  extract_lets _ e1
  have he1 : e1.memoryWf := Dev.onTile_canon h (fun _ h1 => Tile.setRing_canon h1)
  split
  · exact Dev.raiseKsu_canon (Dev.setKsu_canon he1)
  · exact h

theorem Dev.drewRandom_canon (h : d.memoryWf) : d.drewRandom.memoryWf := by
  unfold Dev.drewRandom
  exact Dev.keep h (by dsimp only)

theorem Dev.startExpansion_canon {t i} (h : d.memoryWf) : (d.startExpansion t i).memoryWf := by
  unfold Dev.startExpansion
  split
  · exact Dev.ite_canon h (Dev.onTile_canon (Dev.ite_canon (Dev.drewRandom_canon h) h) (fun _ h1 => Tile.keep h1 (by dsimp only)))
  · exact h

theorem Dev.ksuGrant_canon {die} (h : d.memoryWf) : (d.ksuGrant die).memoryWf := by
  unfold Dev.ksuGrant
  split
  · exact h
  · split
    · exact Dev.startFill_canon h
    · exact Dev.startExpansion_canon h
    · exact h

theorem Dev.judgeHeader_canon {f x'} (h : d.memoryWf) : (d.judgeHeader f x').memoryWf := by
  unfold Dev.judgeHeader
  extract_lets _ _ _ _ e1
  have he1 : e1.memoryWf := Dev.raiseKsu_canon (Dev.setKsu_canon h)
  split
  · exact Dev.setKsu_canon h
  · exact Dev.ite_canon (Dev.haltTile_canon (Dev.onTile_canon he1 (fun _ h2 => Tile.setRing_canon h2))) he1

theorem Dev.headServe_canon {t n seen} (h : d.memoryWf) : (d.headServe t n seen).memoryWf := by
  unfold Dev.headServe
  split
  · exact Dev.judgeHeader_canon (Dev.readKey_canon h)
  · exact h

theorem Dev.pageHeader_canon {t n seen} (h : d.memoryWf) : (d.pageHeader t n seen).memoryWf := by
  unfold Dev.pageHeader
  split
  · exact Dev.ite_canon (Dev.hold_canon h) (Dev.headServe_canon h)
  · exact h

theorem Dev.landFill_canon {f seen} (h : d.memoryWf) : (d.landFill f seen).memoryWf := by
  unfold Dev.landFill
  extract_lets _ _ read e1 _ _ e2 _ e3
  have he1 : read.1.memoryWf := by
    unfold read
    split
    · exact h
    · exact Dev.readKeys_canon h
  have he2 : e2.memoryWf := Dev.raiseKsu_canon (Dev.setKsu_canon he1)
  have he3 : e3.memoryWf := Dev.onTile_canon he2 (fun _ h3 => Tile.portWrite_canon (Tile.takeSlots_canon h3))
  exact Dev.ite_canon (Dev.arriveAt_canon (Dev.onTile_canon he3 (fun _ h4 => Tile.setRing_canon h4))) he3

theorem Dev.bodyServe_canon {t n seen} (h : d.memoryWf) : (d.bodyServe t n seen).memoryWf := by
  unfold Dev.bodyServe
  split
  · exact Dev.ite_canon h (Dev.setKsu_canon (Dev.readKeys_canon h))
  · exact h

theorem Dev.fillComplete_canon {t n seen} (h : d.memoryWf) : (d.fillComplete t n seen).memoryWf := by
  unfold Dev.fillComplete
  split
  · exact Dev.ite_canon (Dev.hold_canon h) (Dev.ite_canon (Dev.landFill_canon h) h)
  · exact h

theorem Dev.landExpansion_canon {t e} (h : d.memoryWf) : (d.landExpansion t e).memoryWf := by
  unfold Dev.landExpansion
  extract_lets _ e1
  have he1 : e1.memoryWf := Dev.ite_canon (Dev.raiseKsu_canon h) h
  exact Dev.arriveAt_canon (Dev.onTile_canon he1 (fun _ h2 => Tile.keep (Tile.portWrite_canon (Tile.takeSlots_canon h2)) (by dsimp only)))

theorem Dev.expandComplete_canon {t} (h : d.memoryWf) : (d.expandComplete t).memoryWf := by
  unfold Dev.expandComplete
  split
  · exact Dev.ite_canon (Dev.landExpansion_canon h) h
  · exact h

/- MemRows. -/

theorem execRefreshSlot_canon {channel} (h : s.dev.memoryWf) :
    Kept (execRefreshSlot channel s) := State.act_canon (Dev.ite_canon (Dev.onMem_canon h (fun _ h1 => Mem.onChannel_canon h1)) h)

theorem Mem.setExtended_canon {stack x'} (hm : m.wf) : (m.setExtended stack x').wf := by
  unfold Mem.setExtended
  exact Mem.keep hm (by dsimp only)

theorem Dev.noteOverride_canon (h : d.memoryWf) : d.noteOverride.memoryWf := by
  unfold Dev.noteOverride
  exact Dev.ite_canon (Dev.mark_canon (Dev.onMem_canon h (fun _ h1 => Mem.keep h1 (by dsimp only)))) h

theorem Dev.stackReads_canon {stack temp} (h : d.memoryWf) : (d.stackReads stack temp).memoryWf := by
  unfold Dev.stackReads
  extract_lets _ e1
  have he1 : e1.memoryWf := Dev.noteOverride_canon (Dev.onMem_canon h (fun _ h1 => Mem.keep h1 (by dsimp only)))
  exact Dev.ite_canon h (Dev.ite_canon Dev.trip_canon (Dev.ite_canon (Dev.event_canon he1) he1))

theorem execExtendedRateTimer_canon {stack} (h : s.dev.memoryWf) :
    Kept (execExtendedRateTimer stack s) := State.act_canon (Dev.ite_canon (Dev.onMem_canon h (fun _ h1 => Mem.ite_canon (Mem.ite_canon
      (Mem.foldl_canon (Mem.keep h1 (by dsimp only)) (fun _ _ h2 => Mem.setExtended_canon h2)) (Mem.keep h1 (by dsimp only))) (Mem.setExtended_canon (Mem.keep h1 (by dsimp only))))) h)

theorem execMemCeRate_canon {channel} (h : s.dev.memoryWf) :
    Kept (execMemCeRate channel s) := State.act_canon (Dev.ite_canon (Dev.event_canon (Dev.onMem_canon h (fun _ h1 => Mem.onChannel_canon h1))) h)

theorem Dev.hotDetect_canon (h : d.memoryWf) : d.hotDetect.memoryWf := by
  unfold Dev.hotDetect
  extract_lets n1 _ _ _ n2 e1
  have hn1 : n1.wf := Dev.mem_canon h
  have hn2 : n2.wf := Mem.keep hn1 (by dsimp only)
  have he1 : e1.memoryWf := Dev.withMem_canon h hn2
  exact Dev.ite_canon h (Dev.ite_canon (Dev.event_canon he1) he1)

theorem Dev.chargeTransit_canon {ch n} (h : d.memoryWf) : (d.chargeTransit ch n).memoryWf :=
  Dev.onMem_canon h (fun _ h1 => Mem.onChannel_canon h1)

theorem Dev.readPage_canon {p f} (h : d.memoryWf) : (d.readPage p f).1.memoryWf :=
  Dev.foldl_fst_canon h fun _ _ h1 => Dev.readNear_canon h1

theorem Mem.writePage_canon {p xs} (hm : m.wf) : (m.writePage p xs).wf :=
  Mem.foldl_canon hm (fun _ _ h1 => Mem.writeNear_wf _ _ _ _ h1)

theorem Dev.swapPages_canon {p q gp gq fp fq} (h : d.memoryWf) : (d.swapPages p q gp gq fp fq).memoryWf := by
  unfold Dev.swapPages
  exact Dev.onMem_canon (Dev.readPage_canon (Dev.readPage_canon h)) (fun _ h1 => Mem.keep (Mem.writePage_canon (Mem.writePage_canon h1)) (by dsimp only))

theorem Dev.fillTable_canon (h : d.memoryWf) : d.fillTable.memoryWf := by
  unfold Dev.fillTable
  exact Dev.event_canon (Dev.onMem_canon h (fun _ h1 => Mem.keep h1 (by dsimp only)))

theorem Dev.transitSwap_canon (h : d.memoryWf) : d.transitSwap.memoryWf := by
  unfold Dev.transitSwap
  extract_lets
  split
  · exact h
  · split
    · exact Dev.hold_canon h
    · split
      · extract_lets
        split
        · extract_lets _ e1
          have he1 : e1.memoryWf := Dev.chargeTransit_canon (Dev.chargeTransit_canon (Dev.swapPages_canon (Dev.drew_canon h)))
          exact Dev.ite_canon (Dev.fillTable_canon h) (Dev.ite_canon h (Dev.ite_canon he1 (Dev.fillTable_canon he1)))
        · exact h
      · exact h

theorem Dev.finishStage_canon {j} (h : d.memoryWf) : (d.finishStage j).memoryWf := by
  unfold Dev.finishStage
  split
  · exact Dev.ite_canon h (Dev.finish_canon (Dev.keep h (by dsimp only)))
  · exact h

theorem Dev.finishStages_canon (h : d.memoryWf) : d.finishStages.memoryWf :=
  Dev.foldl_canon h (fun _ _ h1 => Dev.finishStage_canon h1)

theorem Dev.writeKeyPage_canon {far x' a rows} (h : d.memoryWf) : (d.writeKeyPage far x' a rows).memoryWf := by
  unfold Dev.writeKeyPage
  split
  · split
    · exact Dev.event_canon h
    · exact Dev.onMem_canon h (fun _ h1 => Mem.foldl_canon h1 (fun _ _ h2 => Mem.writeFar_wf _ _ _ h2))
  · exact Dev.onMem_canon h (fun _ h1 => Mem.foldl_canon h1 (fun _ _ h2 => Mem.writeNear_wf _ _ _ _ h2))

theorem Dev.putJob_canon {j a2} (h : d.memoryWf) : (d.putJob j a2).memoryWf := by
  unfold Dev.putJob
  exact Dev.keep h (by dsimp only)

theorem Dev.copyStaged_canon {j b n e first i} (h : d.memoryWf) : (d.copyStaged j b n e first i).memoryWf := by
  unfold Dev.copyStaged
  extract_lets
  split
  · extract_lets _ _ _ e1
    have he1 : e1.memoryWf := Dev.chargeTransit_canon (Dev.writeKeyPage_canon (Dev.readKeys_canon (Dev.drew_canon h)))
    exact Dev.ite_canon (Dev.putJob_canon he1) (Dev.ite_canon (Dev.putJob_canon he1) (Dev.finishStage_canon (Dev.putJob_canon he1)))
  · exact h

theorem Dev.stagingCopy_canon (h : d.memoryWf) : d.stagingCopy.memoryWf := by
  unfold Dev.stagingCopy
  split
  · split
    · split
      · exact Dev.ite_canon (Dev.hold_canon h) (Dev.copyStaged_canon h)
      · exact h
    · exact h
  · exact h

theorem Dev.serveMove_canon {n} (h : d.memoryWf) : (d.serveMove n).memoryWf := by
  unfold Dev.serveMove
  split
  · split
    · split
      · exact Dev.ite_canon h (Dev.copyStaged_canon h)
      · exact h
    · exact h
  · exact h

/- Pke. -/

theorem execPkeOpen_canon {c} (h : s.dev.memoryWf) : Kept (execPkeOpen c s) := by
  unfold execPkeOpen
  refine State.act_canon ?_
  refine Dev.command_canon h ?_
  refine fun _ _ h1 => ?_
  split
  · exact Dev.complete_canon (Dev.keep h1 (by dsimp only))
  · exact Dev.keep h1 (by dsimp only)

theorem execPkeClose_canon {c} (h : s.dev.memoryWf) :
    Kept (execPkeClose c s) := State.act_canon (Dev.command_canon h (fun _ _ h1 => Dev.ite_canon (Dev.complete_canon (Dev.keep h1 (by dsimp only)))
      (Dev.complete_canon h1)))

theorem Dev.pkeFaults_canon {op o} (h : d.memoryWf) : (d.pkeFaults op o).memoryWf := by
  unfold Dev.pkeFaults
  exact Dev.ite_canon (Dev.event_canon (Dev.keep h (by dsimp only))) h

theorem Dev.pkeDone_canon {f bs length o} (h : d.memoryWf) : (d.pkeDone f bs length o).memoryWf := by
  unfold Dev.pkeDone
  extract_lets _ _ _ e1
  have he1 : e1.memoryWf := Dev.keep h (by dsimp only)
  exact Dev.complete_canon (Dev.pkeFaults_canon he1)

theorem Dev.pkeOp_canon {c block op effect} (h : d.memoryWf) (hf : ∀ d f bs l, d.memoryWf → (effect d f bs l).memoryWf) :
    (d.pkeOp c block op effect).memoryWf := by
  unfold Dev.pkeOp
  extract_lets mine
  split
  · exact h
  · split
    · exact Dev.command_canon h fun _ _ hd => hd
    · refine Dev.command_canon h fun e f he => ?_
      split
      · split
        · exact hf _ _ _ _ he
        · exact Dev.complete_canon he
      · exact Dev.complete_canon he

theorem execPkeStore_canon {c block} (h : s.dev.memoryWf) :
    Kept (execPkeStore c block s) := State.act_canon (Dev.pkeOp_canon h (fun _ _ _ _ h1 => Dev.ite_canon (Dev.complete_canon h1) (Dev.pkeDone_canon
      (Dev.emit_canon h1))))

theorem execPkeIdleClose_canon (h : s.dev.memoryWf) :
    Kept (execPkeIdleClose s) := State.act_canon (Dev.ite_canon (Dev.event_canon (Dev.mark_canon (Dev.keep h (by dsimp only)))) h)

theorem execDrbgReseed_canon (h : s.dev.memoryWf) : Kept (execDrbgReseed s) := State.act_canon (Dev.ite_canon (Dev.keep h (by dsimp only)) h)

theorem Dev.firmwarePke_canon (h : d.memoryWf) : d.firmwarePke.memoryWf := by
  unfold Dev.firmwarePke
  exact Dev.keep h (by dsimp only)

/- KeyCmds. -/

theorem Dev.bindKeyset_canon {f b} (h : d.memoryWf) : (d.bindKeyset f b).memoryWf := by
  unfold Dev.bindKeyset
  extract_lets _ _ e1
  have he1 : e1.memoryWf := Dev.ite_canon (Dev.firmwarePke_canon h) h
  split
  · exact Dev.complete_canon he1
  · split
    · exact Dev.complete_canon he1
    · split
      · exact Dev.complete_canon he1
      · split
        · exact Dev.complete_canon he1
        · exact Dev.becomePending_canon (Dev.drew_canon he1)

theorem execBindKeyset_canon {c block} (h : s.dev.memoryWf) : Kept (execBindKeyset c block s) := by
  unfold execBindKeyset
  refine State.act_canon ?_
  split
  · exact Dev.command_canon h (fun _ _ h1 => h1)
  · exact Dev.command_canon h (fun _ _ h1 => Dev.bindKeyset_canon h1)

theorem Dev.putRows_canon {p a rows} (h : d.memoryWf) : (d.putRows p a rows).memoryWf :=
  Dev.foldl_canon h (fun _ _ h1 => Dev.receiveMem_canon h1)

theorem Dev.bindPages_canon {far table dnum dir pages landed begun} (h : d.memoryWf) :
    (d.bindPages far table dnum dir pages landed begun).1.memoryWf := by
  induction pages generalizing d landed begun with
  | nil => exact h
  | cons page pages ih =>
    unfold Dev.bindPages
    dsimp only
    split
    · exact ih h
    · split
      · exact ih (Dev.writeKeyPage_canon h)
      · split <;> exact ih (Dev.chargeTransit_canon (Dev.putRows_canon h))

theorem Dev.bindDone_canon {j far m' dnum dir} (h : d.memoryWf) : (d.bindDone j far m' dnum dir).memoryWf := by
  unfold Dev.bindDone
  extract_lets _ _ _ e1 e2
  have he1 : e1.memoryWf := Dev.drew_canon h
  have he2 : e2.memoryWf := Dev.keep he1 (by dsimp only)
  exact Dev.finish_canon he2

theorem Dev.bindCopied_canon {pages} (h : d.memoryWf) : (d.bindCopied pages).memoryWf := by
  unfold Dev.bindCopied
  dsimp only
  split
  · exact h
  · split
    · split
      · exact Dev.finish_canon h
      · exact Dev.ite_canon (Dev.bindDone_canon (Dev.bindPages_canon h)) (Dev.putJob_canon (Dev.bindPages_canon h))
    · exact h

theorem execUnbindKeyset_canon {c} (h : s.dev.memoryWf) :
    Kept (execUnbindKeyset c s) := State.act_canon (Dev.command_canon h (fun _ _ h1 => Dev.ite_canon (Dev.complete_canon h1) (Dev.complete_canon
      (Dev.keep h1 (by dsimp only)))))

theorem execStageKeys_canon {c} (h : s.dev.memoryWf) : Kept (execStageKeys c s) := by
  refine State.act_canon (Dev.command_canon h fun d f hd => ?_)
  have hc : ∀ status detail, (d.complete f false status detail).memoryWf := fun _ _ => Dev.complete_canon hd
  refine Dev.ite_canon (hc _ _) (Dev.ite_canon (hc _ _) ?_)
  split
  · exact hc _ _
  · extract_lets e
    have he : e.memoryWf := Dev.becomePending_canon (Dev.drew_canon hd)
    split
    · exact Dev.ite_canon (Dev.finishStage_canon he) he
    · exact he

theorem execRetirePage_canon {c} (h : s.dev.memoryWf) : Kept (execRetirePage c s) := by
  refine State.act_canon (Dev.command_canon h fun d f hd => ?_)
  refine Dev.ite_canon (Dev.complete_canon hd) (Dev.ite_canon (Dev.complete_canon hd) ?_)
  extract_lets _ _ _ old m
  have ho : old.wf := Dev.mem_canon hd
  have hn : m.wf := Mem.ite_canon (Mem.keep ho (by dsimp only)) (Mem.keep ho (by dsimp only))
  have he : { d with mem := m }.memoryWf := Dev.withMem_canon hd hn
  exact Dev.complete_canon (Dev.keep he (by dsimp only))

/- Power. -/

theorem Dev.onPower_canon {f} (h : d.memoryWf) : (d.onPower f).memoryWf := by
  unfold Dev.onPower
  exact Dev.keep h (by dsimp only)

theorem Dev.powerEvent_canon {bit} (h : d.memoryWf) : (d.powerEvent bit).memoryWf :=
  Dev.mark_canon (Dev.onPower_canon h)

theorem Dev.throttle_canon {g} (h : d.memoryWf) : (d.throttle g).memoryWf :=
  Dev.onPower_canon (Dev.setGroup_canon h)

theorem Dev.throttleUntil_canon {need gs} (h : d.memoryWf) : (d.throttleUntil need gs).memoryWf := by
  induction gs generalizing d need with
  | nil =>
    unfold Dev.throttleUntil
    split
    · exact h
    · exact Dev.powerEvent_canon h
  | cons g gs ih =>
    unfold Dev.throttleUntil
    split
    · exact h
    · exact ih (Dev.throttle_canon h)

theorem Dev.thermal_canon {first die} (h : d.memoryWf) : (d.thermal first die).memoryWf := by
  unfold Dev.thermal
  extract_lets _ _ _ _ e1 e2
  have he1 : e1.memoryWf := Dev.onPower_canon h
  have he2 : e2.memoryWf := Dev.ite_canon (Dev.event_canon he1) he1
  split
  · extract_lets e3
    have he3 : e3.memoryWf := Dev.ite_canon (Dev.powerEvent_canon (Dev.throttle_canon he2)) he2
    exact Dev.ite_canon (Dev.powerEvent_canon (Dev.throttle_canon he3)) he3
  · exact he2

theorem Dev.inputLimit_canon (h : d.memoryWf) : d.inputLimit.memoryWf := by
  unfold Dev.inputLimit
  extract_lets _ e1
  have he1 : e1.memoryWf := Dev.onPower_canon h
  exact Dev.ite_canon (Dev.ite_canon (Dev.event_canon (Dev.powerEvent_canon he1)) he1) h

theorem Dev.evaluate_canon {seen} (h : d.memoryWf) : (d.evaluate seen).memoryWf := by
  unfold Dev.evaluate
  extract_lets e1 e2 _ e3 _ e4
  have he1 : e1.memoryWf := Dev.onPower_canon h
  have he2 : e2.memoryWf := Dev.onPower_canon (Dev.inputLimit_canon he1)
  have he3 : e3.memoryWf := Dev.onPower_canon he2
  have he4 : e4.memoryWf := Dev.ite_canon (Dev.throttleUntil_canon he3) he3
  exact Dev.foldl_canon he4 (fun _ _ h5 => Dev.thermal_canon h5)

theorem Dev.measure_canon {seen} (h : d.memoryWf) : (d.measure seen).memoryWf :=
  Dev.ite_canon Dev.trip_canon (Dev.evaluate_canon h)

theorem execArbiterEvaluation_canon {seen} (h : s.dev.memoryWf) :
    Kept (execArbiterEvaluation seen s) := State.act_canon (Dev.ite_canon (Dev.measure_canon (Dev.onPower_canon h)) h)

theorem Dev.brakeEdge_canon {seen} (h : d.memoryWf) : (d.brakeEdge seen).memoryWf :=
  Dev.ite_canon (Dev.measure_canon h) h

theorem execPwrBrakeAssert_canon {seen} (h : s.dev.memoryWf) : Kept (execPwrBrakeAssert seen s) := by
  unfold execPwrBrakeAssert
  refine State.act_canon ?_
  split
  · exact h
  · extract_lets e1
    have he1 : e1.memoryWf := Dev.onPower_canon h
    exact Dev.brakeEdge_canon (Dev.ite_canon (Dev.event_canon (Dev.powerEvent_canon he1)) he1)

theorem execPwrBrakeRelease_canon {seen} (h : s.dev.memoryWf) :
    Kept (execPwrBrakeRelease seen s) := State.act_canon (Dev.ite_canon (Dev.brakeEdge_canon (Dev.onPower_canon h)) h)

theorem execInputMonitorSample_canon {watts} (h : s.dev.memoryWf) :
    Kept (execInputMonitorSample watts s) := State.act_canon (Dev.ite_canon (Dev.onPower_canon h) h)

theorem execDroopDetected_canon {die} (h : s.dev.memoryWf) : Kept (execDroopDetected die s) := by
  unfold execDroopDetected
  extract_lets
  refine State.act_canon ?_
  split
  · exact h
  · extract_lets e1
    have he1 : e1.memoryWf := by
      unfold e1
      split
      · exact Dev.throttle_canon h
      · exact h
    exact Dev.onClocks_canon (Dev.powerEvent_canon he1)

theorem Dev.avsStep_canon {die slack guard} (h : d.memoryWf) : (d.avsStep die slack guard).memoryWf := by
  unfold Dev.avsStep
  extract_lets _ _ _ _ e1
  have he1 : e1.memoryWf := Dev.keep h (by dsimp only)
  exact Dev.ite_canon (Dev.event_canon (Dev.mark_canon he1)) he1

theorem execAvsStep_canon {die slack guardBand} (h : s.dev.memoryWf) :
    Kept (execAvsStep die slack guardBand s) := State.act_canon (Dev.ite_canon (Dev.avsStep_canon h) h)

/- Vector. -/

theorem issueMod_canon {ctx w unused srcs latency f} (hx : x.wf) : Yields Tile.wf (issueMod ctx w unused srcs latency f x) :=
  .bind fun _ => .bind fun _ => .pure (Tile.launch_canon hx)

theorem issueFp_canon {ctx w srcs f} (hx : x.wf) : Yields Tile.wf (issueFp ctx w srcs f x) :=
  .bind fun _ => .pure (Tile.launch_canon hx)

theorem issueVadd_canon {ctx w} (hx : x.wf) : Yields Tile.wf (issueVadd ctx w x) :=
  issueMod_canon hx

theorem issueVsub_canon {ctx w} (hx : x.wf) : Yields Tile.wf (issueVsub ctx w x) :=
  issueMod_canon hx

theorem issueVneg_canon {ctx w} (hx : x.wf) : Yields Tile.wf (issueVneg ctx w x) :=
  issueMod_canon hx

theorem issueVmul_canon {ctx w} (hx : x.wf) : Yields Tile.wf (issueVmul ctx w x) :=
  issueMod_canon hx

theorem issueVmuls_canon {ctx w} (hx : x.wf) : Yields Tile.wf (issueVmuls ctx w x) :=
  issueMod_canon hx

theorem issueVmad_canon {ctx w} (hx : x.wf) : Yields Tile.wf (issueVmad ctx w x) :=
  issueMod_canon hx

theorem issueVmsb_canon {ctx w} (hx : x.wf) : Yields Tile.wf (issueVmsb ctx w x) :=
  issueMod_canon hx

theorem issueVmod_canon {ctx w} (hx : x.wf) : Yields Tile.wf (issueVmod ctx w x) :=
  issueMod_canon hx

theorem issueVmin_canon {ctx w} (hx : x.wf) : Yields Tile.wf (issueVmin ctx w x) :=
  issueMod_canon hx

theorem issueVmax_canon {ctx w} (hx : x.wf) : Yields Tile.wf (issueVmax ctx w x) :=
  issueMod_canon hx

theorem issueVcmp_canon {ctx w} (hx : x.wf) : Yields Tile.wf (issueVcmp ctx w x) :=
  .bind fun _ => .bind fun _ => .pure (Tile.launch_canon hx)

theorem issueFcmp_canon {ctx w} (hx : x.wf) : Yields Tile.wf (issueFcmp ctx w x) :=
  .bind fun _ => .pure (Tile.launch_canon hx)

theorem issueVsel_canon {ctx w} (hx : x.wf) : Yields Tile.wf (issueVsel ctx w x) :=
  .bind fun _ => .pure (Tile.launch_canon hx)

theorem issueCopy_canon {ctx w unused srcs f} (hx : x.wf) : Yields Tile.wf (issueCopy ctx w unused srcs f x) :=
  .bind fun _ => .pure (Tile.launch_canon hx)

theorem issueVmov_canon {ctx w} (hx : x.wf) : Yields Tile.wf (issueVmov ctx w x) :=
  issueCopy_canon hx

theorem issueVbcast_canon {ctx w} (hx : x.wf) : Yields Tile.wf (issueVbcast ctx w x) :=
  issueCopy_canon hx

theorem issueVperm_canon {ctx w} (hx : x.wf) : Yields Tile.wf (issueVperm ctx w x) := by
  unfold issueVperm
  refine .bind fun _ => ?_
  split
  · exact .pure (Tile.keep hx (by dsimp only))
  · exact .pure (Tile.launch_canon hx)

theorem issueMask_canon {ctx w unused srcs f} (hx : x.wf) : Yields Tile.wf (issueMask ctx w unused srcs f x) :=
  .bind fun _ => .pure (Tile.launch_canon hx)

theorem issueKand_canon {ctx w} (hx : x.wf) : Yields Tile.wf (issueKand ctx w x) :=
  issueMask_canon hx

theorem issueKor_canon {ctx w} (hx : x.wf) : Yields Tile.wf (issueKor ctx w x) :=
  issueMask_canon hx

theorem issueKxor_canon {ctx w} (hx : x.wf) : Yields Tile.wf (issueKxor ctx w x) :=
  issueMask_canon hx

theorem issueKnot_canon {ctx w} (hx : x.wf) : Yields Tile.wf (issueKnot ctx w x) :=
  issueMask_canon hx

theorem issueKset_canon {ctx w} (hx : x.wf) : Yields Tile.wf (issueKset ctx w x) :=
  issueMask_canon hx

theorem issueKtail_canon {ctx w} (hx : x.wf) : Yields Tile.wf (issueKtail ctx w x) :=
  .bind fun _ => .bind fun _ => .pure (Tile.launch_canon hx)

theorem issueFadd_canon {ctx w} (hx : x.wf) : Yields Tile.wf (issueFadd ctx w x) :=
  issueFp_canon hx

theorem issueFsub_canon {ctx w} (hx : x.wf) : Yields Tile.wf (issueFsub ctx w x) :=
  issueFp_canon hx

theorem issueFmul_canon {ctx w} (hx : x.wf) : Yields Tile.wf (issueFmul ctx w x) :=
  issueFp_canon hx

theorem issueFma_canon {ctx w} (hx : x.wf) : Yields Tile.wf (issueFma ctx w x) :=
  issueFp_canon hx

theorem issueFmin_canon {ctx w} (hx : x.wf) : Yields Tile.wf (issueFmin ctx w x) :=
  issueFp_canon hx

theorem issueFmax_canon {ctx w} (hx : x.wf) : Yields Tile.wf (issueFmax ctx w x) :=
  issueFp_canon hx

theorem issueCvtrf_canon {ctx w} (hx : x.wf) : Yields Tile.wf (issueCvtrf ctx w x) :=
  issueMod_canon hx

theorem issueCvtfr_canon {ctx w} (hx : x.wf) : Yields Tile.wf (issueCvtfr ctx w x) :=
  .bind fun _ => .bind fun _ => .pure (Tile.launch_canon hx)

theorem issueVld_canon {ctx w} (hx : x.wf) : Yields Tile.wf (issueVld ctx w x) := by
  unfold issueVld
  exact .bind fun _ => .bind fun _ => .bind fun _ => .bind fun _ => .bind fun _ => .bind fun _ => .bindOf (claim_canon hx) fun _ h1 => .pure
    (Tile.launch_canon (Tile.request_canon h1))

theorem issueVst_canon {ctx w} (hx : x.wf) : Yields Tile.wf (issueVst ctx w x) := by
  unfold issueVst
  exact .bind fun _ => .bind fun _ => .bind fun _ => .bind fun _ => .bind fun _ => .bind fun _ => .bindOf (claim_canon hx) fun _ h1 => .pure
    (Tile.launch_canon h1)

theorem issueScan_canon {ctx w c latency} (hx : x.wf) : Yields Tile.wf (issueScan ctx w c latency x) :=
  .bind fun _ => .bind fun _ => .pure (Tile.launch_canon hx)

theorem issueTree_canon {ctx w c latency} (hx : x.wf) : Yields Tile.wf (issueTree ctx w c latency x) :=
  .bind fun _ => .bind fun _ => .pure (Tile.launch_canon hx)

theorem issueVscanMsum_canon {ctx w} (hx : x.wf) : Yields Tile.wf (issueVscanMsum ctx w x) :=
  issueScan_canon hx

theorem issueVscanMmin_canon {ctx w} (hx : x.wf) : Yields Tile.wf (issueVscanMmin ctx w x) :=
  issueScan_canon hx

theorem issueVscanMmax_canon {ctx w} (hx : x.wf) : Yields Tile.wf (issueVscanMmax ctx w x) :=
  issueScan_canon hx

theorem issueVscanFsum_canon {ctx w} (hx : x.wf) : Yields Tile.wf (issueVscanFsum ctx w x) :=
  issueScan_canon hx

theorem issueVscanFmin_canon {ctx w} (hx : x.wf) : Yields Tile.wf (issueVscanFmin ctx w x) :=
  issueScan_canon hx

theorem issueVscanFmax_canon {ctx w} (hx : x.wf) : Yields Tile.wf (issueVscanFmax ctx w x) :=
  issueScan_canon hx

theorem issueVtreeMsum_canon {ctx w} (hx : x.wf) : Yields Tile.wf (issueVtreeMsum ctx w x) :=
  issueTree_canon hx

theorem issueVtreeMprod_canon {ctx w} (hx : x.wf) : Yields Tile.wf (issueVtreeMprod ctx w x) :=
  issueTree_canon hx

theorem issueVtreeMmin_canon {ctx w} (hx : x.wf) : Yields Tile.wf (issueVtreeMmin ctx w x) :=
  issueTree_canon hx

theorem issueVtreeMmax_canon {ctx w} (hx : x.wf) : Yields Tile.wf (issueVtreeMmax ctx w x) :=
  issueTree_canon hx

theorem issueVtreeFsum_canon {ctx w} (hx : x.wf) : Yields Tile.wf (issueVtreeFsum ctx w x) :=
  issueTree_canon hx

theorem issueVtreeFmin_canon {ctx w} (hx : x.wf) : Yields Tile.wf (issueVtreeFmin ctx w x) :=
  issueTree_canon hx

theorem issueVtreeFmax_canon {ctx w} (hx : x.wf) : Yields Tile.wf (issueVtreeFmax ctx w x) :=
  issueTree_canon hx

/- Bundle. -/

theorem issueNop_canon {ctx w} (hx : x.wf) : Yields Tile.wf (issueNop ctx w x) :=
  .bind fun _ => .pure hx

theorem vIssue_canon {opc f ctx w} (row : vIssue opc = some f) (hx : x.wf) : Yields Tile.wf (f ctx w x) := by
  unfold vIssue at row
  split at row <;> cases row
  · exact issueNop_canon hx
  · exact issueVadd_canon hx
  · exact issueVsub_canon hx
  · exact issueVneg_canon hx
  · exact issueVmul_canon hx
  · exact issueVmuls_canon hx
  · exact issueVmad_canon hx
  · exact issueVmsb_canon hx
  · exact issueVmod_canon hx
  · exact issueVcmp_canon hx
  · exact issueVmin_canon hx
  · exact issueVmax_canon hx
  · exact issueVsel_canon hx
  · exact issueVmov_canon hx
  · exact issueVbcast_canon hx
  · exact issueVperm_canon hx
  · exact issueKand_canon hx
  · exact issueKor_canon hx
  · exact issueKxor_canon hx
  · exact issueKnot_canon hx
  · exact issueKset_canon hx
  · exact issueKtail_canon hx
  · exact issueFadd_canon hx
  · exact issueFsub_canon hx
  · exact issueFmul_canon hx
  · exact issueFma_canon hx
  · exact issueFmin_canon hx
  · exact issueFmax_canon hx
  · exact issueFcmp_canon hx
  · exact issueCvtrf_canon hx
  · exact issueCvtfr_canon hx
  · exact issueVld_canon hx
  · exact issueVst_canon hx
  · exact issueVscanMsum_canon hx
  · exact issueVscanMmin_canon hx
  · exact issueVscanMmax_canon hx
  · exact issueVscanFsum_canon hx
  · exact issueVscanFmin_canon hx
  · exact issueVscanFmax_canon hx
  · exact issueVtreeMsum_canon hx
  · exact issueVtreeMprod_canon hx
  · exact issueVtreeMmin_canon hx
  · exact issueVtreeMmax_canon hx
  · exact issueVtreeFsum_canon hx
  · exact issueVtreeFmin_canon hx
  · exact issueVtreeFmax_canon hx

theorem issueHopAny_canon {ctx w} (hx : x.wf) : Yields Tile.wf (issueHopAny ctx w x) := by
  unfold issueHopAny
  split
  · exact .error _
  · exact issueInvalidate_canon hx
  · exact issueHop_canon hx

theorem sIssue_canon {opc f ctx w} (row : sIssue opc = some f) (hx : x.wf) : Yields Tile.wf (f ctx w x) := by
  unfold sIssue at row
  split at row <;> cases row
  · exact issueNop_canon hx
  · exact issueWait_canon hx
  · exact issueDmaiss_canon hx
  · exact issuePwld_canon hx
  · exact issueFlagclr_canon hx
  · exact issueEndst_canon hx
  · exact issueSli_canon hx
  · exact issueSlis_canon hx
  · exact issueSaddi_canon hx
  · exact issueSalu_canon hx
  · exact issueCcld_canon hx
  · exact issueHld_canon hx
  · exact issueHst_canon hx
  · exact issueHopAny_canon hx
  · exact issueKarm_canon hx
  · exact issueKrel_canon hx
  · exact issueExpand_canon hx

theorem tIssue_canon {opc f ctx w} (row : tIssue opc = some f) (hx : x.wf) : Yields Tile.wf (f ctx w x) := by
  unfold tIssue at row
  split at row <;> cases row
  · exact issueNop_canon hx
  · exact issueNtt_canon hx
  · exact issueIntt_canon hx
  · exact issueAuto_canon hx
  · exact issuePerm_canon hx
  · exact issueTxp_canon hx

theorem mIssue_canon {opc f ctx w} (row : mIssue opc = some f) (hx : x.wf) : Yields Tile.wf (f ctx w x) := by
  unfold mIssue at row
  split at row <;> cases row
  · exact issueNop_canon hx
  · exact issueMma_canon hx
  · exact issueDsm_canon hx
  · exact issueMspill_canon hx
  · exact issueMresume_canon hx
  · exact issueMepi_canon hx
  · exact issueMchs_canon hx
  · exact issueMchr_canon hx

theorem issueSlot_canon {sl ctx w} (hx : x.wf) : Yields Tile.wf (issueSlot sl ctx w x) := by
  unfold issueSlot
  split
  · exact issueLoop_canon hx
  · split
    · next f row =>
      split at row
      · exact sIssue_canon row hx
      · exact vIssue_canon row hx
      · exact tIssue_canon row hx
      · exact mIssue_canon row hx
    · exact .error _

theorem firstFetch_canon {ctx} (hx : x.wf) : Yields Tile.wf (firstFetch ctx x) := by
  unfold firstFetch
  dsimp only
  split
  · exact .error _
  · exact .ok (Tile.fetchNma_canon (Tile.fetchTu_canon hx))

theorem issueSlots_canon {ctx b slots} (hx : x.wf) : Yields Tile.wf (issueSlots ctx b slots x) := by
  induction slots generalizing x with
  | nil => exact firstFetch_canon hx
  | cons sl slots ih =>
    unfold issueSlots
    split
    · next y issued => exact ih (issueSlot_canon hx y issued)
    · exact .error _

theorem loopBack_canon {a n} (hx : x.wf) : (loopBack a n x).1.wf := by
  induction n generalizing x with
  | zero => exact hx
  | succ n ih =>
    unfold loopBack
    dsimp only
    split
    · split
      · exact hx
      · exact ih hx
    · exact ih hx

theorem Tile.advancePc_canon {ctx} (hx : x.wf) : (x.advancePc ctx).wf := by
  unfold Tile.advancePc
  extract_lets _ y1 y2
  have hy1 : y1.wf := loopBack_canon hx
  have hy2 : y2.wf := Tile.keep hy1 (by dsimp only)
  exact Tile.ite_canon (Tile.keep hy2 (by dsimp only)) (Tile.keep hy2 (by dsimp only))

theorem Tile.issueHalt_canon {ctx e} (hx : x.wf) : (x.issueHalt ctx e).wf := by
  unfold Tile.issueHalt
  extract_lets y1 y2
  have hy1 : y1.wf := by
    unfold y1
    split
    · exact Tile.scrErr_canon hx
    · exact hx
  have hy2 : y2.wf := Tile.halt_canon hy1
  exact Tile.ite_canon (Tile.keep hy2 (by dsimp only)) hy2

theorem Tile.issueBundle_canon {ctx} (hx : x.wf) : (x.issueBundle ctx).wf := by
  unfold Tile.issueBundle
  split
  · exact Tile.issueHalt_canon hx
  · next y issued => exact Tile.tryPend_canon (Tile.advancePc_canon (issueSlots_canon hx y issued))

theorem Tile.issueOne_canon {ctx sl f} (hx : x.wf) (hf : ∀ ctx x, x.wf → Yields Tile.wf (f ctx x)) : (x.issueOne ctx sl f).wf := by
  unfold Tile.issueOne
  split
  · exact Tile.issueHalt_canon hx
  · next y issued =>
    split
    · exact Tile.issueHalt_canon hx
    · next z fetched => exact Tile.tryPend_canon (firstFetch_canon (hf _ _ hx y issued) z fetched)

/- Schedule. -/

theorem Dev.insertEcc_canon {g} (h : d.memoryWf) : (d.insertEcc g).memoryWf :=
  Dev.ite_canon (Dev.setGroup_canon h) h

theorem Dev.settleTile_canon {g t} (h : d.memoryWf) : (d.settleTile g t).memoryWf :=
  Dev.onTile_canon h (fun _ h1 => Tile.settle_canon h1)

theorem Dev.endTile_canon {g t} (h : d.memoryWf) : (d.endTile g t).memoryWf :=
  Dev.onTile_canon h (fun _ h1 => Tile.endCycle_canon h1)

theorem Dev.issueTile_canon {g t} (h : d.memoryWf) : (d.issueTile g t).memoryWf :=
  Dev.ite_canon h (Dev.coverTaken_canon (Dev.extentCheck_canon (Dev.onTile_canon h (fun _ h2 => Tile.issueBundle_canon h2))))

theorem Dev.reachCount_canon {g t} (h : d.memoryWf) : (d.reachCount g t).memoryWf := by
  unfold Dev.reachCount
  extract_lets e1 _ _ e2
  have he1 : e1.memoryWf := Dev.onTile_canon h (fun _ h2 => Tile.halt_canon h2)
  have he2 : e2.memoryWf := Dev.mapGroups_canon (Dev.drew_canon he1)
  exact Dev.keep he2 (by dsimp only)

theorem Dev.pipeCycle_canon {g n issue} (h : d.memoryWf) (hf : ∀ d, d.memoryWf → (issue d).memoryWf) : (d.pipeCycle g n issue).memoryWf := by
  unfold Dev.pipeCycle
  extract_lets _ e1 e2
  have he1 : e1.memoryWf := hf _ (Dev.foldl_canon h (fun _ _ h2 => Dev.settleTile_canon h2))
  have he2 : e2.memoryWf := Dev.foldl_canon he1 (fun _ _ h2 => Dev.endTile_canon h2)
  exact Dev.setGroup_canon he2

theorem Dev.scheduleCycle_canon {g} (h : d.memoryWf) : (d.scheduleCycle g).memoryWf := by
  unfold Dev.scheduleCycle
  extract_lets e1
  have he1 : e1.memoryWf := Dev.insertEcc_canon h
  split
  · exact h
  · split
    · exact Dev.setGroup_canon he1
    · split
      · exact Dev.pipeCycle_canon he1 (fun _ h2 => h2)
      · refine Dev.pipeCycle_canon he1 ?_
        refine fun _ h2 => ?_
        refine Dev.foldl_canon ?_ (fun _ _ h3 => Dev.issueTile_canon h3)
        split
        · exact Dev.reachCount_canon h2
        · exact h2

theorem Dev.issueSlotOf_canon {t sl f} (h : d.memoryWf) (hf : ∀ ctx x, x.wf → Yields Tile.wf (f ctx x)) : (d.issueSlotOf t sl f).memoryWf := by
  unfold Dev.issueSlotOf
  split
  · extract_lets e1
    have he1 : e1.memoryWf := Dev.insertEcc_canon h
    split
    · refine Dev.coverTaken_canon ?_
      refine Dev.extentCheck_canon ?_
      exact Dev.onTile_canon he1 (fun _ h2 => Tile.ite_canon (Tile.settle_canon h2) (Tile.issueOne_canon (Tile.settle_canon h2) hf))
    · exact he1
  · exact h

theorem Dev.onMember_canon {t f} (h : d.memoryWf) (hf : ∀ ctx x, x.wf → (f ctx x).wf) : (d.onMember t f).memoryWf := by
  unfold Dev.onMember
  split
  · exact Dev.onTile_canon h (fun _ h1 => hf _ _ h1)
  · exact h

theorem Dev.onOpen_canon {t f} (h : d.memoryWf) (hf : ∀ ctx x, x.wf → (f ctx x).wf) : (d.onOpen t f).memoryWf := by
  unfold Dev.onOpen
  split
  · extract_lets e1
    have he1 : e1.memoryWf := Dev.insertEcc_canon h
    exact Dev.ite_canon (Dev.onTile_canon he1 (fun _ h2 => hf _ _ h2)) he1
  · exact h

theorem Tile.judge_canon {r} (hx : x.wf) : (x.judge r).wf := by
  unfold Tile.judge
  exact Tile.keep hx (by dsimp only)

theorem Tile.correct_canon {r} (hx : x.wf) : (x.correct r).wf :=
  Tile.findError_canon (Tile.judge_canon hx)

theorem Tile.rowMeets_canon {ctx ecc r} (hx : x.wf) : (x.rowMeets ctx ecc r).wf := by
  unfold Tile.rowMeets
  split
  · exact Tile.deliver_canon hx
  · exact Tile.correct_canon hx
  · exact Tile.ite_canon (Tile.judge_canon hx) (Tile.deliver_canon hx)

theorem execEngineRowDelivery_canon {t ecc} (h : s.dev.memoryWf) : Kept (execEngineRowDelivery t ecc s) := by
  unfold execEngineRowDelivery
  refine State.act_canon ?_
  refine Dev.onOpen_canon h ?_
  refine fun _ _ h1 => ?_
  split
  · exact Tile.rowMeets_canon h1
  · exact h1

theorem Dev.tryOne_canon {t p} (h : d.memoryWf) : (d.tryOne t p).memoryWf :=
  Dev.ite_canon (Dev.onTile_canon h (fun _ h1 => Tile.completePend_canon h1)) h

theorem execPendingWaitComplete_canon {t} (h : s.dev.memoryWf) :
    Kept (execPendingWaitComplete t s) := State.act_canon (Dev.ite_canon h (Dev.coverTaken_canon (Dev.foldl_canon h
      (fun _ _ h1 => Dev.tryOne_canon h1))))

theorem execArrivalTimeout_canon {t} (h : s.dev.memoryWf) : Kept (execArrivalTimeout t s) := by
  unfold execArrivalTimeout
  refine State.act_canon ?_
  split
  · exact Dev.onTile_canon h (fun _ h1 => Tile.halt_canon h1)
  · exact h

theorem execStageEnd_canon {g} (h : s.dev.memoryWf) : Kept (execStageEnd g s) := by
  unfold execStageEnd
  refine State.act_canon ?_
  split
  · extract_lets _ e1
    have he1 : e1.memoryWf := Dev.setGroup_canon h
    exact Dev.keep he1 (by dsimp only)
  · exact h

theorem execTransformInvariantClose_canon {t upset} (h : s.dev.memoryWf) :
    Kept (execTransformInvariantClose t upset s) := State.act_canon (Dev.onOpen_canon h (fun _ _ h1 => Tile.ite_canon (Tile.closeDue_canon h1)
      (Tile.tellUpset_canon h1)))

/- Sentinel. -/

theorem Tile.sentinelSample_canon {self x' faulty a b} (hx : x.wf) : (x.sentinelSample self x' faulty a b).1.wf := by
  unfold Tile.sentinelSample
  dsimp only
  split
  · exact Tile.keep hx (by dsimp only)
  · split <;> exact Tile.keep hx (by dsimp only)

theorem Dev.sampleRow_canon {t shadow second x' seen} (h : d.memoryWf) : (d.sampleRow t shadow second x' seen).1.memoryWf := by
  unfold Dev.sampleRow
  extract_lets row late read got
  have hread : read.1.memoryWf := Dev.portRead_canon (Dev.onTile_canon h fun _ hx => Tile.takeSlot_canon hx)
  rw [apply_ite Prod.fst]
  exact Dev.ite_canon h hread

theorem execSentinelSample_canon {t faulty} (h : s.dev.memoryWf) : Kept (execSentinelSample t faulty s) := by
  unfold execSentinelSample
  refine State.act_canon ?_
  split
  · exact h
  · extract_lets
    split
    · exact h
    · split
      · exact Dev.onTile_canon (Dev.sampleRow_canon (Dev.sampleRow_canon h)) (fun _ h1 => Tile.keep h1 (by dsimp only))
      · extract_lets _ e1
        have he1 : e1.memoryWf := Dev.setTile_canon (Dev.sampleRow_canon (Dev.sampleRow_canon h)) (Tile.sentinelSample_canon (Dev.tile_canon
          (Dev.sampleRow_canon (Dev.sampleRow_canon h))))
        split
        · exact Dev.event_canon he1
        · exact he1

/- TickOps. -/

theorem Tile.poisonHeader_canon {n} (hx : x.wf) : (x.poisonHeader n).wf := by
  unfold Tile.poisonHeader
  extract_lets _ _ _ y1
  have hy1 : y1.wf := Tile.keep hx (by dsimp only)
  exact Tile.ite_canon (Tile.setRow_wf _ _ _ hy1) hy1

theorem Tile.poisonNamed_canon (hx : x.wf) : x.poisonNamed.wf := by
  unfold Tile.poisonNamed
  extract_lets y1
  have hy1 : y1.wf := Tile.foldl_canon hx (fun _ _ h1 => Tile.ite_canon (Tile.poisonHeader_canon h1) h1)
  exact Tile.keep hy1 (by dsimp only)

theorem Tile.skip_canon {self} (hx : x.wf) : (x.skip self).wf := by
  unfold Tile.skip
  extract_lets y1
  have hy1 : y1.wf := Tile.stopQueues_canon (Tile.dropFlights_canon hx)
  exact Tile.poisonNamed_canon (Tile.keep hy1 (by dsimp only))

theorem Tile.clearArrivals_canon (hx : x.wf) : x.clearArrivals.wf := by
  unfold Tile.clearArrivals
  exact Tile.keep hx (by dsimp only)

theorem Dev.poisonOutput_canon {r} (h : d.memoryWf) : (d.poisonOutput r).memoryWf := by
  unfold Dev.poisonOutput
  split
  · exact Dev.ite_canon (Dev.setTile_canon h (Tile.setRow_wf _ _ _ (Dev.tile_canon h))) h
  · exact Dev.ite_canon (Dev.receiveMem_canon h) h

theorem Dev.poisonStage_canon {stage} (h : d.memoryWf) : (d.poisonStage stage).memoryWf := by
  unfold Dev.poisonStage
  split
  · exact Dev.foldl_canon h (fun _ _ h1 => Dev.poisonOutput_canon h1)
  · exact h

theorem Dev.poisonOutputs_canon (h : d.memoryWf) : d.poisonOutputs.memoryWf := by
  unfold Dev.poisonOutputs
  extract_lets e1
  have he1 : e1.memoryWf := Dev.foldl_canon h (fun _ _ h1 => Dev.poisonStage_canon h1)
  exact Dev.mapGroups_canon he1

theorem Dev.stopTiles_canon {e} (h : d.memoryWf) : (d.stopTiles e).memoryWf := by
  unfold Dev.stopTiles
  extract_lets stopped
  have hs : stopped.memoryWf := Dev.mapTiles_canon h fun _ _ hx => Tile.keep (Tile.skip_canon hx) (by dsimp only)
  exact Dev.keep hs (by dsimp only)

theorem Dev.settled_canon (h : d.memoryWf) : d.settled.memoryWf := by
  unfold Dev.settled
  extract_lets e1 e2
  have he1 : e1.memoryWf := Dev.mapTiles_canon h (fun _ _ h2 => Tile.keep (Tile.clearArrivals_canon h2) (by dsimp only))
  have he2 : e2.memoryWf := Dev.poisonOutputs_canon he1
  exact Dev.keep he2 (by dsimp only)

theorem Tile.recordStop_canon {aborted} (hx : x.wf) : (x.recordStop aborted).wf := by
  unfold Tile.recordStop
  extract_lets _ y1
  have hy1 : y1.wf := Tile.keep hx (by dsimp only)
  exact Tile.ite_canon (Tile.keep hy1 (by dsimp only)) (Tile.keep hy1 (by dsimp only))

theorem Dev.abandonReductions_canon (h : d.memoryWf) : d.abandonReductions.memoryWf := by
  unfold Dev.abandonReductions
  extract_lets _ _ _ e1
  have he1 : e1.memoryWf := Dev.keep h (by dsimp only)
  exact Dev.foldl_canon he1 (fun _ _ h2 => Dev.event_canon h2)

theorem Dev.closeRun_canon {aborted} (h : d.memoryWf) : (d.closeRun aborted).memoryWf := by
  unfold Dev.closeRun
  extract_lets e1 e2
  have he1 : e1.memoryWf := Dev.mapTiles_canon h (fun _ _ h2 => Tile.recordStop_canon h2)
  have he2 : e2.memoryWf := Dev.abandonReductions_canon (Dev.mapGroups_canon he1)
  exact Dev.keep he2 (by dsimp only)

theorem Dev.finishRunJobs_canon {aborted} (h : d.memoryWf) : (d.finishRunJobs aborted).memoryWf := by
  unfold Dev.finishRunJobs
  extract_lets _ e1 e2
  have he1 : e1.memoryWf := Dev.finishAll_canon h
  have he2 : e2.memoryWf := Dev.finishAll_canon he1
  exact Dev.finishAll_canon he2

theorem Dev.enterHalted_canon {opcode aborted} (h : d.memoryWf) : (d.enterHalted opcode aborted).memoryWf :=
  Dev.finishRunJobs_canon (Dev.enter_canon (Dev.closeRun_canon h))

theorem Dev.noteOverrun_canon {skip g} (h : d.memoryWf) : (d.noteOverrun skip g).memoryWf := by
  unfold Dev.noteOverrun
  extract_lets _ e1
  have he1 : e1.memoryWf := Dev.mark_canon (Dev.setGroup_canon h)
  exact Dev.event_canon (Dev.mark_canon (Dev.keep he1 (by dsimp only)))

theorem Dev.haltOverrun_canon {g} (h : d.memoryWf) : (d.haltOverrun g).memoryWf :=
  Dev.foldl_canon h (fun _ _ h1 => Dev.onTile_canon h1 (fun _ h2 => Tile.halt_canon h2))

theorem Dev.skipGroup_canon {g} (h : d.memoryWf) : (d.skipGroup g).memoryWf := by
  unfold Dev.skipGroup
  extract_lets e1 e2
  have he1 : e1.memoryWf := Dev.poisonStage_canon h
  have he2 : e2.memoryWf := Dev.foldl_canon he1 (fun _ _ h2 => Dev.setTile_canon h2 (Tile.skip_canon (Dev.tile_canon h2)))
  exact Dev.setGroup_canon he2

theorem Dev.stageDeadline_canon (h : d.memoryWf) : d.stageDeadline.memoryWf := by
  unfold Dev.stageDeadline
  extract_lets _ _ _ e1 e2 _ _ e3 e4
  have he1 : e1.memoryWf := Dev.foldl_canon h (fun _ _ h4 => Dev.noteOverrun_canon h4)
  have he2 : e2.memoryWf := Dev.mapGroups_canon he1
  have he3 : e3.memoryWf := Dev.keep he2 (by dsimp only)
  have he4 : e4.memoryWf := Dev.foldl_canon he3 (fun _ _ h4 => Dev.skipGroup_canon h4)
  split
  · exact h
  · split
    · exact Dev.enterHalted_canon he3
    · split
      · exact he3
      · exact Dev.ite_canon (Dev.keep he4 (by dsimp only)) (Dev.enterHalted_canon (Dev.foldl_canon he3 (fun _ _ h5 => Dev.haltOverrun_canon h5)))

theorem Tile.boundary_canon {wall} (hx : x.wf) : (x.boundary wall).wf := by
  unfold Tile.boundary
  extract_lets y1 y2 _ y3
  have hy1 : y1.wf := Tile.arrivals_canon hx
  have hy2 : y2.wf := Tile.ite_canon (Tile.raiseScr_canon hy1) hy1
  have hy3 : y3.wf := Tile.clearArrivals_canon hy2
  exact Tile.keep hy3 (by dsimp only)

theorem Tile.installContexts_canon {keys keysets refs} (hx : x.wf) : (x.installContexts keys keysets refs).wf := by
  unfold Tile.installContexts
  exact Tile.keep hx (by dsimp only)

theorem Dev.beginRunTick_canon (h : d.memoryWf) : d.beginRunTick.memoryWf := by
  unfold Dev.beginRunTick
  extract_lets e _ e1
  have he : e.memoryWf := Dev.mapTiles_canon h fun _ _ hx => Tile.boundary_canon hx
  have he1 : e1.memoryWf := Dev.keep he (by dsimp only)
  split
  · exact he
  · extract_lets e2 _ e3 _ _ e4 e5
    have he2 : e2.memoryWf := Dev.mapGroups_canon he1
    have he3 : e3.memoryWf := Dev.mapTiles_canon he2 fun _ _ hx => Tile.installContexts_canon hx
    have he4 : e4.memoryWf := Dev.keep he3 (by dsimp only)
    have he5 : e5.memoryWf := Dev.drew_canon he4
    exact Dev.ite_canon (Dev.mapGroups_canon he1) (Dev.ite_canon (Dev.keep he5 (by dsimp only)) he4)

theorem Dev.stopUnbegun_canon {resume} (h : d.memoryWf) : (d.stopUnbegun resume).memoryWf := by
  unfold Dev.stopUnbegun
  extract_lets _ e1 e2
  have he1 : e1.memoryWf := Dev.enter_canon (Dev.abandonReductions_canon (Dev.keep h (by dsimp only)))
  have he2 : e2.memoryWf := Dev.finishAll_canon he1
  exact Dev.finishAll_canon he2

theorem Dev.runBoundary_canon (h : d.memoryWf) : d.runBoundary.memoryWf := by
  unfold Dev.runBoundary
  extract_lets e1
  have he1 : e1.memoryWf := Dev.mapGroups_canon h
  split
  · exact Dev.ite_canon h (Dev.mapGroups_canon h)
  · split
    · split
      · exact Dev.stopUnbegun_canon (Dev.mapTiles_canon h (fun _ _ h2 => Tile.boundary_canon h2))
      · exact Dev.beginRunTick_canon (Dev.keep he1 (by dsimp only))
    · exact Dev.ite_canon (Dev.beginRunTick_canon (Dev.keep h (by dsimp only))) (Dev.beginRunTick_canon (Dev.keep h (by dsimp only)))

theorem Mem.atBoundary_canon (hm : m.wf) : m.atBoundary.wf := by
  unfold Mem.atBoundary
  exact Mem.keep hm (by dsimp only)

theorem Dev.tickBoundary_canon (h : d.memoryWf) : d.tickBoundary.memoryWf := by
  unfold Dev.tickBoundary
  split
  · exact h
  · extract_lets _ _
    split
    extract_lets _ e1 e2 e3
    have he1 : e1.memoryWf := Dev.keep h (by dsimp only)
    have he2 : e2.memoryWf := Dev.ite_canon (Dev.pulse_canon he1) he1
    have he3 : e3.memoryWf := Dev.finishAll_canon he2
    have he4 : { e3 with held := e3.held.filter (fun h => !h.isSwap) }.memoryWf := Dev.keep he3 (by dsimp only)
    exact Dev.runBoundary_canon (Dev.finishStages_canon (Dev.noteOverride_canon (Dev.onMem_canon he4 fun _ hm => Mem.atBoundary_canon hm)))

theorem Dev.earlyEdge_canon {n} (h : d.memoryWf) : (d.earlyEdge n).memoryWf := by
  unfold Dev.earlyEdge
  exact Dev.event_canon (Dev.mark_canon (Dev.keep h (by dsimp only)))

theorem Dev.tickInEdge_canon (h : d.memoryWf) : d.tickInEdge.memoryWf := by
  unfold Dev.tickInEdge
  extract_lets _ e1 e2 _ e3
  have he1 : e1.memoryWf := Dev.drew_canon h
  have he2 : e2.memoryWf := Dev.ite_canon (Dev.pulse_canon he1) he1
  have he3 : e3.memoryWf := Dev.keep he2 (by dsimp only)
  split
  · exact h
  · split
    · exact Dev.earlyEdge_canon (Dev.keep he3 (by dsimp only))
    · split
      · exact Dev.keep he3 (by dsimp only)
      · exact Dev.ite_canon he3 (Dev.earlyEdge_canon (Dev.keep he3 (by dsimp only)))

theorem Dev.tickInLost_canon (h : d.memoryWf) : d.tickInLost.memoryWf := by
  unfold Dev.tickInLost
  exact Dev.ite_canon (Dev.event_canon (Dev.mark_canon (Dev.keep h (by dsimp only)))) h

theorem Tile.beginStage_canon {entry} (hx : x.wf) : (x.beginStage entry).wf := by
  unfold Tile.beginStage
  extract_lets y1
  have hy1 : y1.wf := Tile.clearArrivals_canon hx
  exact Tile.keep hy1 (by dsimp only)

theorem Dev.stopDone_canon (h : d.memoryWf) : d.stopDone.memoryWf := by
  unfold Dev.stopDone
  extract_lets e1 _ _ e2 e3
  have he1 : e1.memoryWf := Dev.mapTiles_canon h (fun _ _ h3 => Tile.clearArrivals_canon h3)
  have he2 : e2.memoryWf := Dev.abandonReductions_canon (Dev.keep he1 (by dsimp only))
  have he3 : e3.memoryWf := Dev.enter_canon he2
  exact Dev.finishAll_canon he3

theorem Dev.beginStages_canon {ext} (h : d.memoryWf) : (d.beginStages ext).memoryWf := by
  unfold Dev.beginStages
  extract_lets e1 e2 _ _ _ e3
  have he1 : e1.memoryWf := by
    unfold e1
    refine Dev.mapTiles_canon h ?_
    refine fun _ _ h3 => ?_
    split
    · exact Tile.beginStage_canon h3
    · exact Tile.clearArrivals_canon h3
  have he2 : e2.memoryWf := Dev.mapGroups_canon he1
  have he3 : e3.memoryWf := Dev.keep he2 (by dsimp only)
  exact Dev.finishAll_canon he3

theorem Dev.stageStart_canon (h : d.memoryWf) : d.stageStart.memoryWf := by
  unfold Dev.stageStart
  extract_lets _ _ e1 _ e2 e3
  have he1 : e1.memoryWf := Dev.keep h (by dsimp only)
  have he2 : e2.memoryWf := Dev.ite_canon (Dev.event_canon (Dev.mark_canon (Dev.keep he1 (by dsimp only)))) he1
  have he3 : e3.memoryWf := Dev.poisonOutputs_canon he2
  split
  · exact h
  · exact Dev.ite_canon (Dev.ite_canon (Dev.enterHalted_canon he3) (Dev.stopDone_canon he3)) (Dev.beginStages_canon he3)

theorem execCountReached_canon {t} (h : s.dev.memoryWf) : Kept (execCountReached t s) := State.event_canon (Dev.ite_canon (Dev.enterHalted_canon h) h)

/- ReadRegs. -/

theorem Dev.shownTile_canon {t} (h : d.memoryWf) : (d.shownTile t).wf := Tile.ite_canon rfl (Dev.tile_canon h)

theorem Dev.snap_canon {off} (h : d.memoryWf) : (d.snap off).memoryWf := by
  unfold Dev.snap
  exact Dev.ite_canon h (Dev.ite_canon (Dev.keep h (by dsimp only)) (Dev.ite_canon (Dev.keep h (by dsimp only)) h))

theorem Dev.readWord_canon {off} (h : d.memoryWf) : (d.readWord off).memoryWf := by
  unfold Dev.readWord
  extract_lets e1
  have he1 : e1.memoryWf := Dev.emit_canon h
  exact Dev.ite_canon (Dev.keep he1 (by dsimp only)) (Dev.snap_canon he1)

theorem execLowWordRead_canon {a} (h : s.dev.memoryWf) : Kept (execLowWordRead a s) := by
  unfold execLowWordRead
  refine State.act_canon ?_
  refine Dev.unlessTripped_canon h ?_
  refine fun _ h1 => ?_
  split
  · exact h1
  · exact Dev.ite_canon (Dev.readWord_canon h1) (Dev.emit_canon h1)
  · exact Dev.ite_canon (Dev.emit_canon h1) (Dev.emit_canon h1)

/- HostCmds. -/

theorem execSetTick_canon {c} (h : s.dev.memoryWf) :
    Kept (execSetTick c s) := State.act_canon (Dev.command_canon h (fun _ _ h1 => Dev.ite_canon (Dev.complete_canon h1) (Dev.becomePending_canon
      (Dev.keep h1 (by dsimp only)))))

theorem Mem.onMask_canon {mask f} (hm : m.wf) : (m.onMask mask f).wf := by
  unfold Mem.onMask
  exact Mem.keep hm (by dsimp only)

theorem execChannelTest_canon {c block} (h : s.dev.memoryWf) : Kept (execChannelTest c block s) := by
  unfold execChannelTest
  refine State.act_canon ?_
  refine Dev.command_canon h ?_
  refine fun _ _ h1 => ?_
  split
  · exact h1
  · exact Dev.ite_canon (Dev.complete_canon h1) (Dev.becomePending_canon (Dev.onMem_canon h1 (fun _ h2 => Mem.onMask_canon h2)))

theorem Dev.testUe_canon {r first pages} (h : d.memoryWf) : (d.testUe r first pages).memoryWf :=
  Dev.foldl_canon h (fun _ _ h1 => Dev.ite_canon (Dev.memUe_canon h1) h1)

theorem Dev.testDone_canon {sent micros} (h : d.memoryWf) : (d.testDone sent micros).memoryWf := by
  unfold Dev.testDone
  extract_lets
  split
  · exact h
  · split
    · extract_lets _ _ e1 e2 e3
      have he1 : e1.memoryWf := Dev.foldl_canon h (fun _ _ h3 => Dev.testUe_canon h3)
      have he2 : e2.memoryWf := Dev.onMem_canon he1 (fun _ h3 => Mem.onMask_canon h3)
      have he3 : e3.memoryWf := Dev.ite_canon (Dev.onMem_canon he2 (fun _ h3 => Mem.forgetTested_wf _ _ _ _ _ h3)) he2
      exact Dev.finish_canon he3
    · exact h

theorem execSetHash_canon {c} (h : s.dev.memoryWf) : Kept (execSetHash c s) := by
  refine State.act_canon (Dev.command_canon h fun d f hd => ?_)
  extract_lets old m
  have ho : old.wf := Dev.mem_canon hd
  have hn : m.wf := Mem.ite_canon (Mem.forgetData_canon (Mem.keep ho (by dsimp only))) ho
  exact Dev.complete_canon (Dev.withMem_canon hd (Mem.keep hn (by dsimp only)))

/- Image. -/

theorem Tile.zeroed_canon {m'} : (x.zeroed m').wf :=
  rfl

theorem Tile.clearHalt_canon (hx : x.wf) : x.clearHalt.wf := by
  unfold Tile.clearHalt
  exact Tile.keep hx (by dsimp only)

theorem Tile.loadSentinel_canon {ctrl thresh seed} (hx : x.wf) : (x.loadSentinel ctrl thresh seed).wf := by
  unfold Tile.loadSentinel
  exact Tile.keep hx (by dsimp only)

theorem Tile.setTargetUnit_canon {target u x'} (hx : x.wf) : (x.setTargetUnit target u x').wf := by
  unfold Tile.setTargetUnit
  split
  · exact Tile.keep hx (by dsimp only)
  · exact Tile.keep hx (by dsimp only)
  · exact Tile.keep hx (by dsimp only)
  · exact Tile.setRow_wf _ _ _ hx

theorem Work.set_canon {w : Work} {e v} (hw : w.tiles.all Tile.wf) : (w.set e v).tiles.all Tile.wf := by
  unfold Work.set
  split
  · exact hw
  · split
    · exact hw
    · rw [Vector.all_eq_true] at hw ⊢
      intro i hi
      rw [Vector.getElem_set]
      split
      · exact Tile.ite_canon (Tile.setTargetUnit_canon (Tile.setTargetUnit_canon (hw _ _))) (Tile.setTargetUnit_canon (hw _ _))
      · exact hw i hi

theorem Work.applyAll_canon {w : Work} {f es} (hw : w.tiles.all Tile.wf) : Yields (fun w : Work => w.tiles.all Tile.wf) (w.applyAll f es) := by
  induction es generalizing w with
  | nil => exact .ok hw
  | cons e es ih =>
    unfold Work.applyAll
    extract_lets v old new
    split
    · exact ih (Work.set_canon hw)
    · exact .error _

theorem placeTile_canon {image progs consts owners t} : (placeTile image progs consts owners t x).wf :=
  Store.foldl_write_wf _ _ _ rfl

theorem placeTiles_canon {image progs consts owners} {tiles : Vector Tile 64} :
    (Vector.ofFn (fun i : Fin 64 => placeTile image progs consts owners (BitVec.ofNat 6 i.val) tiles[i])).all Tile.wf := by
  rw [Vector.all_eq_true]
  intro i hi
  rw [Vector.getElem_ofFn]
  exact placeTile_canon

theorem Dev.checkImage_canon {x len b measurement} : Yields (fun l : Loaded => l.tiles.all Tile.wf) (d.checkImage x len b measurement) := by
  unfold Dev.checkImage
  refine .bind fun _ => .bind fun _ => .bind fun parts => ?_
  split
  refine .bind fun _ => .bind fun _ => .bind fun _ => ?_
  extract_lets _ placed
  have hplaced : placed.tiles.all Tile.wf := placeTiles_canon
  refine .bind fun _ => .bind fun _ => .bind fun _ => .bind fun _ => .bindOf (Work.applyAll_canon hplaced) fun _ relocated => ?_
  exact .bindOf (Work.applyAll_canon relocated) fun _ patched => .bind fun _ => .pure patched

theorem Mem.adoptHash_canon (hm : m.wf) : m.adoptHash.wf := by
  unfold Mem.adoptHash
  split
  · exact hm
  · extract_lets _ n1
    have hn1 : n1.wf := Mem.keep hm (by dsimp only)
    exact Mem.ite_canon (Mem.forgetData_canon hn1) hn1

theorem Mem.placeRegions_canon {x' im consts} (hm : m.wf) : (m.placeRegions x' im consts).wf := by
  unfold Mem.placeRegions
  refine Mem.foldl_canon hm ?_
  refine fun _ _ h1 => ?_
  split
  · exact Mem.ite_canon (Mem.writeFar_wf _ _ _ h1) (Mem.writeNear_wf _ _ _ _ h1)
  · exact h1

theorem Dev.applyImage_canon {x l} (h : d.memoryWf) (hl : l.tiles.all Tile.wf) : (d.applyImage x l).memoryWf := by
  unfold Dev.applyImage
  extract_lets e1 e2 e3 e4
  have he1 : e1.memoryWf := Dev.onMem_canon h fun _ hm => Mem.adoptHash_canon hm
  have he2 : e2.memoryWf := Dev.withTiles_canon he1 hl
  have he3 : e3.memoryWf := Dev.onMem_canon he2 fun _ hm => Mem.placeRegions_canon hm
  have he4 : e4.memoryWf := Dev.mapGroups_canon he3
  exact Dev.keep he4 (by dsimp only)

theorem Dev.loadImage_canon {f b image} (h : d.memoryWf) : (d.loadImage f b image).memoryWf := by
  unfold Dev.loadImage
  split
  · exact Dev.complete_canon h
  · split
    · exact Dev.complete_canon h
    · next img =>
      extract_lets x ok e
      have he : e.memoryWf := Dev.ite_canon h (Dev.firmwarePke_canon h)
      split
      · exact Dev.complete_canon h
      · split
        · exact Dev.complete_canon he
        · split
          · exact Dev.complete_canon he
          · next l passed =>
            have hl := Dev.checkImage_canon l passed
            exact Dev.ite_canon (Dev.complete_canon he) (Dev.complete_canon (Dev.enter_canon (Dev.applyImage_canon he hl)))

theorem execLoadImage_canon {c block image} (h : s.dev.memoryWf) : Kept (execLoadImage c block image s) := by
  unfold execLoadImage
  refine State.act_canon ?_
  refine Dev.command_canon h ?_
  refine fun _ _ h1 => ?_
  split
  · exact Dev.loadImage_canon h1
  · exact h1

/- Streams. -/

theorem Dev.admission_canon {n} (h : d.memoryWf) : (d.admission n).memoryWf := by
  unfold Dev.admission
  dsimp only
  split
  · exact h
  · exact Dev.ite_canon h (Dev.event_canon (Dev.setStream_canon h))

theorem Dev.lapCheck_canon {n} (h : d.memoryWf) : (d.lapCheck n).memoryWf := by
  unfold Dev.lapCheck
  dsimp only
  split
  · exact h
  · exact Dev.ite_canon h (Dev.event_canon (Dev.setStream_canon h))

theorem Dev.dueRecord_canon {n r} (h : d.memoryWf) : (d.dueRecord n r).memoryWf := by
  unfold Dev.dueRecord
  extract_lets e1
  have he1 : e1.memoryWf := Dev.flushStream_canon h
  exact Dev.ite_canon (Dev.postBatch_canon he1) (Dev.setStream_canon he1)

theorem Dev.consume_canon {n} (h : d.memoryWf) : (d.consume n).memoryWf := by
  unfold Dev.consume
  extract_lets
  split
  · exact h
  · extract_lets e1
    have he1 : e1.memoryWf := Dev.setStream_canon h
    exact Dev.ite_canon (Dev.ite_canon (Dev.dueRecord_canon he1) he1) h

theorem Dev.batchPost_canon {n} (h : d.memoryWf) : (d.batchPost n).memoryWf := by
  unfold Dev.batchPost
  dsimp only
  split
  · exact h
  · exact Dev.ite_canon (Dev.dueRecord_canon h) h

theorem Dev.streamDoorbell_canon {n v} (h : d.memoryWf) : (d.streamDoorbell n v).memoryWf :=
  Dev.ite_canon h (Dev.ite_canon (Dev.mark_canon (Dev.setStream_canon h)) (Dev.setStream_canon h))

theorem Dev.doorbellIn_canon {n v} (h : d.memoryWf) : (d.doorbellIn n v).memoryWf :=
  Dev.ite_canon (Dev.hold_canon h) (Dev.streamDoorbell_canon h)

theorem execOpenStream_canon {c} (h : s.dev.memoryWf) :
    Kept (execOpenStream c s) := State.act_canon (Dev.command_canon h (fun _ _ h1 => Dev.ite_canon (Dev.complete_canon h1) (Dev.complete_canon
      (Dev.setStream_canon h1))))

theorem execCloseStream_canon {c} (h : s.dev.memoryWf) : Kept (execCloseStream c s) := by
  unfold execCloseStream
  extract_lets
  refine State.act_canon ?_
  refine Dev.command_canon h ?_
  refine fun _ _ h1 => ?_
  split
  · exact Dev.complete_canon h1
  · extract_lets e1
    have he1 : e1.memoryWf := Dev.flushStream_canon h1
    exact Dev.ite_canon (Dev.complete_canon (Dev.shut_canon he1)) (Dev.becomePending_canon he1)

theorem Dev.closeAll_canon (h : d.memoryWf) : d.closeAll.memoryWf := by
  unfold Dev.closeAll
  dsimp only
  refine Dev.foldl_canon h ?_
  refine fun _ _ h1 => ?_
  split
  · exact Dev.finish_canon (Dev.shut_canon (Dev.flushStream_canon h1))
  · exact Dev.shut_canon (Dev.flushStream_canon h1)

/- RunCmds. -/

theorem Tile.atStart_canon (hx : x.wf) : x.atStart.wf := by
  unfold Tile.atStart
  extract_lets y1 _ _ _ y2
  have hy1 : y1.wf := Tile.clearHalt_canon hx
  have hy2 : y2.wf := Tile.keep hy1 (by dsimp only)
  exact Tile.keep hy2 (by dsimp only)

theorem Dev.clearForRun_canon (h : d.memoryWf) : d.clearForRun.memoryWf := by
  unfold Dev.clearForRun
  extract_lets e1 e2
  have he1 : e1.memoryWf := Dev.mapTiles_canon h (fun _ _ h2 => Tile.atStart_canon h2)
  have he2 : e2.memoryWf := Dev.mapGroups_canon he1
  exact Dev.keep he2 (by dsimp only)

theorem Dev.acceptRun_canon {f k opcode resume target} (h : d.memoryWf) : (d.acceptRun f k opcode resume target).memoryWf := by
  unfold Dev.acceptRun
  extract_lets e1 _ e2
  have he1 : e1.memoryWf := Dev.becomePending_canon h
  have he2 : e2.memoryWf := Dev.ite_canon (Dev.keep he1 (by dsimp only)) (Dev.clearForRun_canon he1)
  exact Dev.enter_canon (Dev.keep he2 (by dsimp only))

theorem Dev.beginRun_canon {f k opcode resume target} (h : d.memoryWf) : (d.beginRun f k opcode resume target).memoryWf := by
  unfold Dev.beginRun
  split
  · exact Dev.complete_canon h
  · exact Dev.ite_canon (Dev.complete_canon h) (Dev.ite_canon (Dev.complete_canon h) (Dev.acceptRun_canon h))

theorem execRunToCount_canon {c} (h : s.dev.memoryWf) :
    Kept (execRunToCount c s) := State.act_canon (Dev.command_canon h (fun _ _ h1 => Dev.ite_canon (Dev.complete_canon h1) (Dev.beginRun_canon h1)))

theorem Dev.holdBegin_canon (h : d.memoryWf) : d.holdBegin.memoryWf := by
  unfold Dev.holdBegin
  extract_lets e1
  have he1 : e1.memoryWf := Dev.mapGroups_canon h
  exact Dev.ite_canon (Dev.keep he1 (by dsimp only)) h

theorem execStop_canon {c} (h : s.dev.memoryWf) :
    Kept (execStop c s) := State.act_canon (Dev.command_canon h (fun _ _ h1 => Dev.ite_canon (Dev.holdBegin_canon (Dev.enter_canon
      (Dev.becomePending_canon h1))) (Dev.becomePending_canon h1)))

theorem Dev.abortEnd_canon (h : d.memoryWf) : d.abortEnd.memoryWf :=
  Dev.finishAll_canon (Dev.enterHalted_canon (Dev.settled_canon h))

theorem execAbort_canon {c} (h : s.dev.memoryWf) : Kept (execAbort c s) := by
  refine State.act_canon (Dev.command_canon h fun d f hd => ?_)
  have he : ∀ kind, (d.becomePending f kind).memoryWf := fun _ => Dev.becomePending_canon hd
  have hs : ∀ kind, ((d.becomePending f kind).stopTiles .abort).memoryWf := fun _ => Dev.stopTiles_canon (he _)
  exact Dev.ite_canon (he _) (Dev.ite_canon (hs _) (Dev.abortEnd_canon (hs _)))

theorem execSetDebug_canon {c} (h : s.dev.memoryWf) : Kept (execSetDebug c s) := by
  unfold execSetDebug
  refine State.act_canon ?_
  refine Dev.command_canon h ?_
  refine fun _ _ h1 => ?_
  split
  · exact Dev.ite_canon (Dev.complete_canon (Dev.keep h1 (by dsimp only))) (Dev.complete_canon h1)
  · exact Dev.complete_canon h1

theorem execDumpState_canon {c block} (h : s.dev.memoryWf) : Kept (execDumpState c block s) := by
  unfold execDumpState
  refine State.act_canon ?_
  refine Dev.command_canon h ?_
  refine fun _ _ h1 => ?_
  split
  · exact h1
  · exact Dev.ite_canon (Dev.complete_canon h1) (Dev.ite_canon (Dev.complete_canon h1) (Dev.complete_canon (Dev.emit_canon h1)))

theorem Dev.unload_canon (h : d.memoryWf) : d.unload.memoryWf := by
  unfold Dev.unload
  extract_lets e1 e2 e3
  have he1 : e1.memoryWf := Dev.closeAll_canon h
  have he2 : e2.memoryWf := Dev.mapTiles_canon he1 (fun _ _ _ => Tile.zeroed_canon)
  have he3 : e3.memoryWf := Dev.mapGroups_canon he2
  exact Dev.keep he3 (by dsimp only)

/- WriteRegs. -/

theorem Dev.writeSqCtrl_canon {n v} (h : d.memoryWf) : (d.writeSqCtrl n v).memoryWf := by
  unfold Dev.writeSqCtrl
  split
  · exact Dev.ite_canon (Dev.setRing_canon h) (Dev.ite_canon (Dev.setRing_canon h) (Dev.flagRing_canon h))
  · exact Dev.setRing_canon h

theorem Dev.writeCqCtrl_canon {n v} (h : d.memoryWf) : (d.writeCqCtrl n v).memoryWf := by
  unfold Dev.writeCqCtrl
  split
  · exact Dev.ite_canon (Dev.setRing_canon h) (Dev.ite_canon (Dev.setRing_canon h) (Dev.flagRing_canon h))
  · exact Dev.ite_canon (Dev.setRing_canon h) (Dev.ite_canon (Dev.flagRing_canon h) (Dev.setRing_canon h))

theorem Dev.dropLatch_canon {off} (h : d.memoryWf) : (d.dropLatch off).memoryWf := by
  unfold Dev.dropLatch
  exact Dev.keep h (by dsimp only)

theorem Dev.writeRing_canon {off v} (h : d.memoryWf) : (d.writeRing off v).memoryWf := by
  unfold Dev.writeRing
  split
  · exact Dev.ite_canon h (Dev.dropLatch_canon (Dev.setRing_canon h))
  · exact Dev.ite_canon h (Dev.dropLatch_canon (Dev.setRing_canon h))
  · exact Dev.writeSqCtrl_canon h
  · exact Dev.ite_canon h (Dev.dropLatch_canon (Dev.setRing_canon h))
  · exact Dev.ite_canon h (Dev.dropLatch_canon (Dev.setRing_canon h))
  · exact Dev.writeCqCtrl_canon h
  · exact Dev.setRing_canon h
  · exact h

theorem Dev.writeMsix_canon {k v} (h : d.memoryWf) : (d.writeMsix k v).memoryWf := by
  unfold Dev.writeMsix
  extract_lets v host e n w
  have he : e.memoryWf := Dev.keep h (by dsimp only)
  exact Dev.ite_canon (Dev.emit_canon (Dev.keep he (by dsimp only))) he

theorem Dev.writeRings_canon {off v} (h : d.memoryWf) : (d.writeRings off v).memoryWf := by
  unfold Dev.writeRings
  split
  · exact Dev.writeRing_canon h
  · exact Dev.ite_canon (Dev.ite_canon (Dev.setStream_canon h) h) (Dev.ite_canon (Dev.writeMsix_canon h) h)

theorem Dev.writeDev_canon {off v} (h : d.memoryWf) : (d.writeDev off v).memoryWf := by
  unfold Dev.writeDev
  split
  · exact Dev.keep h (by dsimp only)
  · split
    · exact Dev.keep h (by dsimp only)
    · split
      · exact Dev.ite_canon h (Dev.keep h (by dsimp only))
      · exact Dev.ite_canon (Dev.keep h (by dsimp only)) (Dev.ite_canon (Dev.keep h (by dsimp only)) (Dev.ite_canon (Dev.setGroup_canon h) h))

theorem Dev.writeLog_canon {off v} (h : d.memoryWf) : (d.writeLog off v).memoryWf := by
  unfold Dev.writeLog
  exact Dev.ite_canon (Dev.keep h (by dsimp only)) (Dev.ite_canon (Dev.keep h (by dsimp only)) (Dev.ite_canon (Dev.keep h (by dsimp only)) (Dev.ite_canon (Dev.keep h (by dsimp only)) h)))

theorem Dev.writeBudget_canon {v} (h : d.memoryWf) : (d.writeBudget v).memoryWf := by
  unfold Dev.writeBudget
  extract_lets _ e1
  have he1 : e1.memoryWf := Dev.onPower_canon h
  exact Dev.ite_canon (Dev.event_canon (Dev.powerEvent_canon he1)) he1

theorem Dev.writePower_canon {off v} (h : d.memoryWf) : (d.writePower off v).memoryWf := by
  unfold Dev.writePower
  split
  · exact Dev.writeBudget_canon h
  · exact Dev.ite_canon (Dev.onPower_canon h) (Dev.ite_canon (Dev.onPower_canon h) (Dev.ite_canon (Dev.onPower_canon h) h))

theorem Dev.writeClkCtrl_canon {v} (h : d.memoryWf) : (d.writeClkCtrl v).memoryWf :=
  Dev.ite_canon (Dev.onClocks_canon h) (Dev.mark_canon (Dev.onClocks_canon h))

theorem Dev.writeEqCtrl_canon {v} (h : d.memoryWf) : (d.writeEqCtrl v).memoryWf :=
  Dev.onClocks_canon h

theorem Dev.writeClocks_canon {off v} (h : d.memoryWf) : (d.writeClocks off v).memoryWf := by
  unfold Dev.writeClocks
  split
  · exact Dev.writeClkCtrl_canon h
  · split
    · exact Dev.onClocks_canon h
    · exact Dev.ite_canon (Dev.writeEqCtrl_canon h) (Dev.ite_canon (Dev.ite_canon (Dev.onClocks_canon h) (Dev.onClocks_canon h)) h)

theorem Dev.writeChannel_canon {off v} (h : d.memoryWf) : (d.writeChannel off v).memoryWf :=
  Dev.ite_canon (Dev.onMem_canon h (fun _ h1 => Mem.onChannel_canon h1)) h

theorem Dev.writeMem_canon {off v} (h : d.memoryWf) : (d.writeMem off v).memoryWf := by
  unfold Dev.writeMem
  split
  · exact Dev.ite_canon h (Dev.onMem_canon h (fun _ h1 => Mem.keep h1 (by dsimp only)))
  · exact Dev.ite_canon (Dev.onMem_canon h (fun _ h1 => Mem.keep h1 (by dsimp only))) (Dev.ite_canon (Dev.onMem_canon h (fun _ h1 => Mem.keep h1 (by dsimp only))) h)

theorem Dev.writeKeys_canon {off v} (h : d.memoryWf) : (d.writeKeys off v).memoryWf := by
  unfold Dev.writeKeys
  exact Dev.ite_canon (Dev.ite_canon (Dev.setKsu_canon h) h) (Dev.ite_canon (Dev.keep h (by dsimp only)) h)

theorem Tile.writeWord_canon {k v} (hx : x.wf) : (x.writeWord k v).wf := by
  unfold Tile.writeWord
  split
  · exact Tile.keep hx (by dsimp only)
  · exact Tile.keep hx (by dsimp only)
  · exact Tile.keep hx (by dsimp only)
  · exact Tile.keep hx (by dsimp only)
  · exact Tile.keep hx (by dsimp only)
  · exact Tile.keep hx (by dsimp only)
  · exact Tile.clearScr_canon hx
  · exact Tile.keep hx (by dsimp only)
  · exact Tile.ite_canon (Tile.keep hx (by dsimp only)) hx

theorem Dev.writeTile_canon {off v} (h : d.memoryWf) : (d.writeTile off v).memoryWf :=
  Dev.ite_canon h (Dev.setTile_canon h (Tile.writeWord_canon (Dev.tile_canon h)))

theorem Dev.writeReg_canon {off v} (h : d.memoryWf) : (d.writeReg off v).memoryWf := by
  unfold Dev.writeReg
  refine Dev.ite_canon h (Dev.ite_canon (Dev.writeDev_canon h) (Dev.ite_canon (Dev.ite_canon (Dev.keep h (by dsimp only)) h) (Dev.ite_canon h ?_)))
  refine Dev.ite_canon (Dev.writeRings_canon h) (Dev.ite_canon (Dev.writeLog_canon h) (Dev.ite_canon (Dev.writePower_canon h) ?_))
  refine Dev.ite_canon (Dev.writeClocks_canon h) (Dev.ite_canon (Dev.writeChannel_canon h) (Dev.ite_canon (Dev.writeMem_canon h) ?_))
  exact Dev.ite_canon (Dev.writeKeys_canon h) (Dev.ite_canon (Dev.writeTile_canon h) h)

theorem execCqEnable_canon {cq value} (h : s.dev.memoryWf) :
    Kept (execCqEnable cq value s) := State.act_canon (Dev.ite_canon (Dev.setRing_canon (Dev.writeReg_canon h)) (Dev.writeReg_canon h))

theorem Dev.sqDoorbell_canon {n v} (h : d.memoryWf) : (d.sqDoorbell n v).memoryWf :=
  Dev.ite_canon (Dev.setRing_canon h) (Dev.flagRing_canon h)

theorem execSqTailDoorbell_canon {sq value} (h : s.dev.memoryWf) :
    Kept (execSqTailDoorbell sq value s) := State.act_canon (Dev.ite_canon (Dev.sqDoorbell_canon h) h)

theorem Dev.cqDoorbell_canon {n v} (h : d.memoryWf) : (d.cqDoorbell n v).memoryWf :=
  Dev.ite_canon (Dev.entriesFreed_canon (Dev.setRing_canon h)) (Dev.flagRing_canon h)

theorem execCqHeadDoorbell_canon {cq value} (h : s.dev.memoryWf) :
    Kept (execCqHeadDoorbell cq value s) := State.event_canon (Dev.ite_canon (Dev.cqDoorbell_canon h) h)

theorem Dev.writeDoorbell_canon {off v} (h : d.memoryWf) : (d.writeDoorbell off v).memoryWf := by
  unfold Dev.writeDoorbell
  split
  · exact h
  · split
    · exact Dev.ite_canon (Dev.sqDoorbell_canon h) (Dev.pumpAll_canon (Dev.cqDoorbell_canon h))
    · exact Dev.ite_canon (Dev.doorbellIn_canon h) h

theorem Dev.resizeBar4_canon {v} (h : d.memoryWf) : (d.resizeBar4 v).memoryWf := by
  unfold Dev.resizeBar4
  exact Dev.ite_canon (Dev.keep h (by dsimp only)) h

theorem execRegisterWrite_canon {a value} (h : s.dev.memoryWf) : Kept (execRegisterWrite a value s) := by
  unfold execRegisterWrite
  refine State.act_canon ?_
  refine Dev.unlessTripped_canon h ?_
  refine fun _ h1 => ?_
  split
  · exact Dev.resizeBar4_canon h1
  · exact Dev.ite_canon (Dev.writeReg_canon h1) (Dev.emit_canon h1)
  · exact Dev.ite_canon (Dev.writeDoorbell_canon h1) (Dev.emit_canon h1)

theorem execCqInterruptTimer_canon {cq} (h : s.dev.memoryWf) :
    Kept (execCqInterruptTimer cq s) := State.act_canon (Dev.ite_canon (Dev.message_canon (Dev.setRing_canon h)) h)

theorem execLogMsiTimer_canon (h : s.dev.memoryWf) :
    Kept (execLogMsiTimer s) := State.act_canon (Dev.ite_canon (Dev.message_canon (Dev.keep h (by dsimp only))) (Dev.keep h (by dsimp only)))

theorem Dev.fetched_canon {n bits} (h : d.memoryWf) : (d.fetched n bits).memoryWf := by
  unfold Dev.fetched
  extract_lets _ _ _ _ e1 _ e2 _ _ e3
  have he1 : e1.memoryWf := Dev.setRing_canon h
  have he2 : e2.memoryWf := Dev.setRing_canon he1
  have he3 : e3.memoryWf := Dev.keep he2 (by dsimp only)
  exact Dev.ite_canon h (Dev.pumpAll_canon he3)

theorem execCommandFetch_canon {sq packet} (h : s.dev.memoryWf) : Kept (execCommandFetch sq packet s) := by
  unfold execCommandFetch
  refine State.act_canon ?_
  split
  · exact h
  · extract_lets _ e1
    have he1 : e1.memoryWf := Dev.keep h (by dsimp only)
    split
    · exact Dev.fetched_canon he1
    · exact Dev.event_canon (Dev.flagRing_canon he1)

/- Boot. -/

theorem Dev.noteFault_canon {cause unit atBoot} (h : d.memoryWf) : (d.noteFault cause unit atBoot).memoryWf := by
  unfold Dev.noteFault
  exact Dev.event_canon (Dev.keep h (by dsimp only))

theorem Dev.dropTest_canon (h : d.memoryWf) : d.dropTest.memoryWf := by
  unfold Dev.dropTest
  split
  · exact h
  · split
    · exact Dev.onMem_canon (Dev.onMem_canon (Dev.drew_canon h) (fun _ h1 => Mem.onMask_canon h1)) (fun _ h1 => Mem.forgetTested_wf _ _ _ _ _ h1)
    · exact h

theorem Dev.dropTick_canon (h : d.memoryWf) : d.dropTick.memoryWf := by
  unfold Dev.dropTick
  exact Dev.ite_canon (Dev.keep h (by dsimp only)) h

theorem Dev.faultEnd_canon {cause unit} (h : d.memoryWf) : (d.faultEnd cause unit).memoryWf := by
  unfold Dev.faultEnd
  extract_lets e1
  have he1 : e1.memoryWf := Dev.dropTick_canon (Dev.dropTest_canon h)
  exact Dev.noteFault_canon (Dev.finishAll_canon he1)

theorem Dev.failBoot_canon {cause unit} (h : d.memoryWf) : (d.failBoot cause unit).memoryWf := by
  unfold Dev.failBoot
  split
  · extract_lets e1
    have he1 : e1.memoryWf := Dev.ite_canon (Dev.onClocks_canon h) h
    exact Dev.noteFault_canon (Dev.keep he1 (by dsimp only))
  · exact h

theorem Dev.enterFaulted_canon {cause unit coreRuns opcode} (h : d.memoryWf) : (d.enterFaulted cause unit coreRuns opcode).memoryWf := by
  unfold Dev.enterFaulted
  extract_lets _ e1 _ e2
  have he1 : e1.memoryWf := Dev.enter_canon h
  have he2 : e2.memoryWf := Dev.stopTiles_canon he1
  split
  · exact Dev.failBoot_canon h
  · split
    · exact h
    · split
      · exact Dev.faultEnd_canon (Dev.abandonReductions_canon he1)
      · split
        · exact Dev.faultEnd_canon (Dev.closeRun_canon (Dev.keep he1 (by dsimp only)))
        · exact Dev.ite_canon he2 (Dev.faultEnd_canon (Dev.closeRun_canon (Dev.settled_canon he2)))

theorem execClockLost_canon {what} (h : s.dev.memoryWf) : Kept (execClockLost what s) := by
  unfold execClockLost
  extract_lets
  refine State.event_canon ?_
  split
  · exact h
  · extract_lets e1 e2 e3
    have he1 : e1.memoryWf := Dev.onClocks_canon h
    have he2 : e2.memoryWf := Dev.event_canon (Dev.mark_canon he1)
    have he3 : e3.memoryWf := Dev.enterFaulted_canon he2
    exact Dev.ite_canon (Dev.keep he3 (by dsimp only)) he3

theorem execEntropyHealthFail_canon {adaptive} (h : s.dev.memoryWf) : Kept (execEntropyHealthFail adaptive s) := by
  unfold execEntropyHealthFail
  refine State.event_canon ?_
  split
  · exact h
  · extract_lets _ e1
    have he1 : e1.memoryWf := Dev.keep h (by dsimp only)
    exact Dev.enterFaulted_canon (Dev.event_canon he1)

theorem Dev.loadFails_canon (h : d.memoryWf) : d.loadFails.memoryWf := by
  unfold Dev.loadFails
  split
  · extract_lets e1
    have he1 : e1.memoryWf := Dev.enter_canon (Dev.onMem_canon (Dev.take_canon h) (fun _ h1 => Mem.adoptHash_canon h1))
    exact Dev.ite_canon (Dev.faultEnd_canon (Dev.abandonReductions_canon (Dev.complete_canon he1))) h
  · exact h

theorem execInternalFault_canon {cause unit} (h : s.dev.memoryWf) : Kept (execInternalFault cause unit s) := by
  unfold execInternalFault
  refine State.event_canon ?_
  split
  · exact Dev.enterFaulted_canon h
  · exact Dev.ite_canon h (Dev.enterFaulted_canon (Dev.onClocks_canon h))
  · exact Dev.ite_canon h (Dev.enterFaulted_canon h)
  · exact Dev.loadFails_canon h
  · exact Dev.ite_canon (Dev.enterFaulted_canon h) h
  · exact h
  · exact h
  · exact h
  · exact h

theorem execPowerOn_canon {moduleId} (h : s.dev.memoryWf) : Kept (execPowerOn moduleId s) := by
  unfold execPowerOn
  refine State.act_canon ?_
  split
  · exact h
  · extract_lets e1
    have he1 : e1.memoryWf := Dev.off_canon
    exact Dev.keep he1 (by dsimp only)

theorem execInputPowerLoss_canon (h : s.dev.memoryWf) : Kept (execInputPowerLoss s) := State.act_canon (Dev.ite_canon Dev.off_canon h)

theorem execThermalTrip_canon (h : s.dev.memoryWf) : Kept (execThermalTrip s) := State.act_canon (Dev.ite_canon Dev.trip_canon h)

theorem execWarmReset_canon (h : s.dev.memoryWf) : Kept (execWarmReset s) := by
  unfold execWarmReset
  refine State.act_canon ?_
  split
  · exact h
  · extract_lets _ e1
    have he1 : e1.memoryWf := Dev.afresh_canon
    exact Dev.keep he1 (by dsimp only)

theorem Dev.ringsReset_canon (h : d.memoryWf) : d.ringsReset.memoryWf := by
  unfold Dev.ringsReset
  exact Dev.keep h (by dsimp only)

theorem Dev.dropJobs_canon (h : d.memoryWf) : d.dropJobs.memoryWf := by
  unfold Dev.dropJobs
  extract_lets e1
  have he1 : e1.memoryWf := Dev.dropTick_canon (Dev.dropTest_canon h)
  exact Dev.keep he1 (by dsimp only)

theorem Dev.flrDone_canon {before n} (h : d.memoryWf) : (d.flrDone before n).memoryWf :=
  Dev.event_canon (Dev.ringsReset_canon h)

theorem Dev.flrRest_canon {before} (h : d.memoryWf) : (d.flrRest before).memoryWf := by
  unfold Dev.flrRest
  extract_lets _ e1 e2
  have he1 : e1.memoryWf := Dev.dropJobs_canon h
  have he2 : e2.memoryWf := Dev.ite_canon (Dev.enter_canon (Dev.unload_canon he1)) he1
  exact Dev.flrDone_canon (Dev.ite_canon (Dev.keep he2 (by dsimp only)) he2)

theorem Dev.flr_canon (h : d.memoryWf) : d.flr.memoryWf := by
  unfold Dev.flr
  extract_lets _ e1
  have he1 : e1.memoryWf := Dev.stopTiles_canon h
  split
  · exact Dev.flrDone_canon h
  · exact Dev.ite_canon (Dev.flrRest_canon h) (Dev.ite_canon he1 (Dev.flrRest_canon (Dev.closeRun_canon (Dev.settled_canon he1))))

theorem Dev.endRun_canon (h : d.memoryWf) : d.endRun.memoryWf := by
  unfold Dev.endRun
  split
  · exact Dev.abortEnd_canon h
  · exact Dev.flrRest_canon (Dev.closeRun_canon (Dev.settled_canon h))
  · exact Dev.faultEnd_canon (Dev.closeRun_canon (Dev.settled_canon h))
  · exact h

theorem Dev.tryEnd_canon (h : d.memoryWf) : d.tryEnd.memoryWf :=
  Dev.ite_canon h (Dev.pumpAll_canon (Dev.endRun_canon h))

theorem Dev.sanitizeFirst_canon {from_} (h : d.memoryWf) : (d.sanitizeFirst from_).memoryWf := by
  unfold Dev.sanitizeFirst
  extract_lets e1
  have he1 : e1.memoryWf := Dev.ite_canon (Dev.unload_canon h) h
  exact Dev.keep he1 (by dsimp only)

theorem Tile.sanitized_canon : x.sanitized.wf := by
  unfold Tile.sanitized
  extract_lets y1
  have hy1 : y1.wf := Tile.zeroed_canon
  exact Tile.keep hy1 (by dsimp only)

theorem Dev.sanitizeLast_canon {far} (h : d.memoryWf) : (d.sanitizeLast far).memoryWf := by
  unfold Dev.sanitizeLast
  extract_lets e1 _ _ e2 e3
  have he1 : e1.memoryWf := Dev.mapTiles_canon h (fun _ _ _ => Tile.sanitized_canon)
  have he2 : e2.memoryWf := Dev.withMem_canon he1 (Mem.sanitized_wf _ _ (Dev.mem_canon he1))
  have he3 : e3.memoryWf := Dev.event_canon he2
  exact Dev.keep he3 (by dsimp only)

theorem Dev.sanitizeDone_canon {ms failed} (h : d.memoryWf) : (d.sanitizeDone ms failed).memoryWf := by
  unfold Dev.sanitizeDone
  extract_lets _ e1
  have he1 : e1.memoryWf := Dev.enter_canon (Dev.sanitizeLast_canon h)
  exact Dev.ite_canon h (Dev.ite_canon (Dev.enterFaulted_canon h) (Dev.finishAll_canon he1))

theorem Dev.bootChannelFails_canon {unit} (h : d.memoryWf) : (d.bootChannelFails unit).memoryWf := by
  unfold Dev.bootChannelFails
  exact Dev.onMem_canon h (fun _ h1 => Mem.keep h1 (by dsimp only))

theorem Dev.bootFails_canon {b cause unit} (h : d.memoryWf) : (d.bootFails b cause unit).memoryWf := by
  unfold Dev.bootFails
  extract_lets e1
  have he1 : e1.memoryWf := Dev.onClocks_canon h
  split
  · exact Dev.event_canon he1
  · exact Dev.event_canon h
  · exact Dev.event_canon (Dev.keep h (by dsimp only))
  · exact Dev.event_canon (Dev.keep h (by dsimp only))
  · exact Dev.onClocks_canon h
  · exact Dev.bootChannelFails_canon h
  · exact h
  · exact h
  · exact h

theorem Dev.bootClocks_canon (h : d.memoryWf) : d.bootClocks.memoryWf := by
  unfold Dev.bootClocks
  extract_lets e1
  have he1 : e1.memoryWf := Dev.onClocks_canon h
  exact Dev.keep he1 (by dsimp only)

theorem Dev.bootLink_canon {seen} (h : d.memoryWf) : (d.bootLink seen).memoryWf := by
  unfold Dev.bootLink
  exact Dev.linkTrains_canon (Dev.keep h (by dsimp only))

theorem Dev.bootRom_canon {seen} (h : d.memoryWf) : (d.bootRom seen).memoryWf := by
  unfold Dev.bootRom
  exact Dev.keep h (by dsimp only)

theorem Dev.bootFirmware_canon (h : d.memoryWf) : d.bootFirmware.memoryWf := by
  unfold Dev.bootFirmware
  extract_lets n1
  have hn1 : n1.wf := Dev.mem_canon h
  exact Dev.withMem_canon h (Mem.keep hn1 (by dsimp only))

theorem Dev.bootChannels_canon (h : d.memoryWf) : d.bootChannels.memoryWf := by
  unfold Dev.bootChannels
  exact Dev.onMem_canon h (fun _ h1 => Mem.keep h1 (by dsimp only))

theorem Dev.bootFar_canon {seen} (h : d.memoryWf) : (d.bootFar seen).memoryWf := by
  unfold Dev.bootFar
  extract_lets _ _ _ _ _ e1 e2
  have he1 : e1.memoryWf := Dev.onMem_canon h (fun _ h2 => Mem.keep h2 (by dsimp only))
  have he2 : e2.memoryWf := Dev.foldl_canon he1 (fun _ _ h2 => Dev.linkTrains_canon h2)
  exact Dev.foldl_canon he2 (fun _ _ h3 => Dev.event_canon h3)

theorem Dev.bootSanitize_canon (h : d.memoryWf) : d.bootSanitize.memoryWf := by
  unfold Dev.bootSanitize
  split
  · exact Dev.sanitizeLast_canon h
  · exact h

theorem Dev.bootFaulted_canon {b cause unit} (h : d.memoryWf) : (d.bootFaulted b cause unit).memoryWf :=
  Dev.failBoot_canon (Dev.bootFails_canon h)

theorem Dev.bootDone_canon {micros} (h : d.memoryWf) : (d.bootDone micros).memoryWf := by
  unfold Dev.bootDone
  extract_lets e1
  have he1 : e1.memoryWf := Dev.event_canon h
  exact Dev.keep he1 (by dsimp only)

theorem Dev.bootWork_canon {b} (h : d.memoryWf) : (d.bootWork b).memoryWf := by
  unfold Dev.bootWork
  split
  · exact Dev.bootClocks_canon h
  · exact Dev.bootLink_canon h
  · exact Dev.bootRom_canon h
  · exact Dev.bootFirmware_canon h
  · exact Dev.bootChannels_canon h
  · exact Dev.bootFar_canon h
  · exact Dev.bootSanitize_canon h
  · exact h

theorem Dev.bootStep_canon {b} (h : d.memoryWf) : (d.bootStep b).memoryWf := by
  unfold Dev.bootStep
  extract_lets e1
  have he1 : e1.memoryWf := Dev.bootWork_canon h
  split
  · exact Dev.bootFaulted_canon h
  · exact Dev.ite_canon (Dev.bootDone_canon h) (Dev.keep he1 (by dsimp only))

theorem Dev.bootStart_canon {seen} (h : d.memoryWf) : (d.bootStart seen).memoryWf := by
  unfold Dev.bootStart
  exact Dev.keep h (by dsimp only)

theorem execBootStart_canon {seen} (h : s.dev.memoryWf) : Kept (execBootStart seen s) := State.act_canon (Dev.ite_canon (Dev.bootStart_canon h) h)

theorem execHostLinkDown_canon {peerHalf} (h : s.dev.memoryWf) :
    Kept (execHostLinkDown peerHalf s) := State.act_canon (Dev.ite_canon h (Dev.unlessTripped_canon h (fun _ h1 => Dev.flr_canon h1)))

theorem execPldmFwUpdate_canon {slotB version component} (h : s.dev.memoryWf) :
    Kept (execPldmFwUpdate slotB version component s) := State.act_canon (Dev.ite_canon h (Dev.keep h (by dsimp only)))

theorem execOwnerRecordUpdate_canon {record signature} (h : s.dev.memoryWf) :
    Kept (execOwnerRecordUpdate record signature s) := State.act_canon (Dev.ite_canon h (Dev.keep h (by dsimp only)))

theorem execBoundaryScanInstruction_canon {i} (h : s.dev.memoryWf) :
    Kept (execBoundaryScanInstruction i s) := State.act_canon (Dev.ite_canon h (Dev.keep h (by dsimp only)))

/- Peer. -/

theorem Dev.setPort_canon {k p} (h : d.memoryWf) : (d.setPort k p).memoryWf := by
  unfold Dev.setPort
  exact Dev.keep h (by dsimp only)

theorem Dev.peerConfigured_canon (h : d.memoryWf) : d.peerConfigured.memoryWf :=
  Dev.pumpAll_canon (Dev.finishAll_canon h)

theorem execPeerConfig_canon {c block} (h : s.dev.memoryWf) : Kept (execPeerConfig c block s) := by
  unfold execPeerConfig
  refine State.act_canon ?_
  refine Dev.command_canon h ?_
  refine fun _ _ h1 => ?_
  split
  · exact h1
  · extract_lets _ _ _ _ e1
    have he1 : e1.memoryWf := Dev.keep h1 (by dsimp only)
    exact Dev.ite_canon (Dev.complete_canon h1) (Dev.ite_canon (Dev.peerConfigured_canon he1) he1)

theorem Dev.sendFlit_canon {k type seq payload} (h : d.memoryWf) : (d.sendFlit k type seq payload).memoryWf :=
  Dev.emit_canon (Dev.setPort_canon h)

theorem Dev.sendKept_canon {k f} (h : d.memoryWf) : (d.sendKept k f).memoryWf :=
  Dev.sendFlit_canon h

theorem Dev.idle_canon {k} (h : d.memoryWf) : (d.idle k).memoryWf :=
  Dev.ite_canon (Dev.sendFlit_canon h) h

theorem Dev.startPacket_canon {k x'} (h : d.memoryWf) : (d.startPacket k x').memoryWf := by
  unfold Dev.startPacket
  extract_lets _ e1 e2
  have he1 : e1.memoryWf := Dev.setPort_canon h
  have he2 : e2.memoryWf := by
    unfold e2
    split
    · exact Dev.setPort_canon he1
    · exact he1
  exact Dev.emit_canon he2

theorem Dev.sendData_canon {k} (h : d.memoryWf) : (d.sendData k).memoryWf :=
  Dev.sendKept_canon (Dev.setPort_canon h)

theorem Dev.sendLoop_canon {n k} (h : d.memoryWf) : (d.sendLoop n k).memoryWf := by
  induction n generalizing d with
  | zero => exact h
  | succ n ih =>
    unfold Dev.sendLoop
    dsimp only
    split
    · exact h
    · split
      · exact ih (Dev.startPacket_canon h)
      · split
        · exact h
        · exact ih (Dev.sendData_canon h)

theorem Dev.sendAll_canon {k} (h : d.memoryWf) : (d.sendAll k).memoryWf :=
  Dev.sendLoop_canon h

theorem Dev.route_canon {x' dst} (h : d.memoryWf) : (d.route x' dst).memoryWf := by
  unfold Dev.route
  split
  · exact h
  · exact Dev.ite_canon (Dev.setPort_canon h) h

theorem Dev.sendPorts_canon (h : d.memoryWf) : d.sendPorts.memoryWf :=
  Dev.foldl_canon (Dev.foldl_canon h (fun _ _ h1 => Dev.sendAll_canon h1)) (fun _ _ h1 => Dev.idle_canon h1)

theorem Dev.replay_canon {k} (h : d.memoryWf) : (d.replay k).memoryWf := by
  unfold Dev.replay
  dsimp only
  split
  · exact h
  · exact Dev.ite_canon (Dev.setPort_canon h) (Dev.foldl_canon (Dev.setPort_canon h) (fun _ _ h1 => Dev.sendKept_canon h1))

theorem execPeerReplayTimeout_canon {port} (h : s.dev.memoryWf) :
    Kept (execPeerReplayTimeout port s) := State.act_canon (Dev.ite_canon (Dev.replay_canon h) h)

theorem execPeerRetrainTimeout_canon {port} (h : s.dev.memoryWf) :
    Kept (execPeerRetrainTimeout port s) := State.act_canon (Dev.ite_canon (Dev.event_canon (Dev.setPort_canon h)) h)

theorem Dev.exchange_canon {k state partner slow} (h : d.memoryWf) : (d.exchange k state partner slow).memoryWf :=
  Dev.sendKept_canon (Dev.setPort_canon (Dev.drew_canon h))

theorem Dev.portUp_canon {k partner slow} (h : d.memoryWf) : (d.portUp k partner slow).memoryWf :=
  Dev.exchange_canon (Dev.linkTrains_canon (Dev.setPort_canon h))

theorem Dev.nowUp_canon (h : d.memoryWf) : d.nowUp.memoryWf :=
  Dev.ite_canon (Dev.peerConfigured_canon h) h

theorem execPeerLinkUp_canon {port partner slow} (h : s.dev.memoryWf) : Kept (execPeerLinkUp port partner slow s) := by
  refine State.act_canon ?_
  extract_lets k p e
  have he : e.memoryWf := Dev.linkTrains_canon (Dev.setPort_canon h)
  have hx : ∀ state, ((s.dev.linkTrains (5 + k)).exchange k state partner slow).memoryWf := fun _ => Dev.exchange_canon (Dev.linkTrains_canon h)
  split
  · exact h
  · refine Dev.ite_canon h (Dev.ite_canon (Dev.event_canon (hx _)) (Dev.ite_canon (Dev.event_canon (hx _)) (Dev.ite_canon ?_ ?_)))
    · exact Dev.nowUp_canon (Dev.sendPorts_canon (Dev.foldl_canon he fun _ _ hd => Dev.sendKept_canon hd))
    · exact Dev.nowUp_canon (Dev.sendPorts_canon (Dev.portUp_canon h))

/- Reduce. -/

theorem execReducePlan_canon {c block} (h : s.dev.memoryWf) : Kept (execReducePlan c block s) := by
  unfold execReducePlan
  refine State.act_canon ?_
  refine Dev.command_canon h ?_
  refine fun _ _ h1 => ?_
  split
  · extract_lets _ _ e1
    have he1 : e1.memoryWf := Dev.keep h1 (by dsimp only)
    exact Dev.ite_canon (Dev.complete_canon h1) (Dev.complete_canon he1)
  · exact h1

theorem Dev.setPlan_canon {n p} (h : d.memoryWf) : (d.setPlan n p).memoryWf := by
  unfold Dev.setPlan
  exact Dev.keep h (by dsimp only)

theorem Dev.setReduceStatus_canon {n f} (h : d.memoryWf) : (d.setReduceStatus n f).memoryWf := by
  unfold Dev.setReduceStatus
  exact Dev.keep h (by dsimp only)

theorem Dev.raiseReduce_canon {n bitNo f} (h : d.memoryWf) : (d.raiseReduce n bitNo f).memoryWf :=
  Dev.mark_canon (Dev.setReduceStatus_canon h)

theorem Dev.contributed_canon {header data poison port} (h : d.memoryWf) : (d.contributed header data poison port).1.memoryWf := by
  have hl : ∀ n f bits, ((d.setReduceStatus n f).mark (0x1200 + 4 * n) bits).memoryWf := fun _ _ _ => Dev.mark_canon (Dev.setReduceStatus_canon h)
  unfold Dev.contributed
  extract_lets _ n _ _ _ late e1
  have he1 : e1.memoryWf := Dev.raiseReduce_canon h
  split
  · exact hl _ _ _
  · split
    · split
      · exact he1
      · exact Dev.event_canon (Dev.setPlan_canon he1)
    · split
      · exact hl _ _ _
      · split
        · exact hl _ _ _
        · extract_lets _ fits _ _
          split
          · exact h
          · exact Dev.setPlan_canon h

theorem Dev.freeBuffer_canon {port} (h : d.memoryWf) : (d.freeBuffer port).memoryWf := by
  unfold Dev.freeBuffer
  split
  · exact Dev.setPort_canon h
  · exact h

theorem Dev.contribution_canon {header data poison port} (h : d.memoryWf) : (d.contribution header data poison port).memoryWf := by
  have counted : (d.contributed header data poison port).1.memoryWf := Dev.contributed_canon h
  unfold Dev.contribution
  split
  · next e same =>
    rw [same] at counted
    exact Dev.freeBuffer_canon counted
  · next e x same =>
    rw [same] at counted
    exact Dev.ite_canon (Dev.hold_canon counted) (Dev.freeBuffer_canon (Dev.serveMem_canon counted))

theorem execContribPacketReceive_canon {header data poison} (h : s.dev.memoryWf) :
    Kept (execContribPacketReceive header data poison s) := State.act_canon (Dev.ite_canon (Dev.contribution_canon h) h)

theorem Dev.sendPacket_canon {h' x'} (h : d.memoryWf) : (d.sendPacket h' x').memoryWf :=
  Dev.ite_canon (Dev.contribution_canon h) (Dev.route_canon h)

theorem Dev.serveHeld_canon {h'} (h : d.memoryWf) : (d.serveHeld h').memoryWf := by
  unfold Dev.serveHeld
  split
  · exact Dev.sendPacket_canon (Dev.readNear_canon h)
  · exact Dev.freeBuffer_canon (Dev.serveMem_canon h)
  · exact Dev.nearServe_canon h
  · exact Dev.ite_canon (Dev.bodyServe_canon h) (Dev.headServe_canon h)
  · exact Dev.serveMove_canon h
  · exact Dev.transitSwap_canon h
  · exact Dev.streamDoorbell_canon h
  · exact Dev.serveMem_canon h

theorem Dev.receive_canon {h'} (h : d.memoryWf) : (d.receive h').memoryWf := by
  unfold Dev.receive
  exact Dev.ite_canon (Dev.keep h (by dsimp only)) (Dev.serveHeld_canon h)

theorem Dev.serveAll_canon {kept waiting} (h : d.memoryWf) : (d.serveAll kept waiting).memoryWf := by
  induction waiting generalizing d kept with
  | nil => exact h
  | cons x xs ih =>
    unfold Dev.serveAll
    split
    · exact ih h
    · exact ih (Dev.serveHeld_canon h)

theorem Dev.serveQueues_canon (h : d.memoryWf) : d.serveQueues.memoryWf := by
  unfold Dev.serveQueues
  extract_lets e1
  have he1 : e1.memoryWf := Dev.serveAll_canon (Dev.keep h (by dsimp only))
  exact Dev.ite_canon (Dev.sendPorts_canon he1) he1

theorem Dev.sumShard_canon {seen p n e k x' role} (h : d.memoryWf) : (d.sumShard seen p n e k x' role).memoryWf :=
  Dev.foldl_canon h (fun _ _ h1 => Dev.foldl_canon h1 (fun _ _ h2 => Dev.receive_canon h2))

theorem Dev.moduleSums_canon {n seen} (h : d.memoryWf) : (d.moduleSums n seen).memoryWf := by
  unfold Dev.moduleSums
  split
  · exact h
  · split
    · exact h
    · exact Dev.sendPorts_canon (Dev.foldl_canon (Dev.setPlan_canon h) (fun _ _ h1 => Dev.foldl_canon h1 (fun _ _ h2 => Dev.sumShard_canon h2)))

theorem Dev.poisonShard_canon {seen x' w} (h : d.memoryWf) : (d.poisonShard seen x' w).memoryWf := by
  unfold Dev.poisonShard
  extract_lets e1
  have he1 : e1.memoryWf := Dev.foldl_canon h (fun _ _ h1 => Dev.receive_canon h1)
  exact Dev.ite_canon (Dev.receive_canon he1) he1

theorem Dev.foldShard_canon {seen p x' w chosen} (h : d.memoryWf) : (d.foldShard seen p x' w chosen).memoryWf :=
  Dev.foldl_canon h (fun _ _ h1 => Dev.foldl_canon h1 (fun _ _ h2 => Dev.receive_canon h2))

theorem Dev.decideShard_canon {seen p n i k x'} (h : d.memoryWf) : (d.decideShard seen p n i k x').memoryWf := by
  unfold Dev.decideShard
  extract_lets _ _ e1
  have he1 : e1.memoryWf := Dev.foldShard_canon h
  split
  · exact Dev.event_canon (Dev.raiseReduce_canon (Dev.poisonShard_canon h))
  · exact Dev.ite_canon (Dev.raiseReduce_canon he1) he1

theorem Dev.reduceDeadline_canon {n seen} (h : d.memoryWf) : (d.reduceDeadline n seen).memoryWf := by
  unfold Dev.reduceDeadline
  split
  · exact h
  · split
    · exact h
    · exact Dev.foldl_canon (Dev.setPlan_canon h) (fun _ _ h1 => Dev.decideShard_canon h1)

theorem Dev.reduceReady_canon {n} (h : d.memoryWf) : (d.reduceReady n).memoryWf := by
  unfold Dev.reduceReady
  split
  · exact h
  · split
    · exact h
    · extract_lets _ _ e1 e2
      have he1 : e1.memoryWf := Dev.setPlan_canon h
      have he2 : e2.memoryWf := Dev.keep he1 (by dsimp only)
      exact Dev.foldl_canon he2 (fun _ _ h3 => Dev.event_canon (Dev.raiseReduce_canon (Dev.poisonShard_canon h3)))

theorem Dev.packetIn_canon {k h' data poison} (h : d.memoryWf) : (d.packetIn k h' data poison).memoryWf := by
  unfold Dev.packetIn
  split
  · exact Dev.setPort_canon h
  · exact Dev.ite_canon (Dev.contribution_canon h) (Dev.ite_canon (Dev.event_canon (Dev.setPort_canon h)) (Dev.route_canon h))

theorem Dev.parsePackets_canon {n k marks} (h : d.memoryWf) : (d.parsePackets n k marks).memoryWf := by
  induction n generalizing d marks with
  | zero => exact h
  | succ n ih =>
    unfold Dev.parsePackets
    dsimp only
    split
    · exact h
    · exact ih (Dev.packetIn_canon (Dev.setPort_canon h))

theorem Dev.discardFlit_canon {k} (h : d.memoryWf) : (d.discardFlit k).memoryWf :=
  Dev.ite_canon h (Dev.sendFlit_canon (Dev.setPort_canon h))

theorem Dev.flitIn_canon {k crcGood header payload marks} (h : d.memoryWf) : (d.flitIn k crcGood header payload marks).memoryWf := by
  unfold Dev.flitIn
  dsimp only
  split
  · exact h
  · split
    · exact Dev.discardFlit_canon h
    · split
      · split
        · exact Dev.discardFlit_canon h
        · split
          · exact Dev.sendPorts_canon (Dev.setPort_canon h)
          · exact Dev.sendPorts_canon (Dev.parsePackets_canon (Dev.setPort_canon h))
      · split
        · exact h
        · split
          · exact Dev.sendPorts_canon (Dev.setPort_canon h)
          · exact Dev.ite_canon (Dev.sendPorts_canon (Dev.replay_canon (Dev.setPort_canon h))) h

/- Window. -/

theorem execAccumulate_canon {op sector operand poison prime} (h : s.dev.memoryWf) :
    Kept (execAccumulate op sector operand poison prime s) := State.act_canon (Dev.ite_canon (Dev.receive_canon h) h)

theorem execBar4Write_canon {offset data poisoned} (h : s.dev.memoryWf) :
    Kept (execBar4Write offset data poisoned s) := State.act_canon (Dev.ite_canon h (Dev.foldl_canon h (fun _ _ h1 => Dev.receive_canon h1)))

theorem execBar4Read_canon {offset length} (h : s.dev.memoryWf) :
    Kept (execBar4Read offset length s) := State.act_canon (Dev.ite_canon h (Dev.ite_canon (Dev.emit_canon h) (Dev.receive_canon h)))

/- Clock. -/

theorem Dev.accountAll_canon (h : d.memoryWf) : d.accountAll.memoryWf := by
  unfold Dev.accountAll
  extract_lets e1
  have he1 : e1.memoryWf := Dev.mapGroups_canon h
  exact Dev.foldl_canon he1 (fun _ _ h2 => Dev.ite_canon (Dev.mark_canon h2) h2)

theorem Tile.turn_canon {wall} (hx : x.wf) : (x.turn wall).wf := by
  unfold Tile.turn
  exact Tile.keep hx (by dsimp only)

theorem Dev.advance_canon (h : d.memoryWf) : d.advance.memoryWf := by
  unfold Dev.advance
  extract_lets e1 _ e2 _ e3 _ _ e4
  have he1 : e1.memoryWf := Dev.accountAll_canon (Dev.serveRemote_canon h)
  have he2 : e2.memoryWf := Dev.mapTiles_canon he1 (fun _ _ h4 => Tile.turn_canon (Tile.arrivals_canon h4))
  have he3 : e3.memoryWf := Dev.ite_canon (Dev.drew_canon he2) he2
  have he4 : e4.memoryWf := Dev.keep he3 (by dsimp only)
  exact Dev.tryEnd_canon (Dev.serveQueues_canon he4)

theorem State.clock_canon (h : s.dev.memoryWf) : s.clock.dev.memoryWf := by
  unfold State.clock
  extract_lets d
  split
  · change (match d.booting with | some b => d.bootStep b | none => d).memoryWf
    split
    · exact Dev.bootStep_canon h
    · exact h
  · split
    · exact Dev.advance_canon h
    · exact Dev.keep h (by dsimp only)

/- Spdm. -/

theorem Dev.spdmReply_canon {name request response} (h : d.memoryWf) : (d.spdmReply name request response).memoryWf := by
  unfold Dev.spdmReply
  exact Dev.emit_canon (Dev.keep h (by dsimp only))

theorem Dev.spdmError_canon {code request} (h : d.memoryWf) : (d.spdmError code request).memoryWf :=
  Dev.emit_canon h

theorem Dev.spdmOn_canon {ready request f} (h : d.memoryWf) (hf : ∀ d, d.memoryWf → (f d).memoryWf) : (d.spdmOn ready request f).memoryWf :=
  Dev.ite_canon h (Dev.ite_canon (hf _ h) (Dev.spdmError_canon h))

theorem Dev.spdmSigned_canon {request f} (h : d.memoryWf) (hf : ∀ d, d.memoryWf → (f d).memoryWf) : (d.spdmSigned request f).memoryWf := by
  unfold Dev.spdmSigned
  exact Dev.ite_canon (Dev.spdmError_canon (Dev.keep h (by dsimp only))) (Dev.ite_canon (Dev.spdmError_canon h) (hf _ (Dev.firmwarePke_canon h)))

theorem Dev.spdmVersion_canon (h : d.memoryWf) : d.spdmVersion.memoryWf := by
  unfold Dev.spdmVersion
  exact Dev.spdmOn_canon h (fun _ h1 => Dev.spdmReply_canon (Dev.keep h1 (by dsimp only)))

theorem Dev.spdmCapabilities_canon (h : d.memoryWf) : d.spdmCapabilities.memoryWf := by
  unfold Dev.spdmCapabilities
  exact Dev.spdmOn_canon h (fun _ h1 => Dev.spdmReply_canon (Dev.keep h1 (by dsimp only)))

theorem Dev.spdmAlgorithms_canon {base hash measurement} (h : d.memoryWf) : (d.spdmAlgorithms base hash measurement).memoryWf := by
  unfold Dev.spdmAlgorithms
  exact Dev.spdmOn_canon h (fun _ h1 => Dev.spdmReply_canon (Dev.keep h1 (by dsimp only)))

theorem Dev.spdmDigests_canon (h : d.memoryWf) : d.spdmDigests.memoryWf :=
  Dev.spdmOn_canon h (fun _ h1 => Dev.spdmReply_canon h1)

theorem Dev.spdmCertificate_canon {slot offset length} (h : d.memoryWf) : (d.spdmCertificate slot offset length).memoryWf :=
  Dev.spdmOn_canon h (fun _ h1 => Dev.ite_canon (Dev.spdmError_canon h1) (Dev.spdmReply_canon h1))

theorem Dev.spdmSign_canon {name request body} (h : d.memoryWf) : (d.spdmSign name request body).memoryWf := by
  unfold Dev.spdmSign
  extract_lets _ e1
  have he1 : e1.memoryWf := Dev.drewRandom_canon h
  exact Dev.spdmReply_canon he1

theorem Dev.spdmChallenge_canon {slot nonce} (h : d.memoryWf) : (d.spdmChallenge slot nonce).memoryWf := by
  unfold Dev.spdmChallenge
  refine Dev.spdmOn_canon h ?_
  exact fun _ h1 => Dev.ite_canon (Dev.spdmError_canon h1) (Dev.spdmSigned_canon h1 (fun _ h2 => Dev.spdmSign_canon h2))

theorem Dev.spdmMeasurements_canon {index nonce} (h : d.memoryWf) : (d.spdmMeasurements index nonce).memoryWf := by
  unfold Dev.spdmMeasurements
  dsimp only
  refine Dev.spdmOn_canon h ?_
  refine fun _ h1 => ?_
  split
  · exact Dev.spdmError_canon h1
  · split
    · exact Dev.spdmReply_canon h1
    · exact Dev.spdmSigned_canon h1 (fun _ h2 => Dev.spdmSign_canon h2)

theorem Dev.spdmRequest_canon {b} (h : d.memoryWf) : (d.spdmRequest b).memoryWf := by
  unfold Dev.spdmRequest
  dsimp only
  split
  · exact Dev.spdmError_canon h
  · split
    · exact Dev.spdmVersion_canon h
    · split
      · exact Dev.spdmCapabilities_canon h
      · split
        · exact Dev.spdmAlgorithms_canon h
        · split
          · exact Dev.spdmDigests_canon h
          · split
            · exact Dev.spdmCertificate_canon h
            · exact Dev.ite_canon (Dev.spdmChallenge_canon h) (Dev.ite_canon (Dev.spdmMeasurements_canon h) (Dev.spdmError_canon h))

theorem execChunkSend_canon {last chunk} (h : s.dev.memoryWf) :
    Kept (execChunkSend last chunk s) := State.act_canon (Dev.spdmOn_canon h (fun _ h1 => Dev.ite_canon (Dev.spdmRequest_canon (Dev.emit_canon
      (Dev.keep h1 (by dsimp only)))) (Dev.emit_canon (Dev.keep h1 (by dsimp only)))))

theorem execChunkGet_canon {size} (h : s.dev.memoryWf) :
    Kept (execChunkGet size s) := State.act_canon (Dev.spdmOn_canon h (fun _ h1 => Dev.ite_canon (Dev.spdmError_canon h1) (Dev.emit_canon
      (Dev.keep h1 (by dsimp only)))))
end Functions

end Sys2Proof.Machine

/- Every command, and with it every step, keeps the form. -/

namespace Sys2Proof.Machine

/-- A slot instruction issued by itself changes its tile as the issue says. -/
theorem slot_canon {s : State} {t : TileId} {sl : Slot} {f : IssueCtx → Tile → Issue} (hf : ∀ ctx x, x.wf → Yields Tile.wf (f ctx x))
    (h : s.dev.memoryWf) : Kept (s.act fun d => d.issueSlotOf t sl f) := State.act_canon (Dev.issueSlotOf_canon h hf)

theorem exec_canon (c : Instr) {s : State} (h : s.dev.memoryWf) : Kept (exec c s) := by
  cases c with
  | nop => exact (slot_canon (fun _ _ hx => issueNop_canon hx) h : Kept (execNop ..))
  | scheduleCycle => exact (State.act_canon (Dev.scheduleCycle_canon h) : Kept (execScheduleCycle ..))
  | engineWriteback => exact (State.act_canon (Dev.onMember_canon h (fun _ _ h1 => Tile.landDue_canon h1)) : Kept (execEngineWriteback ..))
  | engineRowDelivery => exact execEngineRowDelivery_canon h
  | vadd => exact (slot_canon (fun _ _ hx => issueVadd_canon hx) h : Kept (execVadd ..))
  | vsub => exact (slot_canon (fun _ _ hx => issueVsub_canon hx) h : Kept (execVsub ..))
  | vneg => exact (slot_canon (fun _ _ hx => issueVneg_canon hx) h : Kept (execVneg ..))
  | vmul => exact (slot_canon (fun _ _ hx => issueVmul_canon hx) h : Kept (execVmul ..))
  | vmuls => exact (slot_canon (fun _ _ hx => issueVmuls_canon hx) h : Kept (execVmuls ..))
  | vmad => exact (slot_canon (fun _ _ hx => issueVmad_canon hx) h : Kept (execVmad ..))
  | vmsb => exact (slot_canon (fun _ _ hx => issueVmsb_canon hx) h : Kept (execVmsb ..))
  | vmod => exact (slot_canon (fun _ _ hx => issueVmod_canon hx) h : Kept (execVmod ..))
  | vcmp => exact (slot_canon (fun _ _ hx => issueVcmp_canon hx) h : Kept (execVcmp ..))
  | vmin => exact (slot_canon (fun _ _ hx => issueVmin_canon hx) h : Kept (execVmin ..))
  | vmax => exact (slot_canon (fun _ _ hx => issueVmax_canon hx) h : Kept (execVmax ..))
  | vsel => exact (slot_canon (fun _ _ hx => issueVsel_canon hx) h : Kept (execVsel ..))
  | vmov => exact (slot_canon (fun _ _ hx => issueVmov_canon hx) h : Kept (execVmov ..))
  | vbcast => exact (slot_canon (fun _ _ hx => issueVbcast_canon hx) h : Kept (execVbcast ..))
  | vperm => exact (slot_canon (fun _ _ hx => issueVperm_canon hx) h : Kept (execVperm ..))
  | kand => exact (slot_canon (fun _ _ hx => issueKand_canon hx) h : Kept (execKand ..))
  | kor => exact (slot_canon (fun _ _ hx => issueKor_canon hx) h : Kept (execKor ..))
  | kxor => exact (slot_canon (fun _ _ hx => issueKxor_canon hx) h : Kept (execKxor ..))
  | knot => exact (slot_canon (fun _ _ hx => issueKnot_canon hx) h : Kept (execKnot ..))
  | kset => exact (slot_canon (fun _ _ hx => issueKset_canon hx) h : Kept (execKset ..))
  | ktail => exact (slot_canon (fun _ _ hx => issueKtail_canon hx) h : Kept (execKtail ..))
  | fadd => exact (slot_canon (fun _ _ hx => issueFadd_canon hx) h : Kept (execFadd ..))
  | fsub => exact (slot_canon (fun _ _ hx => issueFsub_canon hx) h : Kept (execFsub ..))
  | fmul => exact (slot_canon (fun _ _ hx => issueFmul_canon hx) h : Kept (execFmul ..))
  | fma => exact (slot_canon (fun _ _ hx => issueFma_canon hx) h : Kept (execFma ..))
  | fmin => exact (slot_canon (fun _ _ hx => issueFmin_canon hx) h : Kept (execFmin ..))
  | fmax => exact (slot_canon (fun _ _ hx => issueFmax_canon hx) h : Kept (execFmax ..))
  | fcmp => exact (slot_canon (fun _ _ hx => issueFcmp_canon hx) h : Kept (execFcmp ..))
  | cvtrf => exact (slot_canon (fun _ _ hx => issueCvtrf_canon hx) h : Kept (execCvtrf ..))
  | cvtfr => exact (slot_canon (fun _ _ hx => issueCvtfr_canon hx) h : Kept (execCvtfr ..))
  | vld => exact (slot_canon (fun _ _ hx => issueVld_canon hx) h : Kept (execVld ..))
  | vst => exact (slot_canon (fun _ _ hx => issueVst_canon hx) h : Kept (execVst ..))
  | vscanMsum => exact (slot_canon (fun _ _ hx => issueVscanMsum_canon hx) h : Kept (execVscanMsum ..))
  | vscanMmin => exact (slot_canon (fun _ _ hx => issueVscanMmin_canon hx) h : Kept (execVscanMmin ..))
  | vscanMmax => exact (slot_canon (fun _ _ hx => issueVscanMmax_canon hx) h : Kept (execVscanMmax ..))
  | vscanFsum => exact (slot_canon (fun _ _ hx => issueVscanFsum_canon hx) h : Kept (execVscanFsum ..))
  | vscanFmin => exact (slot_canon (fun _ _ hx => issueVscanFmin_canon hx) h : Kept (execVscanFmin ..))
  | vscanFmax => exact (slot_canon (fun _ _ hx => issueVscanFmax_canon hx) h : Kept (execVscanFmax ..))
  | vtreeMsum => exact (slot_canon (fun _ _ hx => issueVtreeMsum_canon hx) h : Kept (execVtreeMsum ..))
  | vtreeMprod => exact (slot_canon (fun _ _ hx => issueVtreeMprod_canon hx) h : Kept (execVtreeMprod ..))
  | vtreeMmin => exact (slot_canon (fun _ _ hx => issueVtreeMmin_canon hx) h : Kept (execVtreeMmin ..))
  | vtreeMmax => exact (slot_canon (fun _ _ hx => issueVtreeMmax_canon hx) h : Kept (execVtreeMmax ..))
  | vtreeFsum => exact (slot_canon (fun _ _ hx => issueVtreeFsum_canon hx) h : Kept (execVtreeFsum ..))
  | vtreeFmin => exact (slot_canon (fun _ _ hx => issueVtreeFmin_canon hx) h : Kept (execVtreeFmin ..))
  | vtreeFmax => exact (slot_canon (fun _ _ hx => issueVtreeFmax_canon hx) h : Kept (execVtreeFmax ..))
  | wait => exact (slot_canon (fun _ _ hx => issueWait_canon hx) h : Kept (execWait ..))
  | dmaiss => exact (slot_canon (fun _ _ hx => issueDmaiss_canon hx) h : Kept (execDmaiss ..))
  | pwld => exact (slot_canon (fun _ _ hx => issuePwld_canon hx) h : Kept (execPwld ..))
  | flagclr => exact (slot_canon (fun _ _ hx => issueFlagclr_canon hx) h : Kept (execFlagclr ..))
  | endst => exact (slot_canon (fun _ _ hx => issueEndst_canon hx) h : Kept (execEndst ..))
  | sli => exact (slot_canon (fun _ _ hx => issueSli_canon hx) h : Kept (execSli ..))
  | slis => exact (slot_canon (fun _ _ hx => issueSlis_canon hx) h : Kept (execSlis ..))
  | saddi => exact (slot_canon (fun _ _ hx => issueSaddi_canon hx) h : Kept (execSaddi ..))
  | salu => exact (slot_canon (fun _ _ hx => issueSalu_canon hx) h : Kept (execSalu ..))
  | ccld => exact (slot_canon (fun _ _ hx => issueCcld_canon hx) h : Kept (execCcld ..))
  | hld => exact (slot_canon (fun _ _ hx => issueHld_canon hx) h : Kept (execHld ..))
  | hst => exact (slot_canon (fun _ _ hx => issueHst_canon hx) h : Kept (execHst ..))
  | hopAddsub => exact (slot_canon (fun _ _ hx => issueHop_canon hx) h : Kept (execHopAddsub ..))
  | hopMulcc => exact (slot_canon (fun _ _ hx => issueHop_canon hx) h : Kept (execHopMulcc ..))
  | hopMulpt => exact (slot_canon (fun _ _ hx => issueHop_canon hx) h : Kept (execHopMulpt ..))
  | hopRelin => exact (slot_canon (fun _ _ hx => issueHop_canon hx) h : Kept (execHopRelin ..))
  | hopRotate => exact (slot_canon (fun _ _ hx => issueHop_canon hx) h : Kept (execHopRotate ..))
  | hopFntt => exact (slot_canon (fun _ _ hx => issueHop_canon hx) h : Kept (execHopFntt ..))
  | hopIntt => exact (slot_canon (fun _ _ hx => issueHop_canon hx) h : Kept (execHopIntt ..))
  | hopTranspose => exact (slot_canon (fun _ _ hx => issueHop_canon hx) h : Kept (execHopTranspose ..))
  | hopRescale => exact (slot_canon (fun _ _ hx => issueHop_canon hx) h : Kept (execHopRescale ..))
  | hopMulrescale => exact (slot_canon (fun _ _ hx => issueHop_canon hx) h : Kept (execHopMulrescale ..))
  | hopModswitch => exact (slot_canon (fun _ _ hx => issueHop_canon hx) h : Kept (execHopModswitch ..))
  | hopDrop => exact (slot_canon (fun _ _ hx => issueHop_canon hx) h : Kept (execHopDrop ..))
  | hopModraise => exact (slot_canon (fun _ _ hx => issueHop_canon hx) h : Kept (execHopModraise ..))
  | hopKsext => exact (slot_canon (fun _ _ hx => issueHop_canon hx) h : Kept (execHopKsext ..))
  | hopInvalidate => exact (slot_canon (fun _ _ hx => issueInvalidate_canon hx) h : Kept (execHopInvalidate ..))
  | karm => exact (slot_canon (fun _ _ hx => issueKarm_canon hx) h : Kept (execKarm ..))
  | krel => exact (slot_canon (fun _ _ hx => issueKrel_canon hx) h : Kept (execKrel ..))
  | expand => exact (slot_canon (fun _ _ hx => issueExpand_canon hx) h : Kept (execExpand ..))
  | loop => exact (slot_canon (fun _ _ hx => issueLoop_canon hx) h : Kept (execLoop ..))
  | pendingWaitComplete => exact execPendingWaitComplete_canon h
  | arrivalTimeout => exact execArrivalTimeout_canon h
  | stageEnd => exact execStageEnd_canon h
  | ntt => exact (slot_canon (fun _ _ hx => issueNtt_canon hx) h : Kept (execNtt ..))
  | intt => exact (slot_canon (fun _ _ hx => issueIntt_canon hx) h : Kept (execIntt ..))
  | auto => exact (slot_canon (fun _ _ hx => issueAuto_canon hx) h : Kept (execAuto ..))
  | perm => exact (slot_canon (fun _ _ hx => issuePerm_canon hx) h : Kept (execPerm ..))
  | txp => exact (slot_canon (fun _ _ hx => issueTxp_canon hx) h : Kept (execTxp ..))
  | transformInvariantClose => exact execTransformInvariantClose_canon h
  | permIndexCheck => exact (State.act_canon (Dev.onOpen_canon h (fun _ _ h1 => Tile.permCheck_canon h1)) : Kept (execPermIndexCheck ..))
  | mma => exact (slot_canon (fun _ _ hx => issueMma_canon hx) h : Kept (execMma ..))
  | dsm => exact (slot_canon (fun _ _ hx => issueDsm_canon hx) h : Kept (execDsm ..))
  | dsmClose => exact (State.act_canon (Dev.onMember_canon h (fun _ _ h1 => Tile.closeOverdue_canon h1)) : Kept (execDsmClose ..))
  | mspill => exact (slot_canon (fun _ _ hx => issueMspill_canon hx) h : Kept (execMspill ..))
  | mresume => exact (slot_canon (fun _ _ hx => issueMresume_canon hx) h : Kept (execMresume ..))
  | mepi => exact (slot_canon (fun _ _ hx => issueMepi_canon hx) h : Kept (execMepi ..))
  | mchs => exact (slot_canon (fun _ _ hx => issueMchs_canon hx) h : Kept (execMchs ..))
  | mchr => exact (slot_canon (fun _ _ hx => issueMchr_canon hx) h : Kept (execMchr ..))
  | chainPacketLand => exact execChainPacketLand_canon h
  | dmaElementRequest => exact (State.act_canon (Dev.dmaRequest_canon h) : Kept (execDmaElementRequest ..))
  | nearReadReturn => exact (State.act_canon (Dev.nearReturn_canon h) : Kept (execNearReadReturn ..))
  | farReadReturn => exact execFarReadReturn_canon h
  | farReadTimeout => exact (State.act_canon (Dev.farSupply_canon h) : Kept (execFarReadTimeout ..))
  | dmaWriteLand => exact (State.act_canon (Dev.dmaLand_canon h) : Kept (execDmaWriteLand ..))
  | accumulate => exact execAccumulate_canon h
  | refreshSlot => exact execRefreshSlot_canon h
  | extendedRefreshEntry => exact (State.act_canon (Dev.stackReads_canon h) : Kept (execExtendedRefreshEntry ..))
  | memCeRate => exact execMemCeRate_canon h
  | ksuGrant => exact (State.act_canon (Dev.ksuGrant_canon h) : Kept (execKsuGrant ..))
  | ksuPageHeaderArrival => exact (State.act_canon (Dev.pageHeader_canon h) : Kept (execKsuPageHeaderArrival ..))
  | slotFillComplete => exact (State.act_canon (Dev.fillComplete_canon h) : Kept (execSlotFillComplete ..))
  | expandComplete => exact (State.act_canon (Dev.expandComplete_canon h) : Kept (execExpandComplete ..))
  | tickBoundary => exact (State.event_canon (Dev.tickBoundary_canon h) : Kept (execTickBoundary ..))
  | tickInEdge => exact (State.act_canon (Dev.tickInEdge_canon h) : Kept (execTickInEdge ..))
  | tickInLost => exact (State.act_canon (Dev.tickInLost_canon h) : Kept (execTickInLost ..))
  | stageStart => exact (State.event_canon (Dev.stageStart_canon h) : Kept (execStageStart ..))
  | stageDeadline => exact (State.event_canon (Dev.stageDeadline_canon h) : Kept (execStageDeadline ..))
  | throttleExpiry => exact (State.act_canon (Dev.setGroup_canon h) : Kept (execThrottleExpiry ..))
  | arbiterEvaluation => exact execArbiterEvaluation_canon h
  | pwrBrakeAssert => exact execPwrBrakeAssert_canon h
  | pwrBrakeRelease => exact execPwrBrakeRelease_canon h
  | inputMonitorSample => exact execInputMonitorSample_canon h
  | droopDetected => exact execDroopDetected_canon h
  | thermalTrip => exact execThermalTrip_canon h
  | avsStep => exact execAvsStep_canon h
  | clockLost => exact execClockLost_canon h
  | countReached => exact execCountReached_canon h
  | transitHotDetect => exact (State.act_canon (Dev.hotDetect_canon h) : Kept (execTransitHotDetect ..))
  | transitSwap => exact (State.act_canon (Dev.transitSwap_canon h) : Kept (execTransitSwap ..))
  | stagingPageCopy => exact (State.event_canon (Dev.stagingCopy_canon h) : Kept (execStagingPageCopy ..))
  | streamAdmission => exact (State.act_canon (Dev.admission_canon h) : Kept (execStreamAdmission ..))
  | streamConsume => exact (State.act_canon (Dev.consume_canon h) : Kept (execStreamConsume ..))
  | streamLapCheck => exact (State.act_canon (Dev.lapCheck_canon h) : Kept (execStreamLapCheck ..))
  | batchRecordPost => exact (State.act_canon (Dev.batchPost_canon h) : Kept (execBatchRecordPost ..))
  | reduceModuleSum => exact (State.act_canon (Dev.moduleSums_canon h) : Kept (execReduceModuleSum ..))
  | contribPacketReceive => exact execContribPacketReceive_canon h
  | reduceDeadline => exact (State.act_canon (Dev.reduceDeadline_canon h) : Kept (execReduceDeadline ..))
  | reduceReady => exact (State.act_canon (Dev.reduceReady_canon h) : Kept (execReduceReady ..))
  | peerLinkUp => exact execPeerLinkUp_canon h
  | peerFlitReceive => exact (State.act_canon (Dev.flitIn_canon h) : Kept (execPeerFlitReceive ..))
  | peerReplayTimeout => exact execPeerReplayTimeout_canon h
  | peerRetrainTimeout => exact execPeerRetrainTimeout_canon h
  | peerConfigTimeout => exact (State.act_canon (Dev.peerConfigured_canon h) : Kept (execPeerConfigTimeout ..))
  | dieLinkReplay => exact (State.act_canon (Dev.unlessTripped_canon h (fun _ h1 => Dev.onClocks_canon h1)) : Kept (execDieLinkReplay ..))
  | farLinkDown => exact execFarLinkDown_canon h
  | farWriteLost => exact execFarWriteLost_canon h
  | commandFetch => exact execCommandFetch_canon h
  | cqInterruptTimer => exact execCqInterruptTimer_canon h
  | identify => exact (State.act_canon (Dev.command_canon h (fun _ _ h1 => Dev.complete_canon (Dev.emit_canon h1))) : Kept (execIdentify ..))
  | getFeatures => exact (State.act_canon (Dev.command_canon h (fun _ _ h1 => Dev.complete_canon (Dev.emit_canon h1))) : Kept (execGetFeatures ..))
  | loadImage => exact execLoadImage_canon h
  | unloadImage => exact (State.act_canon (Dev.command_canon h (fun _ _ h1 => Dev.complete_canon (Dev.enter_canon (Dev.unload_canon h1)))) : Kept
    (execUnloadImage ..))
  | bindKeyset => exact execBindKeyset_canon h
  | bindCopyComplete => exact (State.event_canon (Dev.bindCopied_canon h) : Kept (execBindCopyComplete ..))
  | unbindKeyset => exact execUnbindKeyset_canon h
  | stageKeys => exact execStageKeys_canon h
  | retirePage => exact execRetirePage_canon h
  | start => exact (State.act_canon (Dev.command_canon h (fun _ _ h1 => Dev.beginRun_canon h1)) : Kept (execStart ..))
  | stop => exact execStop_canon h
  | abort => exact execAbort_canon h
  | resume => exact (State.act_canon (Dev.command_canon h (fun _ _ h1 => Dev.beginRun_canon h1)) : Kept (execResume ..))
  | setTick => exact execSetTick_canon h
  | openStream => exact execOpenStream_canon h
  | closeStream => exact execCloseStream_canon h
  | runToCount => exact execRunToCount_canon h
  | dumpState => exact execDumpState_canon h
  | setDebug => exact execSetDebug_canon h
  | readLog => exact (State.act_canon (Dev.command_canon h (fun _ _ h1 => Dev.complete_canon (Dev.emit_canon h1))) : Kept (execReadLog ..))
  | clearLog => exact (State.act_canon (Dev.command_canon h (fun _ _ h1 => Dev.complete_canon (Dev.keep h1 (by dsimp only)))) : Kept (execClearLog ..))
  | channelTest => exact execChannelTest_canon h
  | channelTestComplete => exact (State.event_canon (Dev.testDone_canon h) : Kept (execChannelTestComplete ..))
  | setHash => exact execSetHash_canon h
  | pkeOpen => exact execPkeOpen_canon h
  | pkeClose => exact execPkeClose_canon h
  | pkeLoad => exact (State.act_canon (Dev.pkeOp_canon h (fun _ _ _ _ h1 => Dev.pkeDone_canon h1)) : Kept (execPkeLoad ..))
  | pkeStore => exact execPkeStore_canon h
  | pkeZero => exact (State.act_canon (Dev.pkeOp_canon h (fun _ _ _ _ h1 => Dev.pkeDone_canon h1)) : Kept (execPkeZero ..))
  | pkeRandom => exact (State.act_canon (Dev.pkeOp_canon h (fun _ _ _ _ h1 => Dev.pkeDone_canon (Dev.drewRandom_canon h1))) : Kept (execPkeRandom ..))
  | pkeModadd => exact (State.act_canon (Dev.pkeOp_canon h (fun _ _ _ _ h1 => Dev.pkeDone_canon h1)) : Kept (execPkeModadd ..))
  | pkeModsub => exact (State.act_canon (Dev.pkeOp_canon h (fun _ _ _ _ h1 => Dev.pkeDone_canon h1)) : Kept (execPkeModsub ..))
  | pkeModmul => exact (State.act_canon (Dev.pkeOp_canon h (fun _ _ _ _ h1 => Dev.pkeDone_canon h1)) : Kept (execPkeModmul ..))
  | pkeModexp => exact (State.act_canon (Dev.pkeOp_canon h (fun _ _ _ _ h1 => Dev.pkeDone_canon h1)) : Kept (execPkeModexp ..))
  | pkeModinv => exact (State.act_canon (Dev.pkeOp_canon h (fun _ _ _ _ h1 => Dev.pkeDone_canon h1)) : Kept (execPkeModinv ..))
  | pkeModred => exact (State.act_canon (Dev.pkeOp_canon h (fun _ _ _ _ h1 => Dev.pkeDone_canon h1)) : Kept (execPkeModred ..))
  | pkeEckeygen => exact (State.act_canon (Dev.pkeOp_canon h (fun _ _ _ _ h1 => Dev.pkeDone_canon (Dev.drewRandom_canon h1))) : Kept
    (execPkeEckeygen ..))
  | pkeEcmul => exact (State.act_canon (Dev.pkeOp_canon h (fun _ _ _ _ h1 => Dev.pkeDone_canon h1)) : Kept (execPkeEcmul ..))
  | pkeEcdh => exact (State.act_canon (Dev.pkeOp_canon h (fun _ _ _ _ h1 => Dev.pkeDone_canon h1)) : Kept (execPkeEcdh ..))
  | pkeEcdsaSign => exact (State.act_canon (Dev.pkeOp_canon h (fun _ _ _ _ h1 => Dev.pkeDone_canon (Dev.drewRandom_canon h1))) : Kept
    (execPkeEcdsaSign ..))
  | pkeEcdsaVerify => exact (State.act_canon (Dev.pkeOp_canon h (fun _ _ _ _ h1 => Dev.pkeDone_canon h1)) : Kept (execPkeEcdsaVerify ..))
  | pkeIdleClose => exact execPkeIdleClose_canon h
  | sanitize => exact (State.act_canon (Dev.command_canon h (fun _ _ h1 => Dev.sanitizeFirst_canon (Dev.enter_canon (Dev.becomePending_canon
    (Dev.keep (Dev.endRun_canon h1) (by dsimp only)))))) : Kept (execSanitize ..))
  | sanitizeComplete => exact (State.event_canon (Dev.sanitizeDone_canon h) : Kept (execSanitizeComplete ..))
  | peerConfig => exact execPeerConfig_canon h
  | reducePlan => exact execReducePlan_canon h
  | sqTailDoorbell => exact execSqTailDoorbell_canon h
  | cqHeadDoorbell => exact execCqHeadDoorbell_canon h
  | streamDoorbell => exact (State.act_canon (Dev.doorbellIn_canon h) : Kept (execStreamDoorbell ..))
  | sqEnable => exact (State.act_canon (Dev.writeReg_canon h) : Kept (execSqEnable ..))
  | sqDisable => exact (State.act_canon (Dev.writeReg_canon h) : Kept (execSqDisable ..))
  | cqEnable => exact execCqEnable_canon h
  | cqDisable => exact (State.act_canon (Dev.writeReg_canon h) : Kept (execCqDisable ..))
  | bar4Write => exact execBar4Write_canon h
  | bar4Read => exact execBar4Read_canon h
  | bar4BaseWrite => exact (State.act_canon (Dev.writeReg_canon h) : Kept (execBar4BaseWrite ..))
  | lowWordRead => exact execLowWordRead_canon h
  | krtData0Read => exact (State.act_canon (Dev.unlessTripped_canon h (fun _ h1 => Dev.readWord_canon h1)) : Kept (execKrtData0Read ..))
  | logData0Read => exact (State.act_canon (Dev.unlessTripped_canon h (fun _ h1 => Dev.readWord_canon h1)) : Kept (execLogData0Read ..))
  | logAckWrite => exact (State.act_canon (Dev.writeReg_canon h) : Kept (execLogAckWrite ..))
  | pwrBudgetWrite => exact (State.act_canon (Dev.writeReg_canon h) : Kept (execPwrBudgetWrite ..))
  | clkCtrlWrite => exact (State.act_canon (Dev.writeReg_canon h) : Kept (execClkCtrlWrite ..))
  | registerWrite => exact execRegisterWrite_canon h
  | logMsiTimer => exact execLogMsiTimer_canon h
  | powerOn => exact execPowerOn_canon h
  | inputPowerLoss => exact execInputPowerLoss_canon h
  | warmReset => exact execWarmReset_canon h
  | bootStart => exact execBootStart_canon h
  | flr => exact (State.act_canon (Dev.unlessTripped_canon h (fun _ h1 => Dev.flr_canon h1)) : Kept (execFlr ..))
  | hostLinkDown => exact execHostLinkDown_canon h
  | internalFault => exact execInternalFault_canon h
  | entropyHealthFail => exact execEntropyHealthFail_canon h
  | drbgReseed => exact execDrbgReseed_canon h
  | pldmFwUpdate => exact execPldmFwUpdate_canon h
  | ownerRecordUpdate => exact execOwnerRecordUpdate_canon h
  | getVersion => exact (State.act_canon (Dev.spdmVersion_canon h) : Kept (execGetVersion ..))
  | getCapabilities => exact (State.act_canon (Dev.spdmCapabilities_canon h) : Kept (execGetCapabilities ..))
  | negotiateAlgorithms => exact (State.act_canon (Dev.spdmAlgorithms_canon h) : Kept (execNegotiateAlgorithms ..))
  | getDigests => exact (State.act_canon (Dev.spdmDigests_canon h) : Kept (execGetDigests ..))
  | getCertificate => exact (State.act_canon (Dev.spdmCertificate_canon h) : Kept (execGetCertificate ..))
  | challenge => exact (State.act_canon (Dev.spdmChallenge_canon h) : Kept (execChallenge ..))
  | getMeasurements => exact (State.act_canon (Dev.spdmMeasurements_canon h) : Kept (execGetMeasurements ..))
  | chunkSend => exact execChunkSend_canon h
  | chunkGet => exact execChunkGet_canon h
  | sentinelSample => exact execSentinelSample_canon h
  | dmaReadReturn => exact (State.act_canon (Dev.dmaReadReturn_canon h) : Kept (execDmaReadReturn ..))
  | extendedRateTimer => exact execExtendedRateTimer_canon h
  | boundaryScanInstruction => exact execBoundaryScanInstruction_canon h

/-- Settles O58: each function of the model keeps the form, and a step is a command or the clock. -/
theorem memoryStaysCanonical : Obligations.MemoryStaysCanonical := by
  unfold Obligations.MemoryStaysCanonical
  intro s s' h stepped
  unfold step at stepped
  split at stepped
  · exact Host.Outcome.next.inj stepped ▸ State.clock_canon h
  · next c rest _ => exact exec_canon c (s := { s with pending := rest }) h s' stepped

end Sys2Proof.Machine

/- The values of the key material (08 R31, R176, R178, R414): SHAKE256's stream, what the tail accepts of it, and the rows of an expansion. -/

namespace Sys2Proof.Machine

/- The stream of SHAKE256. -/

theorem keccakRound_length (a : List (BitVec 64)) (rc : BitVec 64) : (keccakRound a rc).length = 25 := by
  simp only [keccakRound, List.length_modifyHead, List.length_map, List.length_range]

theorem keccakF_length (a : List (BitVec 64)) : (keccakF a).length = 25 := by
  have rounds : List.range 24 = List.range 23 ++ [23] := List.range_succ
  rw [keccakF, rounds, List.map_append, List.foldl_append]
  exact keccakRound_length _ _

theorem leBytes_length (n x : Nat) : (leBytes n x).length = n := by
  induction n generalizing x with
  | zero => rfl
  | succ n ih => rw [leBytes, List.length_cons, ih]

theorem shakeBlock_length {a : List (BitVec 64)} (lanes : a.length = 25) : (shakeBlock a).length = 136 := by
  have bytes : ∀ l : List (BitVec 64), ((l.map (fun x => leBytes 8 x.toNat)).flatten).length = 8 * l.length := fun l => by
    induction l with
    | nil => rfl
    | cons x l ih => rw [List.map_cons, List.flatten_cons, List.length_append, leBytes_length, ih, List.length_cons]; omega
  rw [shakeBlock, bytes, List.length_take, lanes]
  rfl

theorem shakeState_length (m : List Byte) (b : Nat) : (keccakF^[b] (shakeStart m)).length = 25 := by
  cases b with
  | zero => rw [Function.iterate_zero_apply, shakeStart, keccakF_length]
  | succ b => rw [Function.iterate_succ_apply', keccakF_length]

theorem shakeOut_length (m : List Byte) (b : Nat) : (shakeOut m b).length = 136 := by rw [shakeOut, shakeBlock_length (shakeState_length m b)]

/-- The first n blocks of the output of SHAKE256 on m. -/
def shakeStream (m : List Byte) (n : Nat) : List Byte := ((List.range n).map (shakeOut m)).flatten

theorem shakeStream_succ (m : List Byte) (n : Nat) : shakeStream m (n + 1) = shakeStream m n ++ shakeOut m n := by
  simp only [shakeStream, List.range_succ, List.map_append, List.flatten_append, List.map_cons, List.map_nil, List.flatten_cons, List.flatten_nil, List.append_nil]

theorem shakeStream_length (m : List Byte) (n : Nat) : (shakeStream m n).length = 136 * n := by
  induction n with
  | zero => rfl
  | succ n ih => rw [shakeStream_succ, List.length_append, ih, shakeOut_length, Nat.mul_succ]

theorem shakeStream_prefix (m : List Byte) {j n : Nat} (h : j ≤ n) : shakeStream m j <+: shakeStream m n := by
  induction h with
  | refl => exact List.prefix_refl _
  | step _ ih => rw [shakeStream_succ]; exact ih.trans (List.prefix_append _ _)

/- What the tail accepts. -/

/-- The values below q among the first u groups of five bytes of a string. -/
def acceptedGroups (q : Nat) (bytes : List Byte) (u : Nat) : List Nat :=
  ((List.range u).map (fun i => leAt bytes (5 * i) 5 % 2 ^ (q.log2 + 1))).filter (fun v => decide (v < q))

theorem acceptedOf_eq (q : Nat) (m : List Byte) (n : Nat) : acceptedOf q m n = acceptedGroups q (shakeStream m (n / 27 + 1)) n := rfl

theorem acceptedGroups_prefix (q : Nat) (bytes : List Byte) {u w : Nat} (h : u ≤ w) : acceptedGroups q bytes u <+: acceptedGroups q bytes w := by
  obtain ⟨k, rfl⟩ := Nat.exists_eq_add_of_le h
  rw [acceptedGroups, acceptedGroups, List.range_add, List.map_append, List.filter_append]
  exact List.prefix_append _ _

/-- The groups of k whole groups of bytes from place 5u on are the next k of the string. -/
theorem acceptGroups_next (q : Nat) {bytes bs : List Byte} {u k : Nat} (same : bs.take (5 * k) = (bytes.drop (5 * u)).take (5 * k)) (whole : 5 * k ≤ bs.length) :
    acceptedGroups q bytes u ++ acceptGroups q (chunksOf 5 (bs.take (5 * k))) = acceptedGroups q bytes (u + k) := by
  have count : ((bs.take (5 * k)).length + 5 - 1) / 5 = k := by rw [List.length_take]; omega
  have group : ∀ i ∈ List.range k, leNat (((bs.take (5 * k)).drop (5 * i)).take 5) = leAt bytes (5 * (u + i)) 5 := fun i inside => by
    have room : 5 * i + 5 ≤ 5 * k := by have := List.mem_range.1 inside; omega
    rw [same, List.drop_take, List.take_take, List.drop_drop, leAt, Nat.min_eq_left (by omega), Nat.mul_add]
  rw [acceptedGroups, acceptedGroups, List.range_add, List.map_append, List.filter_append, List.append_cancel_left_eq, acceptGroups, chunksOf, count,
    List.filterMap_map, List.map_map, ← List.filterMap_eq_filter, List.filterMap_map]
  refine List.filterMap_congr fun i inside => ?_
  simp only [Function.comp_apply, group i inside, Option.guard, decide_eq_true_eq]

/-- The draw gives what a first part of the candidates gives: all of them, or enough. With `fuel` blocks to come of the stream's and u groups used. -/
theorem tailDraw_eq (q count tries : Nat) (m : List Byte) (fuel j u : Nat) (blocks : j + fuel = tries / 27 + 1) (used : u ≤ tries)
    (taken : 5 * u ≤ 136 * j) (whole : u = tries ∨ 136 * j < 5 * u + 5) :
    ∃ w, w ≤ tries ∧ (w = tries ∨ count ≤ (acceptedGroups q (shakeStream m (tries / 27 + 1)) w).length) ∧
      tailDraw q count fuel (keccakF^[j] (shakeStart m)) ((shakeStream m j).drop (5 * u)) (tries - u)
        (acceptedGroups q (shakeStream m (tries / 27 + 1)) u) = acceptedGroups q (shakeStream m (tries / 27 + 1)) w := by
  induction fuel generalizing j u with
  | zero => exact ⟨u, used, .inl (by omega), rfl⟩
  | succ fuel ih =>
    rw [tailDraw]
    split
    · next done => exact ⟨u, used, done.symm.imp (by omega) id, rfl⟩
    · next going =>
      have bytes : (shakeStream m j).drop (5 * u) ++ shakeBlock (keccakF^[j] (shakeStart m)) = (shakeStream m (j + 1)).drop (5 * u) := by
        rw [shakeStream_succ, List.drop_append_of_le_length (by rw [shakeStream_length]; exact taken)]
        rfl
      have length : ((shakeStream m (j + 1)).drop (5 * u)).length = 136 * (j + 1) - 5 * u := by rw [List.length_drop, shakeStream_length]
      simp only [bytes, length]
      generalize hk : min ((136 * (j + 1) - 5 * u) / 5) (tries - u) = k
      have fits : 5 * k ≤ 136 * (j + 1) - 5 * u := by omega
      have next : ((shakeStream m (j + 1)).drop (5 * u)).take (5 * k) = ((shakeStream m (tries / 27 + 1)).drop (5 * u)).take (5 * k) := by
        obtain ⟨later, split⟩ := shakeStream_prefix m (show j + 1 ≤ tries / 27 + 1 by omega)
        rw [← split, List.drop_append_of_le_length (by rw [shakeStream_length]; omega), List.take_append_of_le_length (by rw [length]; exact fits)]
      rw [acceptGroups_next q next (by rw [length]; exact fits), List.drop_drop, ← Nat.mul_add, ← Function.iterate_succ_apply' keccakF, Nat.sub_sub]
      exact ih (j + 1) (u + k) (by omega) (by omega) (by omega) (by omega)

theorem tailDraw_take (q count tries : Nat) (m : List Byte) :
    (tailDraw q count (tries / 27 + 1) (shakeStart m) [] tries []).take count = (acceptedOf q m tries).take count := by
  obtain ⟨w, inside, enough, draw⟩ := tailDraw_eq q count tries m (tries / 27 + 1) 0 0 (Nat.zero_add _) (Nat.zero_le _) (Nat.le_refl _) (by omega)
  have all : tailDraw q count (tries / 27 + 1) (shakeStart m) [] tries [] = acceptedGroups q (shakeStream m (tries / 27 + 1)) w := draw
  rw [all, acceptedOf_eq]
  rcases enough with rfl | enough
  · rfl
  · obtain ⟨later, split⟩ := acceptedGroups_prefix q (shakeStream m (tries / 27 + 1)) inside
    rw [← split, List.take_append_of_le_length enough]

theorem tailExpand_eq (seed : List Byte) (entry c use q count tries : Nat) :
    let a := acceptedOf q (seed ++ [BitVec.ofNat 8 entry, BitVec.ofNat 8 c, BitVec.ofNat 8 use]) tries
    tailExpand seed entry c use q count tries = (a.take count ++ List.replicate (count - a.length) 0, decide (a.length < count)) := by
  intro a
  have filled : count - min count a.length = count - a.length := by omega
  have short : min count a.length < count ↔ a.length < count := by omega
  simp only [tailExpand, tailDraw_take, List.length_take]
  rw [filled, decide_eq_decide.2 short]

/- The rows of an expansion. -/

theorem lane_residueRow (vs : List Nat) (i : Nat) {k : Nat} (hk : k < 128) : (lane128 (residueRow vs i).data k).toNat = vs.getD (128 * i + k) 0 % 2 ^ 36 := by
  rw [residueRow, lane128_sectorOf _ hk, res, BitVec.toNat_ofNat]

/-- A row of an expansion: sector r of chunk c of the tail's values for its limb. -/
theorem mem_expansionRows (e : Expansion) (seed : List Byte) (device : Bool) {j entry q c r : Nat} (limb : e.entries[j]? = some (entry, q))
    (chunk : c < keyChunks e.hdr.logN.toNat) (sector : r < keyS e.hdr.logN.toNat) :
    (expansionRow e.hdr e.row j (keyS e.hdr.logN.toNat * c + r),
      residueRow (tailExpand seed entry c (if device then 2 else 1) q (128 * keyS e.hdr.logN.toNat)
        (if device then 3 * 128 * keyS e.hdr.logN.toNat else 64 * 128 * keyS e.hdr.logN.toNat)).1 r) ∈ (expansionRows e seed device).1 := by
  exact List.mem_flatMap.2 ⟨_, List.mem_flatMap.2 ⟨((entry, q), j), List.mk_mem_zipIdx_iff_getElem?.2 limb, List.mem_map_of_mem (List.mem_range.2 chunk)⟩,
    List.mem_map_of_mem (List.mem_range.2 sector)⟩

end Sys2Proof.Machine

/- The events of the Key Stream Units (08 R186 to R193): reads of a key's page, grants, a judged header, and what a fill and an expansion leave as they land. -/

namespace Sys2Proof.Machine

/- Key Stream Units. -/

@[simp] theorem Dev.ksu_setKsu (d : Dev) (die : DieId) (k : Ksu) : (d.setKsu die k).ksu die = k := by simp [Dev.ksu, Dev.setKsu]

@[simp] theorem Dev.setKsu_setKsu (d : Dev) (die : DieId) (k k' : Ksu) : (d.setKsu die k).setKsu die k' = d.setKsu die k' := by simp [Dev.setKsu]

/-- A unit with flags raised. -/
def Ksu.raised (k : Ksu) (late mismatch ueHeader ueData farFetch : Bool) : Ksu :=
  { k with late := k.late || late, mismatch := k.mismatch || mismatch, ueHeader := k.ueHeader || ueHeader, ueData := k.ueData || ueData
           farFetch := k.farFetch || farFetch }

/-- Flags raised change their unit, and the note of them. -/
theorem Dev.raiseKsu_frame (d : Dev) (die : DieId) (late mismatch ueHeader ueData farFetch : Bool) : ∃ fresh,
    d.raiseKsu die late mismatch ueHeader ueData farFetch =
      { d.setKsu die ((d.ksu die).raised late mismatch ueHeader ueData farFetch) with fresh := fresh } := ⟨_, rfl⟩

theorem Dev.raiseKsu_setKsu (d : Dev) (die : DieId) (k : Ksu) (late mismatch ueHeader ueData farFetch : Bool) : ∃ fresh,
    (d.setKsu die k).raiseKsu die late mismatch ueHeader ueData farFetch =
      { d.setKsu die (k.raised late mismatch ueHeader ueData farFetch) with fresh := fresh } := by
  obtain ⟨fresh, raised⟩ := Dev.raiseKsu_frame (d.setKsu die k) die late mismatch ueHeader ueData farFetch
  exact ⟨fresh, by rw [raised, Dev.setKsu_setKsu, Dev.ksu_setKsu]⟩

/- The keys of a device, which hold the units, are apart from its tiles and its memory. -/
@[simp] theorem Dev.ksu_setTile (d : Dev) (t : TileId) (x : Tile) (die : DieId) : (d.setTile t x).ksu die = d.ksu die := rfl
@[simp] theorem Dev.tile_setKsu (d : Dev) (t : TileId) (die : DieId) (k : Ksu) : (d.setKsu die k).tile t = d.tile t := rfl

@[simp] theorem Tile.ringAt_setRing (x : Tile) {n : Nat} (inside : n < 4) (r : Ring) : (x.setRing n r).ringAt n = r := by
  simp [Tile.ringAt, Tile.setRing, List.getD_eq_getElem?_getD, inside]

/- Reads of a page of a key. -/

theorem Dev.readFar_clean (d : Dev) (p : Nat) {o : Nat} (inside : o < 113) (up : d.mem.farLinkDown p = false) :
    d.readFar (113 * p + o) 0 false = (d, d.mem.peekFar (113 * p + o)) := by
  have page : (113 * p + o) / 113 = p := by omega
  have lines : ∀ x : BitVec 32, x ||| linePoison 0 = x := fun x => by rw [show linePoison 0 = 0#32 by decide, BitVec.or_zero]
  simp only [Dev.readFar, page, up, lines, Bool.or_self, Bool.false_eq_true, if_false]

theorem Mem.farLink_go_units {m n : Mem} (units : m.farUnits = n.farUnits) (p : Nat) (ks : List Nat) : Mem.farLink.go m p ks = Mem.farLink.go n p ks := by
  induction ks generalizing p with
  | nil => rfl
  | cons k ks ih => simp only [Mem.farLink.go, units, ih]

theorem Mem.farLinkDown_channels (m : Mem) (cs : Vector Channel 256) (p : Nat) : ({ m with channels := cs } : Mem).farLinkDown p = m.farLinkDown p := by
  simp only [Mem.farLinkDown, Mem.farLink]
  rw [Mem.farLink_go_units (m := { m with channels := cs }) (n := m) rfl]

/-- A read of a key on which nothing is found gives what the sector holds, and counts at a channel. -/
theorem Dev.readKey_clean (d : Dev) (e : KrtEntry) (i : Nat) {o : Nat} (inside : o < 113) (up : e.far = true → d.mem.farLinkDown (e.farPage i) = false) :
    ∃ cs, d.readKey e i o {} = ({ d with mem := { d.mem with channels := cs } }, d.mem.keyAt e i o) := by
  unfold Dev.readKey Mem.keyAt
  split
  · next far => exact ⟨d.mem.channels, Dev.readFar_clean d _ inside (up far)⟩
  · exact Dev.readNear_clean d _ o

theorem Dev.readKeys_clean (d : Dev) (e : KrtEntry) (i a n : Nat) (inside : a + n ≤ 113) (up : e.far = true → d.mem.farLinkDown (e.farPage i) = false) :
    ∃ cs, d.readKeys e i {} a n = ({ d with mem := { d.mem with channels := cs } }, (List.range n).map (fun o => d.mem.keyAt e i (a + o))) := by
  induction n with
  | zero => exact ⟨d.mem.channels, rfl⟩
  | succ n ih =>
    obtain ⟨cs, before⟩ := ih (by omega)
    obtain ⟨cs', last⟩ := Dev.readKey_clean { d with mem := { d.mem with channels := cs } } e i (show a + n < 113 by omega)
      ((Mem.farLinkDown_channels d.mem cs _).trans ∘ up)
    refine ⟨cs', ?_⟩
    rw [Dev.readKeys] at before ⊢
    rw [List.range_succ, List.foldl_append, before, List.map_append]
    simp only [List.foldl_cons, List.foldl_nil, last, List.map_cons, List.map_nil]
    rfl

section Grants

variable {d : Dev} {die : DieId}

/-- What a unit starts. -/
def Dev.startGrant (d : Dev) (die : DieId) : Grant → Dev
  | .ring t n => d.startFill die t n
  | .expansion t i => d.startExpansion t i

/-- With room and its fetches issued, a unit of a running device starts what has the least slack. -/
theorem Dev.ksuGrant_least (running : d.running = true) (room : (d.ksu die).fills.length < 16) (free : (d.ksu die).freeAt ≤ d.tick.wall) {x : Grant} {slack : Int}
    (least : leastSlack (d.requesters die) = some (x, slack)) :
    d.ksuGrant die = d.startGrant die x := by
  unfold Dev.ksuGrant
  rw [if_neg (by simp [running, room, free]), least]
  cases x <;> rfl

/-- The fill that a grant starts. -/
def Dev.nextFill (d : Dev) (t : TileId) (n : Nat) (e : KrtEntry) (b : BoundSet) : Fill :=
  let r := (d.tile t).ringAt n
  { tile := t, ring := BitVec.ofNat 2 n, index := r.fill, key := e, page := runPosition b (r.pageOf r.fill).1 * max r.chunks 1 + (r.pageOf r.fill).2
    prime := match b.table.entry? (r.pageOf r.fill).1 with | some x => x.q | none => 1, deadline := r.deadline r.fill }

/-- A fill starts: the ring's slot is FILLING, and the unit takes the fill. -/
theorem Dev.startFill_eq (d : Dev) (die : DieId) (t : TileId) (n : Nat) {e : KrtEntry} {b : BoundSet}
    (located : d.keys.locate ((d.tile t).ringAt n).srcKeyset ((d.tile t).ringAt n).src = some e) (bound : d.keys.set? ((d.tile t).ringAt n).srcKeyset = some b) :
    let r := (d.tile t).ringAt n
    ∃ fresh, d.startFill die t n =
      { (d.setTile t ((d.tile t).setRing n { r with slots := r.slots.set (r.fill % max r.slots.length 1) .filling, fill := r.fill + 1 })).setKsu die
          (Ksu.raised { d.ksu die with fills := (d.ksu die).fills ++ [d.nextFill t n e b], freeAt := d.tick.wall + (r.s + 5) / 5 }
            false false false false e.far) with fresh := fresh } := by
  intro r
  simp only [Dev.startFill, located, bound]
  rw [Dev.onTile_kept d t _ rfl rfl rfl]
  exact Dev.raiseKsu_setKsu _ die _ false false false false e.far

/-- An expansion starts: its rows are those of the seed. -/
theorem Dev.startExpansion_eq (d : Dev) {t : TileId} {i : Nat} {e : Expansion} (found : (d.tile t).expands[i]? = some e) :
    let starts := fun (seed : List Byte) (device : Bool) => { d.tile t with expands := (d.tile t).expands.set i { e with
      started := some d.tick.wall, rows := (expansionRows e seed device).1, short := (expansionRows e seed device).2 } }
    (e.hdr.seed ≠ BitVec.allOnes 256 → d.startExpansion t i = d.setTile t (starts (leBytes 32 e.hdr.seed.toNat) false)) ∧
    (e.hdr.seed = BitVec.allOnes 256 → d.sec.drbg = 2 → d.startExpansion t i = d) ∧
    (e.hdr.seed = BitVec.allOnes 256 → d.sec.drbg ≠ 2 →
      d.startExpansion t i = ({ d with sec := d.sec.drew }).setTile t (starts (leBytes 32 (d.random 256)) true)) := by
  intro starts
  refine ⟨fun given => ?_, fun device failed => ?_, fun device healthy => ?_⟩
  · simp only [Dev.startExpansion, found, beq_eq_false_iff_ne.2 given, Bool.false_and, Bool.false_eq_true, if_false]
    exact Dev.onTile_kept d t _ rfl rfl rfl
  · simp only [Dev.startExpansion, found, device, failed, beq_self_eq_true, Bool.and_self, if_true]
  · simp only [Dev.startExpansion, found, device, beq_eq_false_iff_ne.2 healthy, beq_self_eq_true, Bool.and_false, Bool.false_eq_true, if_false, if_true]
    exact Dev.onTile_kept { d with sec := d.sec.drew } t _ rfl rfl rfl

theorem Sec.drew_draws (x : Sec) : x.drew.draws = x.draws + 1 := by
  unfold Sec.drew
  dsimp only
  split <;> rfl

end Grants

end Sys2Proof.Machine

/- A judged header, and the rows of a fill and of an expansion that land (08 R186, R190, R191, R178). -/

namespace Sys2Proof.Machine

section Landing

variable {d : Dev} {f : Fill}

/- A judged header. -/

theorem Dev.noteHalt_keys (d : Dev) (t : TileId) : (d.noteHalt t).keys = d.keys := by
  unfold Dev.noteHalt
  rw [Dev.event_frame]
  dsimp only
  split <;> rfl

theorem Dev.judgeHeader_passes (only : (d.ksu (dieOf f.tile)).fills = [f]) {x : Sector} (clean : x.poison = 0)
    (named : headerMatches ((d.tile f.tile).ringAt f.ring.toNat) f x.data.toNat = true) :
    d.judgeHeader f x = d.setKsu (dieOf f.tile) { d.ksu (dieOf f.tile) with fills := [{ f with head := x, checked := some d.tick.wall }] } := by
  simp only [Dev.judgeHeader, clean, named, only, bne_self_eq_false, Bool.not_false, Bool.and_self, if_true, List.map_cons, List.map_nil]

/-- A halt raised outside issue stops a going tile, and leaves the keys. -/
theorem Dev.haltTile_going (d : Dev) {t : TileId} (going : (d.tile t).halted = false) (reason : HaltReason) (bundle : BitVec 14) :
    (∃ n sent, (d.haltTile t reason bundle).tile t =
      { (d.tile t).record (d.schedOf t) { reason := reason, bundle := bundle, async := true, rank := 3 } with haltSeq := n, sent := sent }) ∧
    (d.haltTile t reason bundle).keys = d.keys := by
  have halts := Tile.halt_going (d.tile t) (d.schedOf t) { reason := reason, bundle := bundle, async := true, rank := 3 } going
  constructor
  · obtain ⟨n, halted⟩ := Dev.tile_onTile_halts d t (fun x => x.halt (d.schedOf t) { reason := reason, bundle := bundle, async := true, rank := 3 }) going
      (by rw [halts]; rfl)
    exact ⟨n, _, halted.trans (by rw [halts])⟩
  · rw [Dev.haltTile, Dev.onTile_halts d t _ going (by rw [halts]; rfl), Dev.noteHalt_keys, Dev.setTile_keys]

/-- A header that does not pass ends the fill and raises its unit's flags, and the tile of an armed ring halts. -/
theorem Dev.judgeHeader_fails (only : (d.ksu (dieOf f.tile)).fills = [f]) (unjudged : f.checked = none) {x : Sector}
    (bad : x.poison ≠ 0 ∨ headerMatches ((d.tile f.tile).ringAt f.ring.toNat) f x.data.toNat = false)
    (armed : ((d.tile f.tile).ringAt f.ring.toNat).armed = true) :
    ∃ fresh, d.judgeHeader f x = Dev.haltTile
      (({ d.setKsu (dieOf f.tile) (Ksu.raised { d.ksu (dieOf f.tile) with fills := [] } false true (x.poison != 0) false false) with fresh := fresh } : Dev).setTile
        f.tile ((d.tile f.tile).setRing f.ring.toNat { (d.tile f.tile).ringAt f.ring.toNat with armed := false }))
      f.tile (if x.poison != 0 then .uncorrectable else .keyMismatch) ((d.tile f.tile).ringAt f.ring.toNat).armBundle := by
  have fails : (!(x.poison != 0) && headerMatches ((d.tile f.tile).ringAt f.ring.toNat) f x.data.toNat) = false := by
    rcases bad with poisoned | other
    · rw [bne_iff_ne.2 poisoned]; rfl
    · rw [other, Bool.and_false]
  have dropped : ([f].filter fun g => !(g.tile == f.tile && g.ring == f.ring && g.checked.isNone)) = [] := by simp [unjudged]
  obtain ⟨fresh, raised⟩ := Dev.raiseKsu_setKsu d (dieOf f.tile) { d.ksu (dieOf f.tile) with fills := [] } false true (x.poison != 0) false false
  refine ⟨fresh, ?_⟩
  simp only [Dev.judgeHeader, fails, Bool.false_eq_true, if_false, only, dropped, armed, if_true, raised]
  rw [Dev.onTile_kept _ f.tile _ rfl rfl rfl]
  rfl

/-- What a header that does not pass leaves of a tile that was going, and of its unit. -/
theorem Dev.judgeHeader_halts (only : (d.ksu (dieOf f.tile)).fills = [f]) (unjudged : f.checked = none) {x : Sector}
    (bad : x.poison ≠ 0 ∨ headerMatches ((d.tile f.tile).ringAt f.ring.toNat) f x.data.toNat = false)
    (armed : ((d.tile f.tile).ringAt f.ring.toNat).armed = true) (going : (d.tile f.tile).halted = false) :
    let y := (d.judgeHeader f x).tile f.tile
    let k := (d.judgeHeader f x).ksu (dieOf f.tile)
    y.halted = true ∧ y.haltReason = (if x.poison = 0 then .keyMismatch else .uncorrectable) ∧
    y.haltAddr = ((d.tile f.tile).ringAt f.ring.toNat).armBundle ∧ k.fills = [] ∧ k.mismatch = true ∧ (x.poison ≠ 0 → k.ueHeader = true) ∧
    y.scratch = (d.tile f.tile).scratch ∧ y.arrival = (d.tile f.tile).arrival := by
  intro y k
  obtain ⟨fresh, fails⟩ := Dev.judgeHeader_fails only unjudged bad armed
  generalize disarmed : Dev.setTile _ f.tile _ = e at fails
  have tile : e.tile f.tile = (d.tile f.tile).setRing f.ring.toNat { (d.tile f.tile).ringAt f.ring.toNat with armed := false } := by
    rw [← disarmed, Dev.tile_setTile]
  have unit : e.ksu (dieOf f.tile) = Ksu.raised { d.ksu (dieOf f.tile) with fills := [] } false true (x.poison != 0) false false := by
    rw [← disarmed]
    exact Dev.ksu_setKsu ..
  obtain ⟨⟨n, sent, halts⟩, keys⟩ := Dev.haltTile_going e (t := f.tile) (by rw [tile]; exact going) (if x.poison != 0 then .uncorrectable else .keyMismatch)
    ((d.tile f.tile).ringAt f.ring.toNat).armBundle
  have hy : y = _ := (congrArg (·.tile f.tile) fails).trans halts
  have hk : k = Ksu.raised { d.ksu (dieOf f.tile) with fills := [] } false true (x.poison != 0) false false :=
    (congrArg (·.ksu (dieOf f.tile)) fails).trans ((congrArg (fun z : Keys => z.ksus[(dieOf f.tile).toNat]) keys).trans unit)
  rw [tile] at hy
  refine ⟨by rw [hy]; rfl, ?_, by rw [hy]; rfl, by rw [hk]; rfl, ?_, fun poisoned => ?_, by rw [hy]; rfl, by rw [hy]; rfl⟩
  · have reason : y.haltReason = if x.poison != 0 then .uncorrectable else .keyMismatch := by rw [hy]; rfl
    rw [reason]
    by_cases clean : x.poison = 0 <;> simp [clean]
  · rw [hk]
    exact Bool.or_true _
  · rw [hk, bne_iff_ne.2 poisoned]
    exact Bool.or_true _

/- Rows that land. -/

theorem Tile.landRows_row {x : Tile} (wf : x.wf = true) (wall : Nat) (rows : List Nat) {rs : List (Nat × Row)} (once : (rs.map (·.1)).Nodup) :
    (∀ p ∈ rs, ((x.takeSlots wall rows).portWrite rs).rowAt p.1 = p.2) ∧
    ∀ r, r ∉ rs.map (·.1) → ((x.takeSlots wall rows).portWrite rs).rowAt r = x.rowAt r := by
  have same : (x.takeSlots wall rows).wf = true := by rw [Tile.wf, Tile.takeSlots_scratch]; exact wf
  refine ⟨fun p mem => Tile.rowAt_portWrite same once mem, fun r other => (Tile.rowAt_portWrite_other same _ other).trans ?_⟩
  unfold Tile.rowAt
  rw [Tile.takeSlots_scratch]

theorem fillRows_keys (r : Ring) (f : Fill) {bs : List Sector} (all : bs.length = r.s) : (fillRows r f bs).map (·.1) = r.fillPlaces f := by
  refine List.map_fst_zip ?_
  simp only [Ring.fillPlaces, rowsFrom, List.length_cons, List.length_append, List.length_map, List.length_range, all]
  omega

theorem fillPlaces_nodup (r : Ring) (f : Fill) : (r.fillPlaces f).Nodup := by
  refine List.nodup_cons.2 ⟨fun mem => ?_, rowsFrom_nodup _ _⟩
  obtain ⟨i, -, same⟩ := List.mem_map.1 mem
  omega

theorem mem_fillRows_head (r : Ring) (f : Fill) (bs : List Sector) :
    (r.base + f.index % max r.slots.length 1 * r.slotRows, ({ data := f.head.data, poison := spreadPoison f.head.poison } : Row)) ∈ fillRows r f bs :=
  List.mem_cons_self

theorem mem_fillRows_body (r : Ring) (f : Fill) {bs : List Sector} {o : Nat} {x : Sector} (inside : o < r.s) (at_ : bs[o]? = some x) :
    (r.base + f.index % max r.slots.length 1 * r.slotRows + 8 + o, ({ data := x.data, poison := spreadPoison x.poison } : Row)) ∈ fillRows r f bs := by
  have room : o < bs.length := (List.getElem?_eq_some_iff.1 at_).1
  refine List.mem_cons_of_mem _ (List.mem_of_getElem? (i := o) (List.getElem?_zip_eq_some.2 ⟨?_, ?_⟩))
  · rw [rowsFrom, List.getElem?_map, List.getElem?_range (by omega)]
    rfl
  · rw [List.getElem?_append_left (by rw [List.length_map]; exact room), List.getElem?_map, at_]
    rfl

/-- The tile of an armed ring after the fill's rows have landed. -/
def Tile.filled (x : Tile) (wall : Nat) (rows : List Nat) (f : Fill) (bs : List Sector) : Tile :=
  let r := x.ringAt f.ring.toNat
  ((((x.takeSlots wall rows).portWrite (fillRows r f bs)).setRing f.ring.toNat
    { r with slots := r.slots.set (f.index % max r.slots.length 1) .full, done := r.done + 1 })).arrive wall r.counter

@[simp] theorem Tile.setRing_halted (x : Tile) (n : Nat) (r : Ring) : (x.setRing n r).halted = x.halted := rfl
@[simp] theorem Tile.setRing_haltRank (x : Tile) (n : Nat) (r : Ring) : (x.setRing n r).haltRank = x.haltRank := rfl
@[simp] theorem Tile.setRing_haltIssue (x : Tile) (n : Nat) (r : Ring) : (x.setRing n r).haltIssue = x.haltIssue := rfl
@[simp] theorem Tile.setRing_arriving (x : Tile) (n : Nat) (r : Ring) : (x.setRing n r).arriving = x.arriving := rfl
@[simp] theorem Tile.rowAt_setRing (x : Tile) (n : Nat) (r : Ring) (k : Nat) : (x.setRing n r).rowAt k = x.rowAt k := rfl
@[simp] theorem Tile.arrive_halted (x : Tile) (wall : Nat) (c : BitVec 6) : (x.arrive wall c).halted = x.halted := rfl
@[simp] theorem Tile.arrive_arriving (x : Tile) (wall : Nat) (c : BitVec 6) : (x.arrive wall c).arriving = x.arriving ++ [(wall, c)] := rfl
@[simp] theorem Tile.ringAt_arrive (x : Tile) (wall : Nat) (c : BitVec 6) (n : Nat) : (x.arrive wall c).ringAt n = x.ringAt n := rfl
@[simp] theorem Tile.rowAt_arrive (x : Tile) (wall : Nat) (c : BitVec 6) (k : Nat) : (x.arrive wall c).rowAt k = x.rowAt k := rfl

theorem Tile.filled_facts (x : Tile) (wall : Nat) (rows : List Nat) (f : Fill) (bs : List Sector) : let y := x.filled wall rows f bs
    let r := x.ringAt f.ring.toNat
    y.ringAt f.ring.toNat = { r with slots := r.slots.set (f.index % max r.slots.length 1) .full, done := r.done + 1 } ∧
    y.arriving = x.arriving ++ [(wall, r.counter)] ∧ y.halted = x.halted ∧
    ∀ o, y.rowAt o = ((x.takeSlots wall rows).portWrite (fillRows r f bs)).rowAt o := by
  intro y r
  obtain ⟨halted, -, -, -, arriving⟩ := Tile.landRows_keeps x wall rows (fillRows r f bs)
  simp only [y, Tile.filled, Tile.ringAt_arrive, Tile.ringAt_setRing _ f.ring.isLt, Tile.arrive_arriving, Tile.setRing_arriving, Tile.arrive_halted,
    Tile.setRing_halted, Tile.rowAt_arrive, Tile.rowAt_setRing, halted, arriving, r, and_self, implies_true]

/-- Rows that land, the ring's slot and the arrival change the tile alone, beside the run's list of arrivals. -/
theorem Dev.landRows_eq (d : Dev) (t : TileId) (wall : Nat) (rows : List Nat) (rs : List (Nat × Row)) (n : Nat) (r : Ring) (c : BitVec 6) :
    ∃ run, ((d.onTile t (fun y => (y.takeSlots wall rows).portWrite rs)).onTile t (fun y => y.setRing n r)).arriveAt t c none =
      ({ d with run := run } : Dev).setTile t (((((d.tile t).takeSlots wall rows).portWrite rs).setRing n r).arrive d.tick.wall c) := by
  obtain ⟨halted, rank, issue, -, -⟩ := Tile.landRows_keeps (d.tile t) wall rows rs
  rw [Dev.onTile_kept d t _ halted rank issue, Dev.onTile_kept _ t _ rfl rfl rfl, Dev.tile_setTile, Dev.setTile_setTile]
  obtain ⟨run, arrived⟩ := Dev.arriveAt_eq (d.setTile t ((((d.tile t).takeSlots wall rows).portWrite rs).setRing n r)) t c none
  rw [Dev.tile_setTile] at arrived
  exact ⟨run, arrived.trans (by simp only [Dev.setTile, Vector.set_set])⟩

/-- A fill of an armed ring lands with the sectors read: beside its tile, the unit has one fill less. -/
theorem Dev.landFill_read (d : Dev) (f : Fill) {e : Dev} {bs : List Sector} (unread : f.body = none)
    (reads : d.readKeys f.key f.page {} 1 ((d.tile f.tile).ringAt f.ring.toNat).s = (e, bs)) (tile : e.tile f.tile = d.tile f.tile)
    (armed : ((d.tile f.tile).ringAt f.ring.toNat).armed = true) :
    ∃ k run fresh, k.fills = (e.ksu (dieOf f.tile)).fills.erase f ∧ d.landFill f {} = ({ e.setKsu (dieOf f.tile) k with run := run, fresh := fresh } : Dev).setTile
      f.tile ((d.tile f.tile).filled e.tick.wall (((fillRows ((d.tile f.tile).ringAt f.ring.toNat) f bs).map (·.1)).drop f.landed) f bs) := by
  simp only [Dev.landFill, unread, reads]
  generalize less : Ksu.mk .. = k
  have fills : k.fills = (e.ksu (dieOf f.tile)).fills.erase f := by rw [← less]
  obtain ⟨fresh, raised⟩ := Dev.raiseKsu_setKsu e (dieOf f.tile) k (decide (f.deadline < e.schedOf f.tile)) false false (bs.any fun s => s.poison != 0) false
  rw [raised, if_pos armed]
  generalize noted : Ksu.raised k _ _ _ _ _ = k'
  have fills' : k'.fills = (e.ksu (dieOf f.tile)).fills.erase f := by rw [← noted, ← fills]; rfl
  obtain ⟨run, lands⟩ := Dev.landRows_eq { e.setKsu (dieOf f.tile) k' with fresh := fresh } f.tile e.tick.wall
    (((fillRows ((d.tile f.tile).ringAt f.ring.toNat) f bs).map (·.1)).drop f.landed)
    (fillRows ((d.tile f.tile).ringAt f.ring.toNat) f bs) f.ring.toNat
    { (d.tile f.tile).ringAt f.ring.toNat with
      slots := ((d.tile f.tile).ringAt f.ring.toNat).slots.set (f.index % max ((d.tile f.tile).ringAt f.ring.toNat).slots.length 1) .full
      done := ((d.tile f.tile).ringAt f.ring.toNat).done + 1 } ((d.tile f.tile).ringAt f.ring.toNat).counter
  have same : ({ e.setKsu (dieOf f.tile) k' with fresh := fresh } : Dev).tile f.tile = d.tile f.tile := tile
  rw [same] at lands
  exact ⟨k', run, fresh, fills', lands⟩

theorem Dev.tile_withMem (d : Dev) (m : Mem) (t : TileId) : ({ d with mem := m } : Dev).tile t = d.tile t := rfl
theorem Dev.ksu_withMem (d : Dev) (m : Mem) (die : DieId) : ({ d with mem := m } : Dev).ksu die = d.ksu die := rfl

/-- A tile as what is left of an expansion has landed. -/
def Tile.expanded (x : Tile) (wall : Nat) (e : Expansion) : Tile :=
  ({ (x.takeSlots wall ((e.rows.drop e.landed).map (·.1))).portWrite (e.rows.drop e.landed) with expands := x.expands.erase e } : Tile).arrive wall e.counter

/-- What is left of an expansion lands, and it leaves its tile's list. -/
theorem Dev.landExpansion_eq (d : Dev) (t : TileId) (e : Expansion) : ∃ (run : Run) (keys : Keys) (fresh : List (Nat × Nat × Word)),
    (e.short = false → keys = d.keys) ∧ (e.short = true → keys.ksus[(dieOf t).toNat].late = true) ∧
    d.landExpansion t e = ({ d with run := run, keys := keys, fresh := fresh } : Dev).setTile t ((d.tile t).expanded d.tick.wall e) := by
  obtain ⟨keys, fresh, whole, late, noted⟩ : ∃ (keys : Keys) (fresh : List (Nat × Nat × Word)), (e.short = false → keys = d.keys) ∧
      (e.short = true → keys.ksus[(dieOf t).toNat].late = true) ∧
      (if e.short then d.raiseKsu (dieOf t) true false false false false else d) = { d with keys := keys, fresh := fresh } := by
    cases short : e.short with
    | false => exact ⟨d.keys, d.fresh, fun _ => rfl, nofun, rfl⟩
    | true =>
      obtain ⟨fresh, raised⟩ := Dev.raiseKsu_frame d (dieOf t) true false false false false
      refine ⟨_, fresh, nofun, fun _ => ?_, raised⟩
      simp [Dev.setKsu, Ksu.raised]
  obtain ⟨halted, rank, issue, -, -⟩ := Tile.landRows_keeps (d.tile t) d.tick.wall ((e.rows.drop e.landed).map (·.1)) (e.rows.drop e.landed)
  simp only [Dev.landExpansion, noted]
  rw [Dev.onTile_kept _ t _ halted rank issue]
  obtain ⟨run, arrived⟩ := Dev.arriveAt_eq (({ d with keys := keys, fresh := fresh } : Dev).setTile t
    { ((d.tile t).takeSlots d.tick.wall ((e.rows.drop e.landed).map (·.1))).portWrite (e.rows.drop e.landed) with
      expands := (d.tile t).expands.erase e }) t e.counter none
  rw [Dev.tile_setTile] at arrived
  refine ⟨run, keys, fresh, whole, late, arrived.trans ?_⟩
  simp only [Dev.setTile, Vector.set_set]
  rfl

theorem Tile.expanded_frame (x : Tile) (wall : Nat) (e : Expansion) : ∃ scratch ceRows reads slotWall slotReads slotWrites before,
    x.expanded wall e = { x with
      scratch := scratch, ceRows := ceRows, reads := reads, slotWall := slotWall, slotReads := slotReads, slotWrites := slotWrites, before := before
      expands := x.expands.erase e, arriving := x.arriving ++ [(wall, e.counter)] } := by
  obtain ⟨scratch, ceRows, reads, slotWall, slotReads, slotWrites, before, frame⟩ :=
    Tile.landRows_frame x wall ((e.rows.drop e.landed).map (·.1)) (e.rows.drop e.landed)
  refine ⟨scratch, ceRows, reads, slotWall, slotReads, slotWrites, before, ?_⟩
  rw [Tile.expanded, frame]
  rfl

theorem Tile.rowAt_expanded (x : Tile) (wall : Nat) (e : Expansion) (k : Nat) :
    (x.expanded wall e).rowAt k = ((x.takeSlots wall ((e.rows.drop e.landed).map (·.1))).portWrite (e.rows.drop e.landed)).rowAt k := rfl

end Landing

end Sys2Proof.Machine

/- What the events of the Key Stream Units answer with (08 R186 to R193). -/

namespace Sys2Proof.Machine

section Events

variable {s : State} {t : TileId}

theorem exec_ksuGrant (die : DieId) : exec (.ksuGrant die) s = s.act (fun d => d.ksuGrant die) := rfl
theorem exec_ksuPageHeaderArrival (n : BitVec 2) (seen : PageFindings) :
    exec (.ksuPageHeaderArrival t n seen) s = s.act (fun d => d.pageHeader t n seen) := rfl
theorem exec_slotFillComplete (f : RingFill) : exec (.slotFillComplete t f) s = s.act (fun d => d.fillComplete t f.ring f.seen) := rfl
theorem exec_expandComplete : exec (.expandComplete t) s = s.act (fun d => d.expandComplete t) := rfl

/- Grants. -/

theorem State.ksuGrant_answers {die : DieId} (running : s.dev.running = true) (room : (s.dev.ksu die).fills.length < 16)
    (free : (s.dev.ksu die).freeAt ≤ s.dev.tick.wall) {x : Grant} {slack : Int} (least : leastSlack (s.dev.requesters die) = some (x, slack)) :
    s.answers (.ksuGrant die) (s.dev.startGrant die x) :=
  State.answers_of_act (exec_ksuGrant die) (Dev.ksuGrant_least running room free least)

/-- What a started fill leaves of its tile, its unit and the rest. -/
theorem Dev.startFill_facts (d : Dev) (die : DieId) (t : TileId) {n : Nat} (inside : n < 4) {e : KrtEntry} {b : BoundSet}
    (located : d.keys.locate ((d.tile t).ringAt n).srcKeyset ((d.tile t).ringAt n).src = some e) (bound : d.keys.set? ((d.tile t).ringAt n).srcKeyset = some b) :
    let r := (d.tile t).ringAt n
    let d' := d.startFill die t n
    (d'.tile t).ringAt n = { r with fill := r.fill + 1, slots := r.slots.set (r.fill % max r.slots.length 1) .filling } ∧
    (d'.ksu die).fills = (d.ksu die).fills ++ [d.nextFill t n e b] ∧ (d'.ksu die).freeAt = d.tick.wall + (r.s + 5) / 5 ∧ d'.mem = d.mem ∧
    ∀ u, u ≠ t → d'.tile u = d.tile u := by
  intro r d'
  obtain ⟨fresh, started⟩ := Dev.startFill_eq d die t n located bound
  rw [show d' = _ from started]
  refine ⟨?_, ?_, ?_, rfl, fun u other => Dev.tile_setTile_other d _ other.symm⟩
  · exact (congrArg (Tile.ringAt · n) (Dev.tile_setTile d t _)).trans (Tile.ringAt_setRing _ inside _)
  · exact congrArg Ksu.fills (Dev.ksu_setKsu ..)
  · exact congrArg Ksu.freeAt (Dev.ksu_setKsu ..)

/-- The rows of a slot that a fill has filled: the header's data and the b half. -/
theorem Tile.filled_rows {x : Tile} (wf : x.wf = true) (wall : Nat) (rows : List Nat) (f : Fill) {bs : List Sector}
    (all : bs.length = (x.ringAt f.ring.toNat).s) : let r := x.ringAt f.ring.toNat
    let base := r.base + (f.index % max r.slots.length 1) * r.slotRows
    let y := x.filled wall rows f bs
    (y.rowAt base).data = f.head.data ∧
    ∀ o b, o < r.s → bs[o]? = some b → y.rowAt (base + 8 + o) = { data := b.data, poison := spreadPoison b.poison } := by
  intro r base y
  obtain ⟨-, -, -, same⟩ := Tile.filled_facts x wall rows f bs
  have once : ((fillRows r f bs).map (·.1)).Nodup := by
    rw [fillRows_keys r f all]
    exact fillPlaces_nodup r f
  obtain ⟨written, -⟩ := Tile.landRows_row wf wall rows once
  refine ⟨?_, fun o b inside at_ => ?_⟩
  · rw [same]
    exact congrArg Row.data (written _ (mem_fillRows_head r f bs))
  · rw [same]
    exact written _ (mem_fillRows_body r f inside at_)

/- The header of the only fill. -/

section Header

variable {f : Fill} (only : (s.dev.ksu (dieOf f.tile)).fills = [f]) (turn : ∀ body, s.dev.mustWait s.dev.held (f.access body {}) = false)
  (up : f.key.far = true → s.dev.mem.farLinkDown (f.key.farPage f.page) = false)
include only turn up

/-- The header's read is judged: its channel counts it, and it gives what the sector holds. -/
theorem State.pageHeader_answers (unjudged : f.checked = none) : ∃ cs, s.answers (.ksuPageHeaderArrival f.tile f.ring {})
    (({ s.dev with mem := { s.dev.mem with channels := cs } } : Dev).judgeHeader f (s.dev.mem.keyAt f.key f.page 0)) := by
  have found : s.dev.unchecked f.tile f.ring = some f := by simp [Dev.unchecked, only, unjudged]
  obtain ⟨cs, read⟩ := Dev.readKey_clean s.dev f.key f.page (o := 0) (by decide) up
  refine ⟨cs, State.answers_of_act (exec_ksuPageHeaderArrival f.ring {}) ?_⟩
  simp only [Dev.pageHeader, found, turn, Bool.false_eq_true, if_false, Dev.headServe, read]

theorem State.pageHeader_passes (unjudged : f.checked = none) (clean : (s.dev.mem.keyAt f.key f.page 0).poison = 0)
    (named : headerMatches ((s.dev.tile f.tile).ringAt f.ring.toNat) f (s.dev.mem.keyAt f.key f.page 0).data.toNat = true) :
    ∃ m, s.answers (.ksuPageHeaderArrival f.tile f.ring {}) (({ s.dev with mem := m } : Dev).setKsu (dieOf f.tile) { s.dev.ksu (dieOf f.tile) with
      fills := [{ f with head := s.dev.mem.keyAt f.key f.page 0, checked := some s.dev.tick.wall }] }) ∧ m = { s.dev.mem with channels := m.channels } := by
  obtain ⟨cs, answers⟩ := State.pageHeader_answers only turn up unjudged
  have passes := Dev.judgeHeader_passes (d := { s.dev with mem := { s.dev.mem with channels := cs } }) only clean named
  rw [passes] at answers
  exact ⟨_, answers, rfl⟩

theorem State.pageHeader_halts (unjudged : f.checked = none) (armed : ((s.dev.tile f.tile).ringAt f.ring.toNat).armed = true)
    (bad : (s.dev.mem.keyAt f.key f.page 0).poison ≠ 0 ∨
      headerMatches ((s.dev.tile f.tile).ringAt f.ring.toNat) f (s.dev.mem.keyAt f.key f.page 0).data.toNat = false)
    (going : (s.dev.tile f.tile).halted = false) :
    ∃ d : Dev, s.answers (.ksuPageHeaderArrival f.tile f.ring {}) d ∧ (d.tile f.tile).halted = true ∧
      (d.tile f.tile).haltReason = (if (s.dev.mem.keyAt f.key f.page 0).poison = 0 then .keyMismatch else .uncorrectable) ∧
      (d.tile f.tile).haltAddr = ((s.dev.tile f.tile).ringAt f.ring.toNat).armBundle ∧ (d.ksu (dieOf f.tile)).fills = [] ∧
      (d.ksu (dieOf f.tile)).mismatch = true ∧ ((s.dev.mem.keyAt f.key f.page 0).poison ≠ 0 → (d.ksu (dieOf f.tile)).ueHeader = true) ∧
      (d.tile f.tile).scratch = (s.dev.tile f.tile).scratch ∧ (d.tile f.tile).arrival = (s.dev.tile f.tile).arrival := by
  obtain ⟨cs, answers⟩ := State.pageHeader_answers only turn up unjudged
  exact ⟨_, answers, Dev.judgeHeader_halts (d := { s.dev with mem := { s.dev.mem with channels := cs } }) only unjudged bad armed going⟩

omit up in
theorem State.fillComplete_answers {v : Nat} (passed : f.checked = some v)
    (completes : s.dev.completes ⟨f.tile, v, (((s.dev.tile f.tile).ringAt f.ring.toNat).fillPlaces f).drop f.landed⟩ = true) :
    s.answers (.slotFillComplete f.tile { ring := f.ring }) (s.dev.landFill f {}) := by
  have oldest : s.dev.oldestFill f.tile f.ring = some f := by simp [Dev.oldestFill, only]
  have transfer : s.dev.fillTransfer f.tile f.ring = some ⟨f.tile, v, (((s.dev.tile f.tile).ringAt f.ring.toNat).fillPlaces f).drop f.landed⟩ := by
    have listed : s.dev.keys.ksus[(dieOf f.tile).toNat].fills = [f] := only
    simp [Dev.fillTransfer, listed, passed, Tile.ringAt]
  refine State.answers_of_act (exec_slotFillComplete { ring := f.ring }) ?_
  simp only [Dev.fillComplete, oldest, transfer, turn, completes, Bool.and_false, Bool.false_eq_true, if_false, if_true]

/-- What a fill leaves as it lands: the slot FULL, an arrival, and the header and the b half in the slot's rows. -/
theorem State.fillComplete_lands (armed : ((s.dev.tile f.tile).ringAt f.ring.toNat).armed = true) (unread : f.body = none) {v : Nat} (passed : f.checked = some v)
    (completes : s.dev.completes ⟨f.tile, v, (((s.dev.tile f.tile).ringAt f.ring.toNat).fillPlaces f).drop f.landed⟩ = true)
    (short : ((s.dev.tile f.tile).ringAt f.ring.toNat).s ≤ 64) : let r := (s.dev.tile f.tile).ringAt f.ring.toNat
    ∃ d : Dev, s.answers (.slotFillComplete f.tile { ring := f.ring }) d ∧ (d.ksu (dieOf f.tile)).fills = [] ∧
      (d.tile f.tile).ringAt f.ring.toNat = { r with done := r.done + 1, slots := r.slots.set (f.index % max r.slots.length 1) .full } ∧
      (d.tile f.tile).arriving = (s.dev.tile f.tile).arriving ++ [(s.dev.tick.wall, r.counter)] ∧ (d.tile f.tile).halted = (s.dev.tile f.tile).halted ∧
      d.mem = { s.dev.mem with channels := d.mem.channels } ∧ (∀ u, u ≠ f.tile → d.tile u = s.dev.tile u) ∧
      (let base := r.base + (f.index % max r.slots.length 1) * r.slotRows
       (s.dev.tile f.tile).wf = true → ((d.tile f.tile).rowAt base).data = f.head.data ∧ ∀ o, o < r.s →
         (d.tile f.tile).rowAt (base + 8 + o) = { data := (s.dev.mem.keyAt f.key f.page (o + 1)).data
                                                  poison := spreadPoison (s.dev.mem.keyAt f.key f.page (o + 1)).poison }) := by
  intro r
  have answers := State.fillComplete_answers only turn passed completes
  obtain ⟨cs, reads⟩ := Dev.readKeys_clean s.dev f.key f.page 1 r.s (show 1 + r.s ≤ 113 from Nat.le_trans (Nat.add_le_add_left short 1) (by decide)) up
  generalize sectors : (List.range r.s).map (fun o => s.dev.mem.keyAt f.key f.page (1 + o)) = bs at reads
  generalize after : ({ s.dev with mem := { s.dev.mem with channels := cs } } : Dev) = e at reads
  have tiles : ∀ u, e.tile u = s.dev.tile u := fun u => by rw [← after]; rfl
  have fills : (e.ksu (dieOf f.tile)).fills = [f] := by rw [← after]; exact only
  have wall : e.tick.wall = s.dev.tick.wall := by rw [← after]
  have mem : e.mem = { s.dev.mem with channels := e.mem.channels } := by rw [← after]
  obtain ⟨k, run, fresh, left, lands⟩ := Dev.landFill_read s.dev f unread reads (tiles _) armed
  rw [lands, wall] at answers
  rw [fills, List.erase_cons_head] at left
  have tile := Dev.tile_setTile ({ e.setKsu (dieOf f.tile) k with run := run, fresh := fresh } : Dev) f.tile
    ((s.dev.tile f.tile).filled s.dev.tick.wall (((fillRows r f bs).map (·.1)).drop f.landed) f bs)
  obtain ⟨ring, arriving, halted, -⟩ := Tile.filled_facts (s.dev.tile f.tile) s.dev.tick.wall (((fillRows r f bs).map (·.1)).drop f.landed) f bs
  refine ⟨_, answers, ?_, ?_, ?_, ?_, mem, fun u other => (Dev.tile_setTile_other _ _ other.symm).trans (tiles u), fun wf => ?_⟩
  · exact (congrArg Ksu.fills (Dev.ksu_setKsu e (dieOf f.tile) k)).trans left
  · rw [tile]
    exact ring
  · rw [tile]
    exact arriving
  · rw [tile]
    exact halted
  · obtain ⟨head, body⟩ := Tile.filled_rows wf s.dev.tick.wall (((fillRows r f bs).map (·.1)).drop f.landed) f (bs := bs) (by
      rw [← sectors, List.length_map, List.length_range])
    rw [tile]
    refine ⟨head, fun o inside => body o _ inside ?_⟩
    rw [← sectors, List.getElem?_map, List.getElem?_range inside, Nat.add_comm o 1]
    rfl

end Header

/-- What the only expansion leaves as what is left of it lands. -/
theorem State.expandComplete_lands {e : Expansion} {v : Nat} (only : (s.dev.tile t).expands = [e]) (started : e.started = some v) (wf : (s.dev.tile t).wf = true)
    (completes : s.dev.completes ⟨t, v, (e.rows.drop e.landed).map (·.1)⟩ = true) (once : ((e.rows.drop e.landed).map (·.1)).Nodup) :
    let left := e.rows.drop e.landed
    ∃ d : Dev, s.answers (.expandComplete t) d ∧ (d.tile t).expands = [] ∧
      (d.tile t).arriving = (s.dev.tile t).arriving ++ [(s.dev.tick.wall, e.counter)] ∧
      (∀ p ∈ left, (d.tile t).rowAt p.1 = p.2) ∧ (∀ r, r ∉ left.map (·.1) → (d.tile t).rowAt r = (s.dev.tile t).rowAt r) ∧
      (let y := d.tile t
       y = { s.dev.tile t with scratch := y.scratch, ceRows := y.ceRows, reads := y.reads, slotWall := y.slotWall, slotReads := y.slotReads
                               slotWrites := y.slotWrites, before := y.before, expands := [], arriving := y.arriving }) ∧
      (∀ u, u ≠ t → d.tile u = s.dev.tile u) ∧ d.mem = s.dev.mem ∧ (e.short = true → (d.ksu (dieOf t)).late = true) ∧
      (e.short = false → d.keys = s.dev.keys) := by
  intro left
  have transfer : s.dev.expandTransfer t = some ⟨t, v, (e.rows.drop e.landed).map (·.1)⟩ := by
    simp [Dev.expandTransfer, only, started, List.map_drop]
  have complete : s.dev.expandComplete t = s.dev.landExpansion t e := by
    have found : (s.dev.tile t).expands.find? (·.started.isSome) = some e := by simp [only, started]
    simp only [Dev.expandComplete, found, transfer, completes, if_true]
  obtain ⟨run, keys, fresh, whole, late, lands⟩ := Dev.landExpansion_eq s.dev t e
  have tile := Dev.tile_setTile ({ s.dev with run := run, keys := keys, fresh := fresh } : Dev) t ((s.dev.tile t).expanded s.dev.tick.wall e)
  obtain ⟨scratch, ceRows, reads, slotWall, slotReads, slotWrites, before, frame⟩ := Tile.expanded_frame (s.dev.tile t) s.dev.tick.wall e
  obtain ⟨written, others⟩ := Tile.landRows_row wf s.dev.tick.wall ((e.rows.drop e.landed).map (·.1)) once
  have gone : (s.dev.tile t).expands.erase e = [] := by rw [only, List.erase_cons_head]
  rw [gone] at frame
  refine ⟨_, State.answers_of_act exec_expandComplete (complete.trans lands), ?_, ?_, fun p mem => ?_, fun r other => ?_, ?_,
    fun u other => Dev.tile_setTile_other _ _ other.symm, rfl, late, whole⟩
  · rw [tile, frame]
  · rw [tile, frame]
  · rw [tile, Tile.rowAt_expanded]
    exact written p mem
  · rw [tile, Tile.rowAt_expanded]
    exact others r other
  · rw [tile, frame]

end Events

/-- Settles O48: each event answers with what the unit does, of which the lemmas above say what it leaves. -/
theorem keyStreamEvents : Obligations.KeyStreamEvents := by
  unfold Obligations.KeyStreamEvents
  refine ⟨fun seed entry c use q count tries _ => tailExpand_eq seed entry c use q count tries, ?_, fun s t => ⟨fun running room free => ⟨?_, ?_⟩, ?_, ?_⟩⟩
  · intro e seed device j entry q c r _ _ _ limb chunk sector value
    exact ⟨_, mem_expansionRows e seed device limb chunk sector, rfl, fun k inside => lane_residueRow value r inside⟩
  · intro n slack e b r inside least located bound
    obtain ⟨ring, fills, freeAt, mem, others⟩ := Dev.startFill_facts s.dev (dieOf t) t inside located bound
    exact ⟨_, State.ksuGrant_answers running room free least, ring, ⟨_, fills, rfl, rfl, rfl, rfl, rfl, rfl⟩, freeAt, mem, others⟩
  · intro i slack e least found starts
    obtain ⟨given, failed, drawn⟩ := Dev.startExpansion_eq s.dev found
    have answers : s.answers (.ksuGrant (dieOf t)) (s.dev.startExpansion t i) := State.ksuGrant_answers running room free least
    refine ⟨fun seeded => given seeded ▸ answers, fun device unhealthy => failed device unhealthy ▸ answers, fun device healthy => ?_⟩
    exact ⟨_, _, leBytes_length 32 _, Sec.drew_draws _, drawn device healthy ▸ answers⟩
  · rintro f n r x only rfl rfl armed unread turn up
    exact ⟨fun unjudged clean named => State.pageHeader_passes only turn up unjudged clean named,
      fun unjudged bad going => State.pageHeader_halts only turn up unjudged armed bad going,
      fun v passed completes short => State.fillComplete_lands only turn up armed unread passed completes short⟩
  · intro e v only started wf left completes once
    exact State.expandComplete_lands only started wf completes once

end Sys2Proof.Machine

/- A landing at a sector past the near tier, whose page names a die link that does not exist (R14, R244). -/

namespace Sys2Proof.Machine

/-- A sector past the near tier. Its page is 28835840, as if it lay on die 11, and the path to it from die 0 takes link 11. -/
def sectorBeyond : Nat := 113 * (256 * (40960 * 704))

/-- Data on its way to that sector. -/
def payloadBeyond : Payload := { data := 0, poison := 0 }
def xferBeyond : Xfer := { src := .near 0, dst := .near sectorBeyond, ordinal := 0, off := 0, len := 576, data := some payloadBeyond }

/-- Its descriptor, whose destination is in the near tier, with no element left to request. -/
def bitsBeyond : BitVec 512 := BitVec.ofNat 512 (2 ^ 143)
def jobBeyond : DmaJob := { index := 0, bits := bitsBeyond, cursor := descTotal bitsBeyond, xfers := [xferBeyond] }

/-- The device after reset, but that its record of replays holds a twelfth entry. -/
def twelfthLink : Dev := { State.reset.dev with clocks := { State.reset.dev.clocks with linkHold := List.replicate 11 0 ++ [1] } }

/-- That device with the descriptor in a queue. -/
def replayBeyond : State := { dev := twelfthLink.setTile 0 (Tile.setQueue {} 0 [jobBeyond]) }

theorem replayBeyond_tile : replayBeyond.dev.tile 0 = Tile.setQueue {} 0 [jobBeyond] := Dev.tile_setTile ..

theorem replayBeyond_queue : (replayBeyond.dev.tile 0).queue 0 = [jobBeyond] := by
  rw [replayBeyond_tile]
  rfl

theorem replayBeyond_links : replayBeyond.dev.linkHeld [0, 1, 2, 3, 4, 5, 6, 7] = false := by decide +kernel
theorem replayBeyond_held : replayBeyond.dev.placeHeld 0 xferBeyond.dst = true := by decide +kernel
theorem replayBeyond_unread : replayBeyond.dev.readElsewhere 0 0 xferBeyond.dst = false := by decide +kernel
theorem replayBeyond_refreshed : replayBeyond.dev.refreshing (pageChannel (replayBeyond.dev.mem.nearKey sectorBeyond).1) = false := by decide +kernel
theorem jobBeyond_near : refSpace (dDst jobBeyond.bits) = 2 := by decide +kernel

theorem jobBeyond_walked : descTotal jobBeyond.bits ≤ jobBeyond.cursor := Nat.le_refl (descTotal bitsBeyond)

/-- The element does not land. -/
theorem replayBeyond_waits : replayBeyond.answers (.dmaWriteLand 0 0) replayBeyond.dev := by
  have active : jobBeyond.active 0 replayBeyond.dev.queueRuns = [xferBeyond] := by decide +kernel
  refine State.answers_of_act (f := fun d => d.dmaLand 0 0) rfl ?_
  simp only [Dev.dmaLand, replayBeyond_queue, active, replayBeyond_held, Bool.true_or, if_true]

/-- Refutes O45: the clause on a landing in the near tier has the element land at once. Its premise frees the die links 0 to 7 alone; it bounds neither the sector
nor the record of replays (`linkHold`, eight entries in a device that runs), so a sector past the tier waits for a link that the premise does not name. -/
theorem not_transfersMove : ¬ Obligations.TransfersMove := by
  unfold Obligations.TransfersMove
  intro moves
  obtain ⟨-, -, -, -, -, lands, -⟩ := moves replayBeyond 0 0 jobBeyond [] replayBeyond_links replayBeyond_queue rfl rfl
  obtain ⟨-, near, -⟩ := lands xferBeyond payloadBeyond (.inr rfl) rfl rfl jobBeyond_walked rfl rfl
    (fun _ listed => absurd listed List.not_mem_nil) replayBeyond_unread
  obtain ⟨d, ⟨answers, emptied, -⟩, -⟩ := near sectorBeyond rfl jobBeyond_near (Nat.zero_le _) replayBeyond_refreshed
    (fun _ listed => absurd listed List.not_mem_nil) (Dev.mem_canon (d := State.reset.dev) State.reset_memoryWf) List.not_mem_nil
  rw [← State.answers_unique replayBeyond_waits answers, replayBeyond_queue] at emptied
  exact absurd emptied (List.cons_ne_nil _ _)

end Sys2Proof.Machine
